-- ==== Sys2Proof/Word.lean ====
section
/-! DEFINITION. The words of the machine. -/

namespace Sys2Proof

/-- A 64-bit register value (R16). -/
abbrev Word := BitVec 64

/-- A vector register value of 1,024 bits (R16). -/
abbrev VWord := BitVec 1024

end Sys2Proof
end

