-- ==== Sys2Proof/Machine/Bits.lean ====
section
/-! DEFINITION. Bit fields, sign extension, lanes, byte order, sparse tables and the counter-based generator. -/

namespace Sys2Proof.Machine

/-- Bits lo to lo + w - 1 of x as a natural number (R7). -/
def bits (x lo w : Nat) : Nat := (x / 2 ^ lo) % 2 ^ w

/-- Bit lo of x. -/
def bit (x lo : Nat) : Bool := bits x lo 1 == 1

/-- x with bits lo to lo + w - 1 replaced by the low w bits of v. -/
def setBits (x lo w v : Nat) : Nat := x - bits x lo w * 2 ^ lo + (v % 2 ^ w) * 2 ^ lo

/-- The signed reading of the low w bits of x (R50). -/
def sext (x w : Nat) : Int :=
  let y := x % 2 ^ w
  if y < 2 ^ (w - 1) then (y : Int) else (y : Int) - 2 ^ w

/-- An integer modulo 2^w. -/
def wrap (w : Nat) (x : Int) : Nat := (x % (2 ^ w : Int)).toNat

/-- The integer x clamped to the signed (or natural) range of width w (R54, R61). -/
def satInt (signed : Bool) (w : Nat) (x : Int) : Int :=
  if signed then max (-(2 ^ (w - 1))) (min (2 ^ (w - 1) - 1) x) else max 0 (min (2 ^ w - 1) x)

/-- 1 for true. -/
def b2n (b : Bool) : Nat := if b then 1 else 0

/-- The number of one bits among the low n bits of x. -/
def popc : Nat → Nat → Nat
  | 0, _ => 0
  | n + 1, x => x % 2 + popc n (x / 2)

/-- Bytes of a little-endian value, lowest first (R7). -/
def toBytes : Nat → Nat → List Nat
  | 0, _ => []
  | n + 1, x => x % 256 :: toBytes n (x / 256)

/-- A little-endian value from its bytes, lowest first (R7). -/
def ofBytes : List Nat → Nat
  | [] => 0
  | b :: bs => b % 256 + 256 * ofBytes bs

/-- A value of n fields of w bits, field i at bits w i to w i + w - 1. -/
def packFields (w : Nat) (f : Nat → Nat) (n : Nat) : Nat :=
  (List.range n).foldl (fun acc i => acc + (f i % 2 ^ w) * 2 ^ (w * i)) 0

/-- Lane i of width w of a vector register (R19). -/
def lane (v : VWord) (i w : Nat) : Nat := bits v.toNat (w * i) w

/-- A vector register from its lanes of width w (R19). -/
def ofLanes (w : Nat) (f : Nat → Nat) : VWord := BitVec.ofNat 1024 (packFields w f (1024 / w))

/-- A mask register from its bits 0 to n - 1 (R20). -/
def ofMaskBits (n : Nat) (f : Nat → Bool) : Word := BitVec.ofNat 64 (packFields 1 (fun i => b2n (f i)) n)

/-- The entry of a sparse table at a key, or the default of an unlisted key. -/
def mget {α : Type} (d : α) : List (Nat × α) → Nat → α
  | [], _ => d
  | (k, v) :: m, i => if k = i then v else mget d m i

/-- A sparse table, keys rising, with the entry at a key replaced. -/
def mset {α : Type} : List (Nat × α) → Nat → α → List (Nat × α)
  | [], i, x => [(i, x)]
  | (k, v) :: m, i, x => if k = i then (i, x) :: m else if i < k then (i, x) :: (k, v) :: m else (k, v) :: mset m i x

/-- A sparse table without the entry at a key. -/
def mdel {α : Type} (m : List (Nat × α)) (i : Nat) : List (Nat × α) := m.filter (fun p => p.1 != i)

/-- The list with its element at a place replaced. -/
def lset {α : Type} : List α → Nat → α → List α
  | [], _, _ => []
  | _ :: xs, 0, a => a :: xs
  | x :: xs, n + 1, a => x :: lset xs n a

/-- The list without its element at a place. -/
def ldel {α : Type} : List α → Nat → List α
  | [], _ => []
  | _ :: xs, 0 => xs
  | x :: xs, n + 1 => x :: ldel xs n

/-- The element at a place of a list, or a default. -/
def lget {α : Type} (d : α) : List α → Nat → α
  | [], _ => d
  | x :: _, 0 => x
  | _ :: xs, n + 1 => lget d xs n

/-- The place of the first element that satisfies a test. -/
def lfind {α : Type} (p : α → Bool) : List α → Option Nat
  | [] => none
  | x :: xs => if p x then some 0 else (lfind p xs).map (· + 1)

/-- The counter-based generator of R81. -/
def mix64 (key ctr : Nat) : Nat :=
  let lo (x : Nat) := x % 18446744073709551616
  let x := (lo key) ^^^ lo (ctr * 0x9E3779B97F4A7C15)
  let x := lo ((x ^^^ (x / 1073741824)) * 0xBF58476D1CE4E5B9)
  let x := x ^^^ (lo key / 4294967296 + (lo key % 4294967296) * 4294967296)
  let x := lo ((x ^^^ (x / 134217728)) * 0x94D049BB133111EB)
  x ^^^ (x / 2147483648)

/-- The entry that the tile's generator produces at counter g under a seed, as one 1,024-bit value (R45). -/
def rngEntry (seed g : Nat) : VWord := BitVec.ofNat 1024 (packFields 64 (fun w => mix64 seed (g * 16 + w)) 16)

end Sys2Proof.Machine
end

