-- ==== Sys2Proof/Machine/Float.lean ====
section
/-! DEFINITION. BF16 and FP32 values, rounding and the exact operations (02_number_formats.md, R57 to R63).

A value is taken as a dyadic number, an infinity or a NaN that keeps its FP32 code. A BF16 code c is handled as the FP32
code c x 2^16, which names the same value (R83). An irrational result is carried to far more bits than either format
has, with one sticky bit below them (log A12). -/

namespace Sys2Proof.Machine

/-- A float operand or exact result: fin neg m e is (-1)^neg x m x 2^e, m = 0 a zero of that sign. -/
inductive FVal where
  | nan (code : Nat)
  | inf (neg : Bool)
  | fin (neg : Bool) (m : Nat) (e : Int)
  deriving DecidableEq, Repr

/-- The three rounding modes of R61; SR carries its field width and drawn number (R63). -/
inductive Rm where
  | rne
  | rtz
  | sr (n rnd : Nat)
  deriving DecidableEq, Repr

/-- The default NaN of R59. -/
def FVal.dnan : FVal := .nan 0x7FC00000

/-- The value of an FP32 code (R57). -/
def fval (c : Nat) : FVal :=
  let s := bit c 31
  let e := bits c 23 8
  let f := bits c 0 23
  if e = 255 then (if f = 0 then .inf s else .nan (c % 4294967296))
  else if e = 0 then .fin s f (-149)
  else .fin s (f + 8388608) ((e : Int) - 150)

/-- The value of a BF16 code (R57). -/
def fvalBf (c : Nat) : FVal := fval (c % 65536 * 65536)

/-- The value of a code of width 16 or 32 (R205). -/
def fvalW (w c : Nat) : FVal := if w = 16 then fvalBf c else fval c

/-- m x 2^k rounded down, for any integer k. -/
def shiftFloor (m : Nat) (k : Int) : Nat := if 0 ≤ k then m * 2 ^ k.toNat else m / 2 ^ (-k).toNat

/-- Whether m x 2^k is an integer. -/
def shiftExact (m : Nat) (k : Int) : Bool := 0 ≤ k || m % 2 ^ (-k).toNat == 0

/-- The fraction of m x 2^k, scaled by 2^n and rounded down (R63). -/
def shiftFrac (m : Nat) (k : Int) (n : Nat) : Nat := shiftFloor m (k + n) % 2 ^ n

/-- m x 2^k rounded to a natural number under a mode, ties to even under RNE (R61, R63). -/
def roundNat (mode : Rm) (m : Nat) (k : Int) : Nat :=
  let q := shiftFloor m k
  if shiftExact m k then q
  else
    match mode with
    | .rtz => q
    | .rne =>
      let half := shiftFloor m (k + 1) % 2 == 1
      if half && (!shiftExact m (k + 1) || q % 2 == 1) then q + 1 else q
    | .sr n rnd => if rnd < shiftFrac m k n then q + 1 else q

/-- The overflow code without its sign, for a format of fraction width F (R62). -/
def overflowMag (F : Nat) (mode : Rm) (sat : Bool) : Nat :=
  match mode with
  | .rtz => 255 * 2 ^ F - 1
  | _ => if sat then 255 * 2 ^ F - 1 else 255 * 2 ^ F

/-- The code without its sign of the nonzero magnitude m x 2^e in a format of fraction width F (R57, R61 to R63). -/
def roundMag (F : Nat) (mode : Rm) (sat : Bool) (m : Nat) (e : Int) : Nat :=
  let top : Int := max ((Nat.log2 m : Int) + e) (-126)
  if top > 127 then overflowMag F mode sat
  else
    let code := (top + 126).toNat * 2 ^ F + roundNat mode m (e - (top - F))
    if code ≥ 255 * 2 ^ F then overflowMag F mode sat else code

/-- v rounded to an FP32 code (R59, R61, R62). -/
def roundF (mode : Rm) (sat : Bool) (v : FVal) : Nat :=
  match v with
  | .nan c => if bit c 22 then c else c + 4194304
  | .inf s => b2n s * 2147483648 + 0x7F800000
  | .fin s m e => b2n s * 2147483648 + (if m = 0 then 0 else roundMag 23 mode sat m e)

/-- v rounded to a BF16 code (R59, R61, R62). -/
def roundBf (mode : Rm) (sat : Bool) (v : FVal) : Nat :=
  match v with
  | .nan c => let h := c / 65536; if bit h 6 then h else h + 64
  | .inf s => b2n s * 32768 + 0x7F80
  | .fin s m e => b2n s * 32768 + (if m = 0 then 0 else roundMag 7 mode sat m e)

/-- v rounded to a code of width 16 or 32 (R205). -/
def roundW (w : Nat) (mode : Rm) (sat : Bool) (v : FVal) : Nat := if w = 16 then roundBf mode sat v else roundF mode sat v

/-- round_f under RNE with overflow to infinity, as the engines, the facets and the Pendant round (R245, R278, R425). -/
def rn (v : FVal) : FVal := fval (roundF .rne false v)

/-- v rounded to an integer without a range limit; NaN gives 0 (R55, R61, R63). An infinity has no integer. -/
def rint (mode : Rm) (v : FVal) : Int :=
  match v with
  | .fin s m e => if s then -(roundNat mode m e : Int) else roundNat mode m e
  | _ => 0

/-- A float rounded and clamped to an integer format (R55). -/
def toInt (mode : Rm) (signed : Bool) (w : Nat) (v : FVal) : Int :=
  match v with
  | .nan _ => 0
  | .inf s => if s then satInt signed w (-(2 ^ 80)) else satInt signed w (2 ^ 80)
  | v => satInt signed w (rint mode v)

/-- An integer as a float. -/
def ofInt (x : Int) : FVal := .fin (decide (x < 0)) x.natAbs 0

/-- A value with its sign changed; a NaN stays (R207). -/
def fneg (v : FVal) : FVal :=
  match v with
  | .nan c => .nan c
  | .inf s => .inf (!s)
  | .fin s m e => .fin (!s) m e

/-- A value without its sign; a NaN stays (R207). -/
def fabs (v : FVal) : FVal :=
  match v with
  | .nan c => .nan c
  | .inf _ => .inf false
  | .fin _ m e => .fin false m e

/-- Whether a value is a NaN. -/
def FVal.isNan (v : FVal) : Bool := match v with | .nan _ => true | _ => false

/-- Whether a value is a NaN or infinite. -/
def FVal.notFinite (v : FVal) : Bool := match v with | .fin _ _ _ => false | _ => true

/-- Whether a value is a zero. -/
def FVal.isZero (v : FVal) : Bool := match v with | .fin _ m _ => m == 0 | _ => false

/-- Whether a value is less than zero (R57). -/
def FVal.isNeg (v : FVal) : Bool := match v with | .fin s m _ => s && m != 0 | .inf s => s | .nan _ => false

/-- Two dyadic numbers over one exponent, as signed integers. -/
def alignPair (s1 : Bool) (m1 : Nat) (e1 : Int) (s2 : Bool) (m2 : Nat) (e2 : Int) : Int × Int × Int :=
  let e := min e1 e2
  let a : Int := (m1 * 2 ^ (e1 - e).toNat : Nat)
  let b : Int := (m2 * 2 ^ (e2 - e).toNat : Nat)
  (if s1 then -a else a, if s2 then -b else b, e)

/-- The exact sum of two dyadic numbers; a zero sum is -0 only from two negative zeros (R60). -/
def addFin (s1 : Bool) (m1 : Nat) (e1 : Int) (s2 : Bool) (m2 : Nat) (e2 : Int) : FVal :=
  let (a, b, e) := alignPair s1 m1 e1 s2 m2 e2
  if m1 = 0 ∧ m2 = 0 then .fin (s1 && s2) 0 0
  else .fin (decide (a + b < 0)) (a + b).natAbs e

/-- The exact sum (R59, R60). -/
def fadd (a b : FVal) : FVal :=
  match a, b with
  | .nan c, _ => .nan c
  | _, .nan c => .nan c
  | .inf s, .inf t => if s == t then .inf s else FVal.dnan
  | .inf s, _ => .inf s
  | _, .inf t => .inf t
  | .fin s1 m1 e1, .fin s2 m2 e2 => addFin s1 m1 e1 s2 m2 e2

/-- The exact difference (R59). -/
def fsub (a b : FVal) : FVal := fadd a (fneg b)

/-- The exact product (R59). -/
def fmul (a b : FVal) : FVal :=
  match a, b with
  | .nan c, _ => .nan c
  | _, .nan c => .nan c
  | .inf s, .inf t => .inf (s != t)
  | .inf s, .fin t m _ => if m = 0 then FVal.dnan else .inf (s != t)
  | .fin s m _, .inf t => if m = 0 then FVal.dnan else .inf (s != t)
  | .fin s1 m1 e1, .fin s2 m2 e2 => .fin (s1 != s2) (m1 * m2) (e1 + e2)

/-- The exact fused result a x b + c with one of the sign changes of R207; NaN operands in the order a, b, c (R59). -/
def ffma (negProd negC : Bool) (a b c : FVal) : FVal :=
  match a, b, c with
  | .nan x, _, _ => .nan x
  | _, .nan x, _ => .nan x
  | _, _, .nan x => .nan x
  | a, b, c =>
    let p := fmul a b
    fadd (if negProd then fneg p else p) (if negC then fneg c else c)

/-- A key that orders non-NaN values, with -0 below +0 (R60). -/
def flt (a b : FVal) : Bool :=
  match a, b with
  | .inf s, .inf t => s && !t
  | .inf s, .fin _ _ _ => s
  | .fin _ _ _, .inf t => !t
  | .fin s1 m1 e1, .fin s2 m2 e2 =>
    let (x, y, _) := alignPair s1 m1 e1 s2 m2 e2
    if x = y then s1 && !s2 else decide (x < y)
  | _, _ => false

/-- Numeric equality, -0 equal to +0; false with a NaN (R208). -/
def feq (a b : FVal) : Bool :=
  match a, b with
  | .inf s, .inf t => s == t
  | .fin s1 m1 e1, .fin s2 m2 e2 => let (x, y, _) := alignPair s1 m1 e1 s2 m2 e2; decide (x = y)
  | _, _ => false

/-- Numeric order, -0 equal to +0; false with a NaN (R208). -/
def fless (a b : FVal) : Bool := flt a b && !feq a b

/-- The larger value under R60; a NaN operand comes back first (R59). -/
def fmax (a b : FVal) : FVal := if a.isNan then a else if b.isNan then b else if flt a b then b else a

/-- The smaller value under R60; a NaN operand comes back first (R59). -/
def fmin (a b : FVal) : FVal := if a.isNan then a else if b.isNan then b else if flt b a then b else a

/-- A magnitude known to lie just above q x 2^e: q with a sticky bit below it. -/
def sticky (neg : Bool) (q : Nat) (e : Int) (exact : Bool) : FVal := .fin neg (2 * q + b2n (!exact)) (e - 1)

/-- Digit-by-digit square root of n, from the bit of weight 4^k down. -/
def isqrtAux : Nat → Nat → Nat → Nat
  | 0, _, r => r
  | k + 1, n, r => let t := r + 2 ^ k; isqrtAux k n (if t * t ≤ n then t else r)

/-- The integer square root. -/
def isqrt (n : Nat) : Nat := isqrtAux (Nat.log2 n / 2 + 1) n 0

/-- The exact quotient of two values, with a sticky bit (R222, R223, R439). -/
def fdiv (a b : FVal) : FVal :=
  match a, b with
  | .nan c, _ => .nan c
  | _, .nan c => .nan c
  | .inf _, .inf _ => FVal.dnan
  | .inf s, .fin t _ _ => .inf (s != t)
  | .fin s _ _, .inf t => .fin (s != t) 0 0
  | .fin s1 m1 e1, .fin s2 m2 e2 =>
    if m2 = 0 then (if m1 = 0 then FVal.dnan else .inf (s1 != s2))
    else if m1 = 0 then .fin (s1 != s2) 0 0
    else
      let n := m1 * 2 ^ 400
      sticky (s1 != s2) (n / m2) (e1 - e2 - 400) (n % m2 == 0)

/-- The exact square root (R425); negative operands are invalid. -/
def fsqrt (a : FVal) : FVal :=
  match a with
  | .nan c => .nan c
  | .inf s => if s then FVal.dnan else .inf false
  | .fin s m e =>
    if m = 0 then .fin s 0 0
    else if s then FVal.dnan
    else
      let odd := (e % 2).toNat
      let n := m * 2 ^ odd * 2 ^ 400
      let q := isqrt n
      sticky false q ((e - odd) / 2 - 200) (q * q == n)

/-- 1 / a (R215). -/
def frcp (a : FVal) : FVal := fdiv (.fin false 1 0) a

/-- 1 / sqrt a (R215). -/
def frsq (a : FVal) : FVal :=
  match a with
  | .nan c => .nan c
  | .inf s => if s then FVal.dnan else .fin false 0 0
  | .fin s m e =>
    if m = 0 then .inf s
    else if s then FVal.dnan
    else
      let odd := (e % 2).toNat
      let d := m * 2 ^ odd
      let n := 2 ^ 800 / d
      let q := isqrt n
      sticky false q (-400 - (e - odd) / 2) (q * q * d == 2 ^ 800)

/-- floor of ln 2 x 2^512. -/
def ln2Fix : Nat :=
  0xb17217f7d1cf79abc9e3b39803f2f6af40f343267298b62d8a0d175b8baafa2be7b876206debac98559552fb4afa1b10ed2eae35c138214427573b291169b825

/-- floor of log2 e x 2^512. -/
def log2eFix : Nat :=
  0x171547652b82fe1777d0ffda0d23a7d11d6aef551bad2b4b1164a2cd9a342648fbc3887eeaa2ed9ac49b25eeb82d7c167d52173cc1895213f897f5e06a7be7366

/-- The exponential series in units of 2^-512: the sum of term / i! x^j over the remaining terms. -/
def expSeries : Nat → Nat → Nat → Nat → Nat → Nat
  | 0, _, _, _, acc => acc
  | k + 1, x, i, term, acc => let t := term * x / 2 ^ 512 / i; expSeries k x (i + 1) t (acc + t)

/-- 2^f for a fraction f in units of 2^-512, in the same units. -/
def exp2Frac (f : Nat) : Nat := expSeries 120 (f * ln2Fix / 2 ^ 512) 1 (2 ^ 512) (2 ^ 512)

/-- 2^a (R215, R425). -/
def fexp2 (a : FVal) : FVal :=
  match a with
  | .nan c => .nan c
  | .inf s => if s then .fin false 0 0 else .inf false
  | .fin s m e =>
    if m = 0 then .fin false 1 0
    else if (Nat.log2 m : Int) + e > 12 then (if s then .fin false 1 (-5000) else .fin false 1 5000)
    else
      let x : Int := shiftFloor m (e + 512)
      let y : Int := if s then -x else x
      let n := y / (2 ^ 512 : Int)
      let f := (y % (2 ^ 512 : Int)).toNat
      if f = 0 then .fin false 1 n else sticky false (exp2Frac f) (n - 512) false

/-- Bits of log2 x by repeated squaring; x in units of 2^-600, 1 <= x < 2. -/
def log2Bits : Nat → Nat → Nat → Nat
  | 0, _, acc => acc
  | k + 1, x, acc =>
    let y := x * x / 2 ^ 600
    if y ≥ 2 ^ 601 then log2Bits k (y / 2) (2 * acc + 1) else log2Bits k y (2 * acc)

/-- log2 a (R215, R425). -/
def flog2 (a : FVal) : FVal :=
  match a with
  | .nan c => .nan c
  | .inf s => if s then FVal.dnan else .inf false
  | .fin s m e =>
    if m = 0 then .inf true
    else if s then FVal.dnan
    else
      let l := Nat.log2 m
      let n : Int := (l : Int) + e
      if m = 2 ^ l then ofInt n
      else
        let fr := log2Bits 200 (shiftFloor m (600 - (l : Int))) 0
        let y : Int := n * 2 ^ 200 + fr
        if y < 0 then sticky true (y.natAbs - 1) (-200) false else sticky false y.natAbs (-200) false

/-- tanh a (R215). -/
def ftanh (a : FVal) : FVal :=
  match a with
  | .nan c => .nan c
  | .inf s => .fin s 1 0
  | .fin s m e =>
    if m = 0 then .fin s 0 0
    else
      let top := (Nat.log2 m : Int) + e
      if top < -60 then .fin s (m * 2 ^ 200 - 1) (e - 200)
      else if top > 6 then .fin s (2 ^ 200 - 1) (-200)
      else
        let y := shiftFloor m (e + 1 + 512) * log2eFix / 2 ^ 512
        let n := y / 2 ^ 512
        let f := y % 2 ^ 512
        let t := 2 ^ 1024 / exp2Frac f / 2 ^ n
        sticky s ((2 ^ 512 - t) * 2 ^ 400 / (2 ^ 512 + t)) (-400) false

end Sys2Proof.Machine
end

