-- ==== Sys2Proof/Config.lean ====
section
/-! DEFINITION. What the module fixes, and the free values.

A free value is a constant without a body: nothing can be proved of which value it is (log A16). It is applied to the
counter State.free, which each use advances, or to the thing it belongs to. -/

namespace Sys2Proof

/-- A free choice between two permitted outcomes (R15 "one of"; log A16). -/
opaque Config.freeBool : Nat → Bool

/-- A free natural number (log A16). -/
opaque Config.freeNat : Nat → Nat

/-- A free integer: an analogue error or step in units of 2^-40 (log A10, A11). -/
opaque Config.freeInt : Nat → Int

/-- The conductance, in units of 2^-40, that a cell holds before anything sets it: facet, array and epoch, then the cell
(log A10). -/
opaque Config.freeCell : Nat → Nat → Int

/-- What a telemetry sensor of a unit reads (R479; log A18). -/
opaque Config.sensor : Nat → Nat → Nat

/-- The replacement policy of a cache: of the entries of a full set, the most recent first, the place of the one that makes room for
a new one (R320, R321, R323, R345; log 9). -/
opaque Config.victim : List Nat → Nat → Nat

/-- The DRAM row that a byte of an HBM stack lies in: the number of its bank in the stack times 2^32, plus that of the row (R324, R331;
log 9). -/
opaque Config.rowOf : Nat → Nat

/-- Compute dies in the module (R1). -/
def Config.dies : Nat := 16

/-- Tiles on a compute die (R1). -/
def Config.tilesPerDie : Nat := 64

/-- Bytes of one scratchpad: 3 MiB in 48 banks of 64 KiB (R316). -/
def Config.scratchBytes : Nat := 0x300000

/-- First address of the global virtual space (R168). -/
def Config.globalBase : Nat := 0x100000000000

/-- Bytes of an HBM stack that the MTUs map: 42,816 MiB (R324). -/
def Config.stackBytes : Nat := 42816 * 1048576

/-- Bytes of a second-tier channel that the MTUs map: 57,088 MiB (R332). -/
def Config.tierBytes : Nat := 57088 * 1048576

/-- GTC ticks that a region may last (R119). -/
def Config.regionTicks : Nat := 320

/-- The feature bits that this module's configuration record offers: bits 0 to 10 of R472 (log A18). -/
def Config.featcap : Nat := 0x7FF

end Sys2Proof
end

