-- ==== Sys2Proof/Syntax.lean ====
section
/-! DEFINITION. The instructions: one constructor for each row of spec/opcode_table.json.

Rows 0 to 203 are slot operations of a bundle (R84, R89): each carries the fields of its format (R92 to R94), a V-slot
operation also the extension byte lent by a header and whether there is a header (R88, R93), a T-slot operation the
byte ET (R94). Rows 204 to 338 are whole steps of the other units (spec/95_what_each_step_holds.md); which tile, queue or
other agent a step is about stands in State.args (log A17), so these constructors carry no operands. -/

namespace Sys2Proof

/-- S-slot fields of ADD, SUB, AND, OR, XOR, ANDN, SHL, SHR, SRA, MUL, MULH_I, MULH_N and others (R92 to R94). -/
structure OpSNgdab where
  n : Fin 2
  g : Fin 16
  d : Fin 64
  a : Fin 64
  b : Fin 64
  deriving DecidableEq, Repr

/-- S-slot fields of CLZ, POPC (R92 to R94). -/
structure OpSNgda where
  n : Fin 2
  g : Fin 16
  d : Fin 64
  a : Fin 64
  deriving DecidableEq, Repr

/-- S-slot fields of SEL (R92 to R94). -/
structure OpSNqdab where
  n : Fin 2
  q : Fin 16
  d : Fin 64
  a : Fin 64
  b : Fin 64
  deriving DecidableEq, Repr

/-- S-slot fields of AMO_ADD, AMO_MIN_I, AMO_MIN_N, AMO_MAX_I, AMO_MAX_N, AMO_AND, AMO_OR, AMO_XOR, AMO_XCHG, AMO_CAS (R92 to R94). -/
structure OpSSdabw where
  s : Fin 16
  d : Fin 64
  a : Fin 64
  b : Fin 64
  w : Fin 2
  deriving DecidableEq, Repr

/-- S-slot fields of ADDI, ANDI, ORI, XORI, MULI, MINI_I, MINI_N, MAXI_I, MAXI_N, XV2S_N8, XV2S_I8, XV2S_N16 and others (R92 to R94). -/
structure OpSNgdai where
  n : Fin 2
  g : Fin 16
  d : Fin 64
  a : Fin 64
  i : Fin 256
  deriving DecidableEq, Repr

/-- S-slot fields of SHLI, SHRI, SRAI (R92 to R94). -/
structure OpSNgdai2 where
  n : Fin 2
  g : Fin 16
  d : Fin 64
  a : Fin 64
  i : Fin 64
  deriving DecidableEq, Repr

/-- S-slot fields of LDI (R92 to R94). -/
structure OpSDi where
  d : Fin 64
  i : Fin 524288
  deriving DecidableEq, Repr

/-- S-slot fields of LDHI (R92 to R94). -/
structure OpSDhi where
  d : Fin 64
  h : Fin 4
  i : Fin 65536
  deriving DecidableEq, Repr

/-- S-slot fields of CMP (R92 to R94). -/
structure OpSNgqabc where
  n : Fin 2
  g : Fin 16
  q : Fin 16
  a : Fin 64
  b : Fin 64
  c : Fin 8
  deriving DecidableEq, Repr

/-- S-slot fields of CMPI (R92 to R94). -/
structure OpSNgqaci where
  n : Fin 2
  g : Fin 16
  q : Fin 16
  a : Fin 64
  c : Fin 8
  i : Fin 128
  deriving DecidableEq, Repr

/-- S-slot fields of PAND, POR, PXOR (R92 to R94). -/
structure OpSNgqxayb where
  n : Fin 2
  g : Fin 16
  q : Fin 16
  x : Fin 2
  a : Fin 16
  y : Fin 2
  b : Fin 16
  deriving DecidableEq, Repr

/-- S-slot fields of PNOT (R92 to R94). -/
structure OpSNgqxa where
  n : Fin 2
  g : Fin 16
  q : Fin 16
  x : Fin 2
  a : Fin 16
  deriving DecidableEq, Repr

/-- S-slot fields of BR, BR_G, LOOP (R92 to R94). -/
structure OpSNgo where
  n : Fin 2
  g : Fin 16
  o : Fin 1048576
  deriving DecidableEq, Repr

/-- S-slot fields of BRC (R92 to R94). -/
structure OpSNgxqo where
  n : Fin 2
  g : Fin 16
  x : Fin 2
  q : Fin 16
  o : Fin 32768
  deriving DecidableEq, Repr

/-- S-slot fields of JMP, RET, SETLC, WAITC, CHK_S (R92 to R94). -/
structure OpSNga where
  n : Fin 2
  g : Fin 16
  a : Fin 64
  deriving DecidableEq, Repr

/-- S-slot fields of CALL (R92 to R94). -/
structure OpSNgdo where
  n : Fin 2
  g : Fin 16
  d : Fin 64
  o : Fin 16384
  deriving DecidableEq, Repr

/-- S-slot fields of LOOPR (R92 to R94). -/
structure OpSNgso where
  n : Fin 2
  g : Fin 16
  s : Fin 8
  o : Fin 131072
  deriving DecidableEq, Repr

/-- S-slot fields of TRAP (R92 to R94). -/
structure OpSNgi where
  n : Fin 2
  g : Fin 16
  i : Fin 256
  deriving DecidableEq, Repr

/-- S-slot fields of ERET, HALT, RETIRE (R92 to R94). -/
structure OpSNg where
  n : Fin 2
  g : Fin 16
  deriving DecidableEq, Repr

/-- S-slot fields of MFS (R92 to R94). -/
structure OpSNgdi where
  n : Fin 2
  g : Fin 16
  d : Fin 64
  i : Fin 256
  deriving DecidableEq, Repr

/-- S-slot fields of MTS, PREF (R92 to R94). -/
structure OpSNgai where
  n : Fin 2
  g : Fin 16
  a : Fin 64
  i : Fin 256
  deriving DecidableEq, Repr

/-- S-slot fields of SETFMT (R92 to R94). -/
structure OpSI where
  i : Fin 131072
  deriving DecidableEq, Repr

/-- S-slot fields of FENCE (R92 to R94). -/
structure OpSNgks where
  n : Fin 2
  g : Fin 16
  k : Fin 4
  s : Fin 16
  deriving DecidableEq, Repr

/-- V-slot fields of VADD, VSUB, VMUL, VFMA, VFMS, VFNMA, VMAX, VMIN, VCLAMP, VMIN_INT, VMAX_INT, VPACK_MX and others (R92 to R94). -/
structure OpVGdabf where
  g : Fin 16
  d : Fin 64
  a : Fin 64
  b : Fin 64
  f : Fin 8
  h : Fin 2
  e : Fin 256
  deriving DecidableEq, Repr

/-- V-slot fields of VABS, VNEG, VUNPK_MX, VEXP2, VLOG2, VRCP, VRSQ, VTANH, VRSUM, VRMAX, VRMIN, VBFACC and others (R92 to R94). -/
structure OpVGdaf where
  g : Fin 16
  d : Fin 64
  a : Fin 64
  f : Fin 8
  h : Fin 2
  e : Fin 256
  deriving DecidableEq, Repr

/-- V-slot fields of VCMP, VCMP_I (R92 to R94). -/
structure OpVGcmabf where
  g : Fin 16
  c : Fin 8
  m : Fin 8
  a : Fin 64
  b : Fin 64
  f : Fin 8
  h : Fin 2
  e : Fin 256
  deriving DecidableEq, Repr

/-- V-slot fields of VSEL (R92 to R94). -/
structure OpVGdabm where
  g : Fin 16
  d : Fin 64
  a : Fin 64
  b : Fin 64
  m : Fin 8
  h : Fin 2
  e : Fin 256
  deriving DecidableEq, Repr

/-- V-slot fields of VADD_I, VSUB_I, VMUL_I, VAND, VOR, VXOR, VSHL, VSHR, VSRA, VPERM, VZIP, VUZP (R92 to R94). -/
structure OpVGdabf2 where
  g : Fin 16
  d : Fin 64
  a : Fin 64
  b : Fin 64
  f : Fin 4
  h : Fin 2
  e : Fin 256
  deriving DecidableEq, Repr

/-- V-slot fields of VCVT (R92 to R94). -/
structure OpVGdastf where
  g : Fin 16
  d : Fin 64
  a : Fin 64
  s : Fin 8
  t : Fin 8
  f : Fin 8
  h : Fin 2
  e : Fin 256
  deriving DecidableEq, Repr

/-- V-slot fields of VCVT_SR (R92 to R94). -/
structure OpVGdast where
  g : Fin 16
  d : Fin 64
  a : Fin 64
  s : Fin 8
  t : Fin 8
  h : Fin 2
  e : Fin 256
  deriving DecidableEq, Repr

/-- V-slot fields of VTRN (R92 to R94). -/
structure OpVGda where
  g : Fin 16
  d : Fin 64
  a : Fin 64
  h : Fin 2
  e : Fin 256
  deriving DecidableEq, Repr

/-- V-slot fields of VROT, VBCST (R92 to R94). -/
structure OpVGdauf where
  g : Fin 16
  d : Fin 64
  a : Fin 64
  u : Fin 64
  f : Fin 4
  h : Fin 2
  e : Fin 256
  deriving DecidableEq, Repr

/-- V-slot fields of VSTAT_W (R92 to R94). -/
structure OpVGab where
  g : Fin 16
  a : Fin 64
  b : Fin 64
  h : Fin 2
  e : Fin 256
  deriving DecidableEq, Repr

/-- V-slot fields of VSTAT_R (R92 to R94). -/
structure OpVGdb where
  g : Fin 16
  d : Fin 64
  b : Fin 64
  h : Fin 2
  e : Fin 256
  deriving DecidableEq, Repr

/-- V-slot fields of VMOM (R92 to R94). -/
structure OpVGabf where
  g : Fin 16
  a : Fin 64
  b : Fin 64
  f : Fin 8
  h : Fin 2
  e : Fin 256
  deriving DecidableEq, Repr

/-- V-slot fields of VPPROB (R92 to R94). -/
structure OpVGdab where
  g : Fin 16
  d : Fin 64
  a : Fin 64
  b : Fin 64
  h : Fin 2
  e : Fin 256
  deriving DecidableEq, Repr

/-- V-slot fields of VLD, VST (R92 to R94). -/
structure OpVGdai where
  g : Fin 16
  d : Fin 64
  a : Fin 64
  i : Fin 64
  h : Fin 2
  e : Fin 256
  deriving DecidableEq, Repr

/-- V-slot fields of VST_M (R92 to R94). -/
structure OpVGdaim where
  g : Fin 16
  d : Fin 64
  a : Fin 64
  i : Fin 64
  m : Fin 8
  h : Fin 2
  e : Fin 256
  deriving DecidableEq, Repr

/-- V-slot fields of VLDB (R92 to R94). -/
structure OpVGdaif where
  g : Fin 16
  d : Fin 64
  a : Fin 64
  i : Fin 64
  f : Fin 4
  h : Fin 2
  e : Fin 256
  deriving DecidableEq, Repr

/-- V-slot fields of VMOV, XS2V, XM2Q (R92 to R94). -/
structure OpVGdaf2 where
  g : Fin 16
  d : Fin 64
  a : Fin 64
  f : Fin 4
  h : Fin 2
  e : Fin 256
  deriving DecidableEq, Repr

/-- V-slot fields of VLI (R92 to R94). -/
structure OpVGdwi where
  g : Fin 16
  d : Fin 64
  w : Fin 4
  i : Fin 8192
  h : Fin 2
  e : Fin 256
  deriving DecidableEq, Repr

/-- V-slot fields of CHK_V (R92 to R94). -/
structure OpVGa where
  g : Fin 16
  a : Fin 64
  h : Fin 2
  e : Fin 256
  deriving DecidableEq, Repr

/-- T-slot fields of XMVM, XMVT (R92 to R94). -/
structure OpTNgfkab where
  n : Fin 2
  g : Fin 16
  f : Fin 8
  k : Fin 4
  a : Fin 64
  b : Fin 64
  e : Fin 256
  deriving DecidableEq, Repr

/-- T-slot fields of XUPD_A, XUPD_C, XUPD_D (R92 to R94). -/
structure OpTNgfab where
  n : Fin 2
  g : Fin 16
  f : Fin 8
  a : Fin 64
  b : Fin 64
  e : Fin 256
  deriving DecidableEq, Repr

/-- T-slot fields of XFER, XFER_R, XRST, XSYM_LD, XSYM_ST, XCFG_W, XCFG_R, XCFG_WA, XCFG_RA, XCFG_WC, XCFG_RC (R92 to R94). -/
structure OpTNgfa where
  n : Fin 2
  g : Fin 16
  f : Fin 8
  a : Fin 64
  e : Fin 256
  deriving DecidableEq, Repr

/-- T-slot fields of XRST_ALL, XSYM_CAL, XMODE_R, XWAIT (R92 to R94). -/
structure OpTNgf where
  n : Fin 2
  g : Fin 16
  f : Fin 8
  e : Fin 256
  deriving DecidableEq, Repr

/-- T-slot fields of XGET (R92 to R94). -/
structure OpTNgfkb where
  n : Fin 2
  g : Fin 16
  f : Fin 8
  k : Fin 16
  b : Fin 64
  e : Fin 256
  deriving DecidableEq, Repr

/-- T-slot fields of XMODE_N (R92 to R94). -/
structure OpTNgfrsv where
  n : Fin 2
  g : Fin 16
  f : Fin 8
  rsv : Fin 3
  e : Fin 256
  deriving DecidableEq, Repr

/-- T-slot fields of XSTAT, XSTAT_PC (R92 to R94). -/
structure OpTNgfb where
  n : Fin 2
  g : Fin 16
  f : Fin 8
  b : Fin 64
  e : Fin 256
  deriving DecidableEq, Repr

/-- T-slot fields of MXLD (R92 to R94). -/
structure OpTNgdabf where
  n : Fin 2
  g : Fin 16
  d : Fin 4
  a : Fin 64
  b : Fin 64
  f : Fin 4
  e : Fin 256
  deriving DecidableEq, Repr

/-- T-slot fields of MXLD_R (R92 to R94). -/
structure OpTNgdb where
  n : Fin 2
  g : Fin 16
  d : Fin 4
  b : Fin 64
  e : Fin 256
  deriving DecidableEq, Repr

/-- T-slot fields of MMA, MMAZ (R92 to R94). -/
structure OpTNgcxym where
  n : Fin 2
  g : Fin 16
  c : Fin 8
  x : Fin 4
  y : Fin 4
  m : Fin 8
  e : Fin 256
  deriving DecidableEq, Repr

/-- T-slot fields of MMAG (R92 to R94). -/
structure OpTNgcxymak where
  n : Fin 2
  g : Fin 16
  c : Fin 8
  x : Fin 4
  y : Fin 4
  m : Fin 8
  a : Fin 64
  k : Fin 4
  e : Fin 256
  deriving DecidableEq, Repr

/-- T-slot fields of MXRD, MXWR (R92 to R94). -/
structure OpTNgcak where
  n : Fin 2
  g : Fin 16
  c : Fin 8
  a : Fin 64
  k : Fin 16
  e : Fin 256
  deriving DecidableEq, Repr

/-- T-slot fields of MXCLR (R92 to R94). -/
structure OpTNgc where
  n : Fin 2
  g : Fin 16
  c : Fin 8
  e : Fin 256
  deriving DecidableEq, Repr

/-- T-slot fields of CPY, CPYW, FILL, GATH, BAR_TEST, CHSET (R92 to R94). -/
structure OpTNgdab where
  n : Fin 2
  g : Fin 16
  d : Fin 64
  a : Fin 64
  b : Fin 64
  e : Fin 256
  deriving DecidableEq, Repr

/-- T-slot fields of BAR_INIT, BAR_EXP, BAR_ARR, BAR_WAIT, BEAD_SEND (R92 to R94). -/
structure OpTNgab where
  n : Fin 2
  g : Fin 16
  a : Fin 64
  b : Fin 64
  e : Fin 256
  deriving DecidableEq, Repr

/-- T-slot fields of BANK_ACQ, BANK_REL, BEAD_DONE, RNG_SEED (R92 to R94). -/
structure OpTNga where
  n : Fin 2
  g : Fin 16
  a : Fin 64
  e : Fin 256
  deriving DecidableEq, Repr

/-- T-slot fields of BEAD_RECV (R92 to R94). -/
structure OpTNg where
  n : Fin 2
  g : Fin 16
  e : Fin 256
  deriving DecidableEq, Repr

/-- T-slot fields of BEAD_HDR (R92 to R94). -/
structure OpTNgdb2 where
  n : Fin 2
  g : Fin 16
  d : Fin 64
  b : Fin 64
  e : Fin 256
  deriving DecidableEq, Repr

/-- T-slot fields of DUP_S (R92 to R94). -/
structure OpTNgfab2 where
  n : Fin 2
  g : Fin 16
  f : Fin 128
  a : Fin 64
  b : Fin 64
  e : Fin 256
  deriving DecidableEq, Repr

/-- The fields of a bundle header (R86). -/
structure OpHeader where
  rb : Fin 2
  re : Fin 2
  vj : Fin 2
  tw : Fin 2
  e0 : Fin 256
  e1 : Fin 256
  et : Fin 256
  deriving DecidableEq, Repr

/-- A slot word that no row of the opcode maps describes: its slot position and its bits (R99). -/
structure OpUnassigned where
  slot : Fin 4
  word : Fin 4294967296
  h : Fin 2
  e : Fin 256
  deriving DecidableEq, Repr

/-- One constructor for each row of spec/opcode_table.json, in the table's order but for header and unassignedOpcode. -/
inductive Instr where
  | nop
  | add (o : OpSNgdab)
  | sub (o : OpSNgdab)
  | and (o : OpSNgdab)
  | or (o : OpSNgdab)
  | xor (o : OpSNgdab)
  | andn (o : OpSNgdab)
  | shl (o : OpSNgdab)
  | shr (o : OpSNgdab)
  | sra (o : OpSNgdab)
  | mul (o : OpSNgdab)
  | mulhI (o : OpSNgdab)
  | mulhN (o : OpSNgdab)
  | minI (o : OpSNgdab)
  | minN (o : OpSNgdab)
  | maxI (o : OpSNgdab)
  | maxN (o : OpSNgdab)
  | clz (o : OpSNgda)
  | popc (o : OpSNgda)
  | sel (o : OpSNqdab)
  | amoAdd (o : OpSSdabw)
  | amoMinI (o : OpSSdabw)
  | amoMinN (o : OpSSdabw)
  | amoMaxI (o : OpSSdabw)
  | amoMaxN (o : OpSSdabw)
  | amoAnd (o : OpSSdabw)
  | amoOr (o : OpSSdabw)
  | amoXor (o : OpSSdabw)
  | amoXchg (o : OpSSdabw)
  | amoCas (o : OpSSdabw)
  | addi (o : OpSNgdai)
  | andi (o : OpSNgdai)
  | ori (o : OpSNgdai)
  | xori (o : OpSNgdai)
  | shli (o : OpSNgdai2)
  | shri (o : OpSNgdai2)
  | srai (o : OpSNgdai2)
  | muli (o : OpSNgdai)
  | miniI (o : OpSNgdai)
  | miniN (o : OpSNgdai)
  | maxiI (o : OpSNgdai)
  | maxiN (o : OpSNgdai)
  | ldi (o : OpSDi)
  | ldhi (o : OpSDhi)
  | cmp (o : OpSNgqabc)
  | cmpi (o : OpSNgqaci)
  | pand (o : OpSNgqxayb)
  | por (o : OpSNgqxayb)
  | pxor (o : OpSNgqxayb)
  | pnot (o : OpSNgqxa)
  | br (o : OpSNgo)
  | brc (o : OpSNgxqo)
  | brG (o : OpSNgo)
  | jmp (o : OpSNga)
  | call (o : OpSNgdo)
  | ret (o : OpSNga)
  | loop (o : OpSNgo)
  | loopr (o : OpSNgso)
  | setlc (o : OpSNga)
  | waitc (o : OpSNga)
  | trap (o : OpSNgi)
  | eret (o : OpSNg)
  | halt (o : OpSNg)
  | retire (o : OpSNg)
  | mfs (o : OpSNgdi)
  | mts (o : OpSNgai)
  | setfmt (o : OpSI)
  | chkS (o : OpSNga)
  | xv2sN8 (o : OpSNgdai)
  | xv2sI8 (o : OpSNgdai)
  | xv2sN16 (o : OpSNgdai)
  | xv2sI16 (o : OpSNgdai)
  | xv2sN32 (o : OpSNgdai)
  | xv2sI32 (o : OpSNgdai)
  | xv2sN64 (o : OpSNgdai)
  | xq2m (o : OpSNgdab)
  | ldBI (o : OpSNgdai)
  | ldBN (o : OpSNgdai)
  | ldHI (o : OpSNgdai)
  | ldHN (o : OpSNgdai)
  | ldWI (o : OpSNgdai)
  | ldWN (o : OpSNgdai)
  | ldD (o : OpSNgdai)
  | pref (o : OpSNgai)
  | stB (o : OpSNgdai)
  | stH (o : OpSNgdai)
  | stW (o : OpSNgdai)
  | stD (o : OpSNgdai)
  | stGB (o : OpSNgdai)
  | stGH (o : OpSNgdai)
  | stGW (o : OpSNgdai)
  | stGD (o : OpSNgdai)
  | fence (o : OpSNgks)
  | vadd (o : OpVGdabf)
  | vsub (o : OpVGdabf)
  | vmul (o : OpVGdabf)
  | vfma (o : OpVGdabf)
  | vfms (o : OpVGdabf)
  | vfnma (o : OpVGdabf)
  | vmax (o : OpVGdabf)
  | vmin (o : OpVGdabf)
  | vabs (o : OpVGdaf)
  | vneg (o : OpVGdaf)
  | vclamp (o : OpVGdabf)
  | vcmp (o : OpVGcmabf)
  | vsel (o : OpVGdabm)
  | vaddI (o : OpVGdabf2)
  | vsubI (o : OpVGdabf2)
  | vmulI (o : OpVGdabf2)
  | vand (o : OpVGdabf2)
  | vor (o : OpVGdabf2)
  | vxor (o : OpVGdabf2)
  | vshl (o : OpVGdabf2)
  | vshr (o : OpVGdabf2)
  | vsra (o : OpVGdabf2)
  | vminInt (o : OpVGdabf)
  | vmaxInt (o : OpVGdabf)
  | vcmpI (o : OpVGcmabf)
  | vcvt (o : OpVGdastf)
  | vcvtSr (o : OpVGdast)
  | vpackMx (o : OpVGdabf)
  | vunpkMx (o : OpVGdaf)
  | vexp2 (o : OpVGdaf)
  | vlog2 (o : OpVGdaf)
  | vrcp (o : OpVGdaf)
  | vrsq (o : OpVGdaf)
  | vtanh (o : OpVGdaf)
  | vrsum (o : OpVGdaf)
  | vrmax (o : OpVGdaf)
  | vrmin (o : OpVGdaf)
  | vperm (o : OpVGdabf2)
  | vtrn (o : OpVGda)
  | vzip (o : OpVGdabf2)
  | vuzp (o : OpVGdabf2)
  | vrot (o : OpVGdauf)
  | vbcst (o : OpVGdauf)
  | vstatW (o : OpVGab)
  | vstatR (o : OpVGdb)
  | vmom (o : OpVGabf)
  | vnorm (o : OpVGdabf)
  | vsmax (o : OpVGdabf)
  | vbfacc (o : OpVGdaf)
  | vbfexp (o : OpVGdaf)
  | vpprob (o : OpVGdab)
  | vq8 (o : OpVGdabf)
  | vld (o : OpVGdai)
  | vst (o : OpVGdai)
  | vstM (o : OpVGdaim)
  | vldb (o : OpVGdaif)
  | vmov (o : OpVGdaf2)
  | vli (o : OpVGdwi)
  | xs2v (o : OpVGdaf2)
  | xm2q (o : OpVGdaf2)
  | chkV (o : OpVGa)
  | xmvm (o : OpTNgfkab)
  | xmvt (o : OpTNgfkab)
  | xupdA (o : OpTNgfab)
  | xupdC (o : OpTNgfab)
  | xupdD (o : OpTNgfab)
  | xfer (o : OpTNgfa)
  | xferR (o : OpTNgfa)
  | xrst (o : OpTNgfa)
  | xrstAll (o : OpTNgf)
  | xsymCal (o : OpTNgf)
  | xsymLd (o : OpTNgfa)
  | xsymSt (o : OpTNgfa)
  | xget (o : OpTNgfkb)
  | xcfgW (o : OpTNgfa)
  | xcfgR (o : OpTNgfa)
  | xcfgWa (o : OpTNgfa)
  | xcfgRa (o : OpTNgfa)
  | xcfgWc (o : OpTNgfa)
  | xcfgRc (o : OpTNgfa)
  | xmodeN (o : OpTNgfrsv)
  | xmodeR (o : OpTNgf)
  | xstat (o : OpTNgfb)
  | xstatPc (o : OpTNgfb)
  | xwait (o : OpTNgf)
  | mxld (o : OpTNgdabf)
  | mxldR (o : OpTNgdb)
  | mma (o : OpTNgcxym)
  | mmaz (o : OpTNgcxym)
  | mmag (o : OpTNgcxymak)
  | mxrd (o : OpTNgcak)
  | mxwr (o : OpTNgcak)
  | mxclr (o : OpTNgc)
  | cpy (o : OpTNgdab)
  | cpyw (o : OpTNgdab)
  | fill (o : OpTNgdab)
  | gath (o : OpTNgdab)
  | barInit (o : OpTNgab)
  | barExp (o : OpTNgab)
  | barArr (o : OpTNgab)
  | barWait (o : OpTNgab)
  | barTest (o : OpTNgdab)
  | chset (o : OpTNgdab)
  | bankAcq (o : OpTNga)
  | bankRel (o : OpTNga)
  | beadRecv (o : OpTNg)
  | beadSend (o : OpTNgab)
  | beadDone (o : OpTNga)
  | beadHdr (o : OpTNgdb2)
  | rngSeed (o : OpTNga)
  | dupS (o : OpTNgfab2)
  | header (o : OpHeader)
  | unassignedOpcode (o : OpUnassigned)
  | scoreboardReturn
  | randomBitAppend
  | regionTimeout
  | preempt
  | amoPerform
  | barrierUpdate
  | engineCredit
  | bankFree
  | engineAccept
  | cpyCopy
  | cpywCopy
  | fillWrite
  | gather
  | mxldFill
  | fillArrival
  | multicastDelivery
  | beadSendRelease
  | beadDonePass
  | facetExecXmvm
  | facetExecXmvt
  | facetExecXupd
  | facetExecXupdD
  | facetExecXfer
  | facetExecXrst
  | facetExecXsymCal
  | facetExecXsymLd
  | facetExecXsymSt
  | facetExecXget
  | facetExecXcfg
  | facetExecXmode
  | facetExecXstatPc
  | facetStartupCalibration
  | sliceAccess
  | scrubRead
  | strideGatherRead
  | activationAlert
  | gatherThrottleEnd
  | mtuLookup
  | pageWalkEnd
  | fresRetry
  | fresEnd
  | invcAll
  | invcSpace
  | invcRange
  | invalidationDone
  | qwcWrite
  | qrstWrite
  | qcfgWrite
  | registerWrite
  | recordFetch
  | taskRecord
  | taskPlace
  | taskEntry
  | taskCompletionReport
  | eqrcWrite
  | stageConfig
  | stageHold
  | stageRelease
  | stageEvict
  | stageClearflt
  | stageRead
  | beadRecord
  | signalStore
  | signalAmoAdd
  | waitRecord
  | waitPoll
  | profileCopy
  | profileCopyClear
  | tilectlRestart
  | tilectlPreempt
  | tilectlKill
  | beadArrival
  | beadDelivery
  | beadRetirement
  | failureNotice
  | stageHeld
  | locketHoldRequest
  | locketReleaseRequest
  | pendantLoadtab
  | pendantStart
  | pendantStop
  | pendantAbort
  | pendantRead
  | pendantSwcPoll
  | batchFormation
  | pendantBeadRelease
  | pendantBeadReturn
  | sampleRetirement
  | batchTimeout
  | pendantFailureNotice
  | sampleEntryEccError
  | pendantJobEnd
  | locketArm
  | locketTrigger
  | locketRestore
  | locketDisarm
  | locketPeriodTrigger
  | locketStepTrigger
  | locketHoldComplete
  | locketHoldTimeout
  | locketFacetReadout
  | locketQueueTimeout
  | locketImageMark
  | locketFacetRestore
  | claspDissent
  | resyncComplete
  | claspBreak
  | claspRestore
  | claspRestoreDone
  | claspRetclr
  | claspInjgo
  | clcntRead
  | linkRetry
  | hopDown
  | peerPortUp
  | feataccWrite
  | hostApertureAccess
  | moduleReset
  | functionReady
  | clkWrite
  | clockSwitch
  | gateWrite
  | srefWrite
  | tgateWrite
  | lanesWrite
  | hopRetrain
  | thermalTrip
  | tileCycle
  | runAheadPrefetch
  | peerMemoryAccess
  | signedUpdate
  | gtcSync
  | refreshWindowEnd
  deriving DecidableEq, Repr

end Sys2Proof
end

