-- ==== Sys2Proof/Machine/State.lean ====
section
/-! DEFINITION. The state of the module, as plain data, and the module right after reset.

INVENTORY.md lists every piece with its rule and its reset value. Queues and tables are lists; a sparse table is a list of
key and value pairs, keys rising, an unlisted key holding that table's reset value. -/

namespace Sys2Proof.Machine

/-- Why the machine stops. -/
inductive Fault where
  /-- A unit step names a tile, die, facet, channel or other agent that the module does not have (raised by the unit
  steps; safe: no such step exists in the hardware). -/
  | noSuchAgent (n : Nat)
  deriving DecidableEq, Repr

/-- Why an instruction has no meaning. -/
inductive Refusal where
  /-- The instruction has no meaning yet (raised by exec's arms; safe). -/
  | notModelled (mnemonic : String)
  deriving DecidableEq, Repr

/-- The trap causes of R31. -/
inductive Cause where
  | illegal | priv | range | page | perm | poison | twin | region | mxuBound | facet | barrier | wchk | soft | preempt
  deriving DecidableEq, Repr

/-- The register files and twin latches of a tile core (R16, R24). acc holds landed accumulator elements, element (r, c)
of accumulator n at 64 n + 8 r + c; accU holds them in unit order (R103). pois names the registers that hold poisoned data, rising: s0 to
s63 as 0 to 63, v0 to v63 as 64 to 127, m0 to m7 from 128, the accumulators from 136, q0 to q15 from 144, the scalar twin latch as 160
and the vector one as 161 (R231, R328; log 67). -/
structure Regs where
  s : Vector Word 64
  q : Vector Bool 16
  v : Vector VWord 64
  m : Vector Word 8
  acc : Vector (BitVec 32) 512
  accU : Vector (BitVec 32) 512
  twinS : Word
  twinV : VWord
  pois : List Nat
  deriving DecidableEq, Repr

/-- The special registers of R25 that are stored whole, and the monitor registers of R394. GTC lies in Hub, RBQS is
computed. -/
structure Spr where
  pc : Word
  tstat : Word
  fmt : Word
  lc : Word
  rotw : Word
  tcause : Word
  tpc : Word
  tval : Word
  cyc : Word
  taskid : Word
  bown : Word
  wchk : Word
  stage : Word
  rg : Vector Word 8
  snap : Vector Word 32
  mvec : Word
  mrng : Word
  mcsb : Word
  deriving DecidableEq, Repr

/-- What a landing writes; register numbers are physical (R156). A vector enable bit k covers bytes 2k and 2k + 1 (R400). -/
inductive Land where
  | sreg (n : Nat) (v : Word)
  | pred (n : Nat) (v : Bool)
  | mask (n : Nat) (en v : Word)
  | vec (n : Nat) (en : Word) (v : VWord)
  | pair (n0 n1 : Nat) (v0 v1 : VWord)
  | octet (ns : List Nat) (vs : List VWord)
  | acc (n rows : Nat) (vs : List (BitVec 32)) (kind : Nat)
  | fmt (v : Word)
  | twinS (v : Word)
  | twinV (en : Word) (v : VWord)
  | twinM (en v : Word)
  deriving DecidableEq, Repr

/-- A result in flight: d bundles remain, j have passed since issue; live is false for a guarded-off operation, whose
landing only counts (R51, R90, R113); pois marks a result made from poisoned data (R328; log 67). -/
structure Landing where
  what : Land
  d : Nat
  j : Nat
  live : Bool
  pois : Bool
  deriving DecidableEq, Repr

/-- What an outstanding request is. -/
inductive ReqKind where
  | ld | vld | vldb | barTest | beadHdr | st | amo | barUpd | fetch | pref | xget | xstat
  deriving DecidableEq, Repr

/-- Where an outstanding request stands: waiting (not yet translated), ready (translated), walking, held on a fault record,
done (performed, value not yet returned), or failed. -/
inductive ReqSt where
  | waiting | ready | walking | held | done | poisoned | page | perm | discarded | barErr
  deriving DecidableEq, Repr

/-- An outstanding request of a tile core, in program order in its list (R102, R112, R401). cls is 8 for a scratchpad
place; place is the scratchpad place or the DIA; phys the physical place once translated; enb the bytes a store writes, pois that its
data is poisoned; seq and mb name the fault record it waits on, frz that it has frozen the tile and is not yet granted (R404). j counts
the bundles since its own, slot is its slot there (R393); snap is the SNAP entry of an AMO that a trap left behind (R522). A 128-byte load that found half of its bytes in the L1 keeps them in data,
op 1 for the first half and 2 for the second. -/
structure Req where
  kind : ReqKind
  st : ReqSt
  va : Nat
  size : Nat
  dst : Nat
  sx : Bool
  pw : Nat
  data : Nat
  enb : Nat
  cmp : Nat
  op : Nat
  sco : Nat
  cls : Nat
  tgt : Nat
  place : Nat
  phys : Nat
  mb : Nat
  seq : Nat
  j : Nat
  slot : Nat
  snap : Nat
  frz : Bool
  pois : Bool
  late : Bool
  deriving DecidableEq, Repr

/-- How the last issue ended: done when the tile may issue, issued when a bundle has and the other units come first, stallRecv a stall at
BEAD.RECV, and doneRecv one after which it may issue again (R389; log A4). -/
inductive Tag where
  | done | doneRecv | issued | stallSb | stall | stallRecv | trapDecode | trapIssue | trapWchk | trapTwin
  deriving DecidableEq, Repr

/-- An effect that waits for the commit of its bundle (R52, R111). -/
inductive Eff where
  | store (r : Req)
  | req (r : Req)
  | load (r : Req)
  | spec (i : Nat) (v : Word)
  | lc (v : Word)
  | rotw (v : Word)
  | pop
  | seed (v : Word)
  | softTrap (code : Nat)
  | halt
  | retire
  | eret
  deriving DecidableEq, Repr

/-- The bundle being issued: the model's own working data (log A4). tnt marks an operation that reads poisoned data (log 67). -/
structure Iss where
  slot : Nat
  tnt : Bool
  tw : Bool
  last : Bool
  rb : Bool
  re : Bool
  vj : Bool
  hdr : Nat
  out : Tag
  npc : Option Word
  effs : List Eff
  lands : List Landing
  deriving DecidableEq, Repr

/-- An entry of the tensor command queue: slot word, ET, the operands read at issue, the bead record copied or cleared at the
push or the window of a CPYW, RG0 to RG7, BOWN, the task identifier and STAGE as they stood at the push, and its number among the tile's pushes (R105, R289,
R290, R339, R402). -/
structure Tcq where
  word : Nat
  et : Nat
  a : Nat
  b : Nat
  beadRec : Nat
  rg : List Word
  bown : Nat
  task : Nat
  stage : Nat
  stamp : Nat
  deriving DecidableEq, Repr

/-- A command that a channel holds: started with the record read then, the bytes or elements done, bytes not yet credited, the
error code so far, and the fault record it waits on (R275, R281, R283). saved lists what bytes held that the command has overwritten and
may have to read, oldest first, as (place, bytes, value, the bytes that were poisoned) (R277, R282). -/
structure ChCmd where
  cmd : Tcq
  record : Nat
  started : Bool
  pos : Nat
  owed : Nat
  ecode : Nat
  ended : Bool
  held : Bool
  mb : Nat
  seq : Nat
  saved : List (Nat × Nat × Nat × Nat)
  deriving DecidableEq, Repr

/-- A copy channel (R43) with the commands its engine has accepted. -/
structure Chan where
  lo : Nat
  hi : Nat
  wm : Nat
  act : Bool
  cmds : List ChCmd
  deriving DecidableEq, Repr

/-- A staging buffer: st 0 EMPTY, 1 FILLING, 2 FULL; recv for the receive form; src and desc are the fill descriptor; rows
of 96 bytes and 6 scale bytes each; poison is the first poisoned source address (R22, R23, R264). arr marks a fill
whose bytes have been read and are still arriving, refill a buffer that a return must refill first (R23). -/
structure Osb where
  st : Nat
  fmt : Nat
  recv : Bool
  src : Nat
  desc : Nat
  rows : List Nat
  scales : List Nat
  poison : Option Nat
  arr : Bool
  refill : Bool
  deriving DecidableEq, Repr

/-- A pending multicast delivery: the receiving task, the sending tile of the cluster and the delivered tile (R265). -/
structure Delivery where
  task : Nat
  sender : Nat
  buf : Osb
  deriving DecidableEq, Repr

/-- A delivery that the operand loader holds for an occupied slot: the push number of its MXLD, the target tile, the buffer and what it
delivers (R265). -/
structure Cast where
  stamp : Nat
  target : Nat
  d : Nat
  buf : Osb
  deriving DecidableEq, Repr

/-- The random-bit generator (R35, R45): COUNT entries, the oldest of counter gen - count. -/
structure Rng where
  seed : Word
  gen : Nat
  count : Nat
  run : Bool
  deriving DecidableEq, Repr

/-- A command in a facet's queue: opcode, K, ET and the operands read at issue; stamp counts pushes (R238). -/
structure FCmd where
  op : Nat
  k : Nat
  et : Nat
  a : Nat
  b : Nat
  stamp : Nat
  deriving DecidableEq, Repr

/-- A facet (R38 to R42). Conductances are in units of 2^-40. a and c list the cells that pulses have moved since aEpoch and
cEpoch, which select the free values that unlisted cells hold; cols gives the columns of A that a later procedure has set, with
its epoch, the value that it brought them near, and whether it brought every row there (R257, R476; log A10). drift is the time from which R248 counts. -/
structure Facet where
  a : List (Nat × Int)
  c : List (Nat × Int)
  aEpoch : Nat
  cEpoch : Nat
  cols : List (Nat × Nat × Option Int × Bool)
  sym : List (Nat × Int)
  fcfg : BitVec 256
  fob : List (Nat × Nat)
  pctr : Word
  queue : List FCmd
  busy : Bool
  held : Bool
  ecode : Nat
  mode : Bool
  err : Bool
  ready : Bool
  rwa : List (Nat × Int)
  rwc : List (Nat × Int)
  drift : Nat
  deriving DecidableEq, Repr

/-- An unreleased send of the bead port, with its barrier operand, the port's tile task and its push number (R289). -/
structure Send where
  bead : Nat
  bar : Nat
  hasBar : Bool
  stage : Nat
  stamp : Nat
  deriving DecidableEq, Repr

/-- A retirement that waits for earlier sends to be released (R290). -/
structure Done where
  bead : Nat
  status : Nat
  waits : Nat
  stage : Nat
  stamp : Nat
  deriving DecidableEq, Repr

/-- Beads at a tile: the current bead, the mailbox, unreleased sends, and retirements that wait for them (R287 to
R290). Above its 512 bits a bead carries a poison mark for each of its eight words, and once delivered, from bit 520, the stage that
delivered it and how often that scheduler had been restored, as stage + 64 x restores. -/
structure Beads where
  cur : Option Nat
  mailbox : List Nat
  sends : List Send
  dones : List Done
  deriving DecidableEq, Repr

/-- The launch of one tile task (R357): the queue and the number of the record that it came from, and what entry loads. -/
structure Launch where
  q : Nat
  n : Nat
  entry : Nat
  rg : List Word
  tiles : Nat
  facets : Nat
  banks : Nat
  arg0 : Word
  arg1 : Word
  tag : Nat
  stg : Bool
  sidx : Nat
  gang : Bool
  start : Nat
  deriving DecidableEq, Repr

/-- A retired task that is completing steps 2 to 4 of R160 (oldest first in its list): what it holds, the push number up to which commands are its own,
and the banks that its BANK.REL gave up (R202). -/
structure Drain where
  launch : Option Launch
  bown : Nat
  fown : Nat
  task : Nat
  killed : Bool
  late : Bool
  stamp : Nat
  rel : List (Nat × Nat)
  deriving DecidableEq, Repr

/-- Whether the tile core issues: idle (no task), running, frozen on a fault record, halted by HALT at task level, halted by
the monitor, or stopped for want of a monitor (R47, R159, R396, R404). -/
inductive RunSt where
  | idle | running | frozen | halted | haltedSup | haltedNoMon
  deriving DecidableEq, Repr

/-- The tasks of a tile (R358) and what goes with them. wd holds the loads that a trap without a monitor withdrew (R396, R401); loadOrd
the distances and slots of the load records of the image, sfltOrd those of the store in SFLT, and maskEn the bit enables of its latch
mask results by payload offset, amoOrd the distances of the AMO entries by their number: the tile keeps them for the order and the enables of
R399, R400 and R407, which the image has no place for (log 68); dead the landings of guarded-off operations that were in flight (R90). rst is a TILECTL record that restarts the halted task once its image is complete (R408, R522). away is the away state of R395; restart the address of R159;
preq a pre-emption request not yet taken, preqRecs the records that asked (R406); since the tick at which a condition of the placed task's
entry was last met, and met that a gang task which waits for START has met them all (R362); sflt the failure of an away task's store with its address (R522); pend a return
cause that waits for the boundary (R405); rel the banks given up by BANK.REL and not yet free, each with the push number
before which commands must complete (R202); kept the push numbers and bead records of the queue entries that a trap took back
(R402). -/
structure Task where
  run : RunSt
  away : Bool
  launch : Option Launch
  placed : Option Launch
  drains : List Drain
  claim : Nat
  late : Bool
  restart : Word
  preq : Bool
  preqRecs : List (Nat × Nat)
  since : Nat
  met : Bool
  regionStart : Nat
  sflt : Nat × Nat
  pend : Option (Cause × Nat)
  rel : List (Nat × Nat)
  kept : List (Nat × Nat)
  wd : List Req
  loadOrd : List (Nat × Nat)
  sfltOrd : Nat × Nat
  maskEn : List (Nat × Nat)
  amoOrd : List (Nat × Nat)
  dead : List Landing
  rst : Option (Nat × Nat)
  deriving DecidableEq, Repr

/-- A cached line: class, target and DIA of its first byte name it (R320, R321). -/
structure Line where
  key : Nat
  data : Nat
  deriving DecidableEq, Repr

/-- A byte range noted in checking mode: bytes lo to hi - 1, whether the command writes them, and the command (R409). -/
structure Note where
  lo : Nat
  hi : Nat
  wr : Bool
  who : Nat
  stamp : Nat
  deriving DecidableEq, Repr

/-- One tile: its core, its memories' caches and its units. snapEn the bit enables of latch mask results in the SNAP
registers, by payload offset, snapPois the payload words that are poisoned (R328; log 67), snapOrd the distances of their AMO entries by
number, snapDead the landings of guarded-off operations that were in flight beside them (R90; log 68); casts the multicast deliveries that the operand loader holds; fetchRg holds the range registers that govern the next
fetch where the last bundle changed them (R339). -/
structure Tile where
  regs : Regs
  spr : Spr
  flight : List Landing
  snapPay : List (Nat × Nat)
  snapEn : List (Nat × Nat)
  snapPois : List Nat
  snapOrd : List (Nat × Nat)
  snapDead : List Landing
  iss : Iss
  reqs : List Req
  tcq : List Tcq
  chans : Vector Chan 8
  osb : Vector Osb 4
  casts : List Cast
  slots : Vector (Option Delivery) 4
  rng : Rng
  stats : List (Nat × Nat)
  facets : Vector Facet 8
  beads : Beads
  task : Task
  l1 : List Line
  icache : List Line
  fetchRg : List Word
  notes : List Note
  stamp : Nat
  mxWait : Nat
  chkWait : Nat
  prof : Vector Nat 8
  deriving DecidableEq, Repr

/-- A TLB entry: space 0 to 2, the DIA page base, the page size, the leaf base and its permissions (R345). -/
structure TlbEnt where
  spc : Nat
  page : Nat
  size : Nat
  base : Nat
  r : Bool
  w : Bool
  deriving DecidableEq, Repr

/-- A fault record that waits for FRES (R348). -/
structure FRec where
  seq : Nat
  cls : Nat
  tgt : Nat
  dia : Nat
  va : Nat
  reason : Nat
  acc : Nat
  agent : Nat
  ch : Nat
  tile : Nat
  die : Nat
  gtc : Nat
  deriving DecidableEq, Repr

/-- A memory base die: MTU roots, TLB, walk cache, fault records, invalidation, scrub and activation state (R331, R341 to
R352). walk caches (physical address of a table entry, entry); answers lists the ends of records, as (number, reason), that have a
requester without a route still to reach (R349, R461). -/
structure Mb where
  ptb0 : Word
  ptb1 : Word
  ptb2 : Word
  tlb : List TlbEnt
  walk : List (Nat × Nat)
  recs : List FRec
  seq : Nat
  inv : Word
  invBusy : Bool
  badFres : Nat
  answers : List (Nat × Nat)
  log : List (Nat × Nat)
  throttle : List (Nat × Nat)
  scrub : Nat
  alerts : Nat
  window : Nat
  deriving DecidableEq, Repr

/-- An event record: its first eight words (R468). -/
structure Ev where
  w0 : Nat
  w1 : Nat
  w2 : Nat
  w3 : Nat
  w4 : Nat
  w5 : Nat
  deriving DecidableEq, Repr

/-- An event queue (R466, R467); out is an outstanding interrupt, sent counts the MSI-X messages, due marks one that waits for a route
(R462); held is the fault record (base die, number) that the write of its next event waits on (R348). -/
structure EvQ where
  base : Word
  cfg : Word
  wc : Nat
  rc : Nat
  out : Bool
  due : Bool
  sent : Nat
  held : Option (Nat × Nat)
  deriving DecidableEq, Repr

/-- A record that a queue has started and that has not completed: its number among all that the queue has started, its count, its words 0 to 7 as one value, the reports
still awaited, and how many ended killed (R354, R361); todo the beads of a BEAD record that wait for room, drops those it has dropped
(R377); held the fault record that a SIGNAL waits on, as (base die, number) (R356, R368). -/
structure RunRec where
  id : Nat
  n : Nat
  w : Nat
  left : Nat
  killed : Nat
  late : Bool
  todo : List Nat
  drops : Nat
  held : Option (Nat × Nat)
  deriving DecidableEq, Repr

/-- A host work queue (R363 to R367). head is the record fetched and held; placed counts the tiles already dealt
with, or marks a WAIT that has read its location; image is the range-register image read for it; nid the number that the next record to start takes. -/
structure Queue where
  cfg : Word
  wc : Nat
  rc : Nat
  rst : Word
  ecode : Nat
  state : Nat
  base : Word
  evq : Word
  credits : Nat
  head : Option Nat
  placed : Nat
  image : Option (List Word)
  nid : Nat
  running : List RunRec
  held : Bool
  mb : Nat
  seq : Nat
  deriving DecidableEq, Repr

/-- The state of a stage (R383). -/
inductive StageSt where
  | off | run | holding | held | faulted
  deriving DecidableEq, Repr

/-- An open micro-batch entry (R380, R385). -/
structure Open where
  step : Nat
  mb : Nat
  evicted : Bool
  deriving DecidableEq, Repr

/-- A stage entry (R371): w0 to w2 as configured, the dynamic fields apart. lhs lists the Lockets that hold the stage with their
steps (R383, R450), closed the micro-batches of the current step closed without a failure, holdRec the HOLD records that wait, dead that
a kill or a fault has left it without a live tile (R387; log 28). -/
structure Stage where
  st : StageSt
  w0 : Word
  w1 : Word
  w2 : Word
  sh : Bool
  lhs : List (Nat × Nat)
  ctl : List Nat
  fwd : List Nat
  bwd : List Nat
  opens : List Open
  warm : Nat
  lastBwd : Option Bool
  closedSent : Nat
  closed : List Nat
  failed : List (Nat × Nat)
  lastTile : Nat
  holdRec : List (Nat × Nat)
  dead : Bool
  deriving DecidableEq, Repr

/-- A batch in flight: its buffer, sequence number and stage index, its size and first slot at formation, the records not yet taken back as
(place, slot), the tick of its release, whether its bead has been released, and whether a scheduler has dropped it without a notice
(R436 to R438, R444). -/
structure Batch where
  buf : Nat
  seq : Nat
  stage : Nat
  ns : Nat
  psb : Nat
  slots : List (Nat × Nat)
  tick : Nat
  released : Bool
  lost : Bool
  deriving DecidableEq, Repr

/-- A Pendant job (R428 to R431): st 0 IDLE, 1 RUN, 2 DRAIN, 3 ABORTING (4 ENDED passes at once); desc the 16 words of its descriptor;
dirty marks a read count not yet written to SRCNT, reading an admission whose record's read waits, due a free slot for which SWC has not been read yet (R434); rejects the tags of rejected admissions that wait for their records; startRec and
abortRecs the records that wait for its end. -/
structure Job where
  st : Nat
  desc : List Nat
  rcount : Nat
  ccount : Nat
  endStatus : Option Nat
  admitted : Nat
  finished : Nat
  failedN : Nat
  accN : Nat
  rejN : Nat
  seq : Nat
  batches : List Batch
  rejects : List Nat
  dirty : Bool
  reading : Bool
  due : Bool
  startRec : Nat × Nat
  abortRecs : List (Nat × Nat)
  deriving DecidableEq, Repr

/-- A sample-table entry (R432); fin is the status with which it waits to retire, hs the step length of its step. -/
structure Sample where
  h : Nat
  t : Nat
  err : Nat
  tend : Nat
  state : Nat
  hist : Nat
  nrej : Nat
  nacc : Nat
  rtol : Nat
  atol : Nat
  tag : Nat
  k0 : Nat
  stg : Nat
  job : Nat
  dstat : Nat
  sst : Nat
  hs : Nat
  isLast : Bool
  fin : Option Nat
  deriving DecidableEq, Repr

/-- What a Pendant does while an access of it waits for FRES: a record of a queue, the admissions of a job, a batch of a job, a returned
bead or a decision, or a retirement (R445). -/
inductive PendOp where
  | record (q : Nat)
  | admits (j : Nat)
  | batch (j : Nat)
  | back
  | retire (sl : Nat)
  deriving DecidableEq, Repr

/-- The Pendant of a die (R425): tableau images as 64 words, jobs, samples, returned beads and failure notices, each with the die that
sent it (16 another module), its BID and status; held is the fault record (base die, number) that its combiner waits on, fault the
class, target and DIA of that access, what the operation that it is of, ended the accesses that FRES has ended, at which that operation fails
before any other goes on (R445). A returned bead has the tick of its return above its 520 bits (R444). -/
structure Pend where
  slots : List (Nat × List Nat)
  jobs : Vector Job 4
  samples : List (Nat × Sample)
  inbox : List Nat
  notices : List (Nat × Nat × Nat)
  held : Option (Nat × Nat)
  fault : Nat × Nat × Nat
  what : Option PendOp
  ended : List (Nat × Nat × Nat)
  deriving DecidableEq, Repr

/-- The Locket of a die (R448 to R456): st 0 no job in progress, 1 holding for a checkpoint, 2 reading, 3 holding for a restore, 4
restoring; desc the 16 words of its descriptor; step S of its hold requests; miss the triggers missed; trig and since the ticks of the
trigger and of the start of the present wait; next the next period tick; reports the steps reported to it; group and todo the FMASK bits
being read or restored and those to come; taken the facets that it holds; reqDies, setDies and relDies the dies whose schedulers a hold
request has still to reach, has reached, or a release has still to reach; failed a restored facet's failure; record the record that waits
for its end; held, fault and ended as for a Pendant. -/
structure Lock where
  st : Nat
  armed : Bool
  desc : List Nat
  step : Nat
  miss : Nat
  trig : Nat
  since : Nat
  next : Nat
  reports : List Nat
  group : List Nat
  todo : List Nat
  taken : List Nat
  reqDies : List Nat
  setDies : List Nat
  relDies : List Nat
  failed : Bool
  record : Option (Nat × Nat)
  held : Option (Nat × Nat)
  fault : Nat × Nat × Nat
  ended : List (Nat × Nat × Nat)
  deriving DecidableEq, Repr

/-- A compute die: queues, event queues, stages, beads on their way, Pendant, Locket and clock (R363, R371, R477). transit
lists (destination die, 64 + die for a Pendant or 128 + module, sending tile, bead); retire lists (tile, stage, bead, status); notices
(sending die, 16 for another module, stage name, step, mb, direction up), one for another module at the die that sends it; lastStage the
stage served last (R381). -/
structure Die where
  queues : List (Nat × Queue)
  evqs : List (Nat × EvQ)
  devq : Word
  hold : List (Nat × Ev)
  stages : List (Nat × Stage)
  transit : List (Nat × Nat × Nat)
  retire : List (Nat × Nat × Nat × Nat)
  notices : List (Nat × Nat × Nat × Nat × Bool)
  lastStage : Nat
  pend : Pend
  lock : Lock
  clk : Nat
  clkNext : Option Nat
  deriving DecidableEq, Repr

/-- A clasped machine's registers and its dissent history (R415 to R423): mode 1 to 5; upset the copies, bits 1 to 3, whose bit 0 of state word 0
INJGO has flipped and no comparison has found yet; marked the copy being put right; start the first tick of dual or retired mode and prev the mode until then, since that of the present resynchronisation; hist
the ticks at which each copy dissented, as (copy, tick). -/
structure Clasp where
  mode : Nat
  bcause : Nat
  ret : Nat
  last : Nat
  diss : Nat
  rsyn : Nat
  lrt : Nat
  brk : Nat
  inj : Nat
  upset : Nat
  marked : Nat
  start : Nat
  prev : Nat
  since : Nat
  restarts : Nat
  restores : Nat
  hist : List (Nat × Nat)
  deriving DecidableEq, Repr

/-- A configuration record of the flash: the serial number, FEATCAP, the identity public keys, the rollback value V and a minimum version
for each firmware image (R480). -/
structure CfgRecord where
  serial : Nat
  featcap : Nat
  keys : List Nat
  v : Nat
  minVer : List Nat
  deriving DecidableEq, Repr

/-- The hub dies: time, features, readiness, power, security, clasps, links and the management event queue (18, 19). slew is what GTC
has still to gain on position 0, slewed the ticks since its last correction (R471); flash the configuration record and flashNew one
that an update has written (R480, R481); peers the accesses of other modules that wait on a fault record (base die, number, operands)
(R340, R348), peerDue those that wait for a route, as (base die, ended by FRES, operands) (R349, R461, R470); writes the register writes of
the host and other modules that wait for a route, with a die for the part of one that acts there (R462); rdData what the last read from outside gave, with a mark above its bytes where it came back poisoned or was refused. -/
structure Hub where
  gtc : Nat
  phase : Nat
  slew : Int
  slewed : Nat
  featacc : Nat
  fstat : Nat
  prcfg : Word
  rdy : Vector Nat 16
  rdyh : Nat
  gate : Nat
  ref : Nat
  sref : Nat
  lanes : Nat
  lanesNext : Option Nat
  tgate : Nat
  hwin : Vector Word 8
  fail : Nat
  ctr : Nat
  flash : CfgRecord
  flashNew : Option CfgRecord
  booted : Bool
  tripped : Bool
  clasps : List (Nat × Clasp)
  links : List (Nat × Nat)
  mgmt : EvQ
  mgmtWait : List Ev
  trips : List (Nat × Nat)
  peers : List (Nat × Nat × List Nat)
  peerDue : List (Nat × Bool × List Nat)
  writes : List (List Nat)
  rdData : Nat
  deriving DecidableEq, Repr

/-- What a read through one scratchpad view may still return for an aligned word, beside the word itself: the word was written
through the other view and no join has come since, vals lists what it held, oldest first; word is the place divided by 4, swz the
view that reads (R185, R296, R302). -/
structure ViewNote where
  word : Nat
  swz : Bool
  vals : List Nat
  deriving DecidableEq, Repr

/-- What a read finds wrong with the code of a protected unit: up to one bit of a chunk or two symbols of a sector, more than its code
corrects, a sector's symbols that decode to other data, or an uncorrectable error of the slice's copy (R319, R323, R326). -/
inductive FlawKind where
  | corrected | uncorrectable | misread | sliceCopy
  deriving DecidableEq, Repr

/-- An upset that has struck and that no read has found yet: the unit at a place, a line of a tile's L1, an entry of a base die's TLB
or walk cache, a stage's words, a queue's registers, or an address adder of a tile's scalar memory port (R174, R319, R320, R326, R346,
R412; log 49). soft is an upset of a table's word that its code corrects; an entry of a Pendant's sample table and a word of a Locket's
staging buffers stand here as soft ones only (R412, R446). -/
inductive Flaw where
  | unit (place : Nat) (kind : FlawKind)
  | l1 (tile key : Nat)
  | tlb (m cls page : Nat)
  | walk (m entry : Nat)
  | stage (die i : Nat)
  | queue (q : Nat)
  | adder (tile : Nat)
  | sample (die k : Nat)
  | staging (die : Nat)
  | soft (f : Flaw)
  deriving DecidableEq, Repr

/-- The protected storage: flaws not yet found, an input from outside like args; the sectors that the slices hold with their dirty
marks; activations of each row since its count last began, by base die and row; corrected errors and poison records that a base die
(2m, 2m + 1) or the tiles of a compute die (32 + 2d, 33 + 2d) have counted, and corrected errors of the tables of a compute die (64 + d) or
a base die (80 + m) (R319, R323, R326, R329, R331, R412). -/
structure Codes where
  flaws : List Flaw
  slice : List (Nat × Bool)
  rows : List (Nat × Nat)
  tally : List (Nat × Nat)
  deriving DecidableEq, Repr

/-- The whole module. core is the tile in focus, number self; the other tiles, base dies and dies are sparse tables. args are
the operands of the unit step being made, agenda the unit steps that come next with theirs; free supplies free values
(log A4, A16, A17). -/
structure State where
  core : Tile
  self : Nat
  others : List (Nat × Tile)
  mem : List Host.Cell
  poison : List Nat
  view : List ViewNote
  codes : Codes
  mbs : List (Nat × Mb)
  dies : List (Nat × Die)
  hub : Hub
  args : List Nat
  agenda : List (Instr × List Nat)
  turn : Nat
  free : Nat
  deriving DecidableEq, Repr

/-- The register files after reset (R17, R24; log A2 for the files without a reset value). -/
def Regs.reset : Regs :=
  { s := Vector.replicate 64 0, q := Vector.replicate 16 false, v := Vector.replicate 64 0, m := Vector.replicate 8 0,
    acc := Vector.replicate 512 0, accU := Vector.replicate 512 0, twinS := 0, twinV := 0, pois := [] }

/-- The special registers after reset (R25 to R37, R394): supervisor level, everything else zero. -/
def Spr.reset : Spr :=
  { pc := 0, tstat := 1, fmt := 0, lc := 0, rotw := 0, tcause := 0, tpc := 0, tval := 0, cyc := 0, taskid := 0, bown := 0,
    wchk := 0, stage := 0, rg := Vector.replicate 8 0, snap := Vector.replicate 32 0, mvec := 0, mrng := 0, mcsb := 0 }

/-- No bundle in issue. -/
def Iss.reset : Iss :=
  { slot := 0, tnt := false, tw := false, last := true, rb := false, re := false, vj := false, hdr := 0, out := .done, npc := none,
    effs := [], lands := [] }

/-- A closed channel window (R43, R48). -/
def Chan.reset : Chan := { lo := 0, hi := 0, wm := 0, act := false, cmds := [] }

/-- An EMPTY staging buffer (R48, R261). -/
def Osb.reset : Osb :=
  { st := 0, fmt := 0, recv := false, src := 0, desc := 0, rows := [], scales := [], poison := none, arr := false,
    refill := false }

/-- An idle generator (R35). -/
def Rng.reset : Rng := { seed := 0, gen := 0, count := 0, run := false }

/-- FCFG at its reset values (R40): combined read, reference mode, gains and input scale 1.0. -/
def fcfgReset : BitVec 256 :=
  BitVec.ofNat 256 (0x3F800000 * 2 ^ 128 + 0x3F800000 * 2 ^ 96 + 0x3F800000 * 2 ^ 64 + 0xA)

/-- A facet before its start-up calibration (R38 to R41; logs A2 and A10). -/
def Facet.reset : Facet :=
  { a := [], c := [], aEpoch := 0, cEpoch := 1, cols := [], sym := [], fcfg := fcfgReset, fob := [], pctr := 0,
    queue := [], busy := false, held := false, ecode := 0, mode := true, err := false, ready := false, rwa := [],
    rwc := [], drift := 0 }

/-- No beads. -/
def Beads.reset : Beads := { cur := none, mailbox := [], sends := [], dones := [] }

/-- No task: the tile is halted at supervisor level until a launch (R47). -/
def Task.reset : Task :=
  { run := .idle, away := false, launch := none, placed := none, drains := [], claim := 0, late := false, restart := 0,
    preq := false, preqRecs := [], since := 0, met := false, regionStart := 0, sflt := (0, 0), pend := none, rel := [], kept := [],
    wd := [], loadOrd := [], sfltOrd := (0, 0), maskEn := [], amoOrd := [], dead := [], rst := none }

/-- A tile after module reset. -/
def Tile.reset : Tile :=
  { regs := Regs.reset, spr := Spr.reset, flight := [], snapPay := [], snapEn := [], snapPois := [], snapOrd := [], snapDead := [],
    iss := Iss.reset, reqs := [], tcq := [],
    chans := Vector.replicate 8 Chan.reset, osb := Vector.replicate 4 Osb.reset, casts := [], slots := Vector.replicate 4 none,
    rng := Rng.reset, stats := [], facets := Vector.replicate 8 Facet.reset, beads := Beads.reset, task := Task.reset,
    l1 := [], icache := [], fetchRg := [], notes := [], stamp := 0, mxWait := 0, chkWait := 0,
    prof := Vector.replicate 8 0 }

/-- A memory base die after module reset (R351: DONE = 1; log A2). -/
def Mb.reset : Mb :=
  { ptb0 := 0, ptb1 := 0, ptb2 := 0, tlb := [], walk := [], recs := [], seq := 0, inv := 2, invBusy := false, badFres := 0,
    answers := [], log := [], throttle := [], scrub := 0, alerts := 0, window := 0 }

/-- An event queue after module reset (R466). -/
def EvQ.reset : EvQ := { base := 0, cfg := 0, wc := 0, rc := 0, out := false, due := false, sent := 0, held := none }

/-- A work queue after module reset (R363, R465). -/
def Queue.reset : Queue :=
  { cfg := 0, wc := 0, rc := 0, rst := 0, ecode := 0, state := 0, base := 0, evq := 0, credits := 0, head := none,
    placed := 0, image := none, nid := 0, running := [], held := false, mb := 0, seq := 0 }

/-- A stage after module reset (R371). -/
def Stage.reset : Stage :=
  { st := .off, w0 := 0, w1 := 0, w2 := 0, sh := false, lhs := [], ctl := [], fwd := [], bwd := [],
    opens := [], warm := 0, lastBwd := none, closedSent := 0, closed := [], failed := [], lastTile := 63, holdRec := [], dead := false }

/-- An IDLE job (R431). -/
def Job.reset : Job :=
  { st := 0, desc := [], rcount := 0, ccount := 0, endStatus := none, admitted := 0, finished := 0, failedN := 0, accN := 0,
    rejN := 0, seq := 0, batches := [], rejects := [], dirty := false, reading := false, due := false, startRec := (0, 0), abortRecs := [] }

/-- A free sample-table entry (R432). -/
def Sample.reset : Sample :=
  { h := 0, t := 0, err := 0, tend := 0, state := 0, hist := 0, nrej := 0, nacc := 0, rtol := 0, atol := 0, tag := 0, k0 := 0,
    stg := 0, job := 0, dstat := 0, sst := 0, hs := 0, isLast := false, fin := none }

/-- A Pendant after module reset: no tableau loaded, every job IDLE, every sample zero (R431, R432). -/
def Pend.reset : Pend :=
  { slots := [], jobs := Vector.replicate 4 Job.reset, samples := [], inbox := [], notices := [], held := none, fault := (0, 0, 0),
    what := none, ended := [] }

/-- A Locket without a job (R448). -/
def Lock.reset : Lock :=
  { st := 0, armed := false, desc := [], step := 0, miss := 0, trig := 0, since := 0, next := 0, reports := [], group := [], todo := [],
    taken := [], reqDies := [], setDies := [], relDies := [], failed := false, record := none, held := none,
    fault := (0, 0, 0), ended := [] }

/-- A compute die after module reset: tile clock code 9 (R477). -/
def Die.reset : Die :=
  { queues := [], evqs := [], devq := 0, hold := [], stages := [], transit := [], retire := [], notices := [],
    lastStage := 63, pend := Pend.reset, lock := Lock.reset, clk := 9, clkNext := none }

/-- A clasped machine after module reset: triple mode (R423). -/
def Clasp.reset : Clasp :=
  { mode := 1, bcause := 0, ret := 0, last := 0, diss := 0, rsyn := 0, lrt := 0, brk := 0, inj := 0, upset := 0, marked := 0,
    start := 0, prev := 1, since := 0, restarts := 0, restores := 0, hist := [] }

/-- The configuration record of a module: the features that Config offers, V at 0; the spec gives no contents (log A2). -/
def CfgRecord.reset : CfgRecord := { serial := 0, featcap := Config.featcap, keys := [], v := 0, minVer := [] }

/-- The hub dies after module reset (R469, R472 to R481; log A2). -/
def Hub.reset : Hub :=
  { gtc := 0, phase := 0, slew := 0, slewed := 0, featacc := 0, fstat := 0, prcfg := 0, rdy := Vector.replicate 16 0, rdyh := 0, gate := 0, ref := 0,
    sref := 0, lanes := 0, lanesNext := none, tgate := 0, hwin := Vector.replicate 8 0, fail := 0, ctr := 0,
    flash := CfgRecord.reset, flashNew := none, booted := false, tripped := false, clasps := [], links := [], mgmt := EvQ.reset, mgmtWait := [],
    trips := [], peers := [], peerDue := [], writes := [], rdData := 0 }

/-- No flaw, empty slices, nothing counted. -/
def Codes.reset : Codes := { flaws := [], slice := [], rows := [], tally := [] }

/-- The module right after reset: every tile at supervisor level and halted (R47), nothing started (R474). -/
def State.reset : State :=
  { core := Tile.reset, self := 0, others := [], mem := [], poison := [], view := [], codes := Codes.reset, mbs := [], dies := [], hub := Hub.reset, args := [],
    agenda := [], turn := 0, free := 0 }

end Sys2Proof.Machine
end

