-- ==== Sys2Proof/Machine/Mem.lean ====
section
/-! DEFINITION. Storage: bytes by physical place, poison, homes, page tables and the TLB (11, 12).

A place is a number: scratchpad byte o of tile t at t x 2^22 + o; byte p of HBM stack n at (16 + n) x 2^56 + p; of second-tier
channel k at (32 + k) x 2^56 + p; host address a on link l at (48 + l) x 2^56 + a; peer address a, which names its module, at
50 x 2^56 + a through either port. -/

namespace Sys2Proof.Machine

/-- The place of offset o of tile t's scratchpad (R316). -/
def scratchKey (t o : Nat) : Nat := t * 4194304 + o

/-- The place of a physical byte behind home h of a class: HBM for classes 0 and 1, the second tier for class 2, the host link for
class 3, the peer ring for class 4 (R322, R340). DESIGN CHOICE: one class-3 address on the two links names two locations (R294, R340; log
73). -/
def homeKey (cls h p : Nat) : Nat :=
  (match cls with | 0 => 16 + h | 1 => 16 + h | 2 => 32 + h | 3 => 48 + h | _ => 50) * 2 ^ 56 + p

/-- Whether memory has its canonical form: addresses strictly rising, no listed byte equal to what an unlisted one reads as
(log A1). -/
def memWf : List Host.Cell → Bool
  | [] => true
  | [c] => c.2 != 0
  | c :: d :: m => c.2 != 0 && decide (c.1 < d.1) && memWf (d :: m)

/-- The byte at a place; an unlisted byte reads 0 (log A1). -/
def memGet : List Host.Cell → Nat → BitVec 8
  | [], _ => 0
  | c :: m, a => if c.1 = a then c.2 else memGet m a

/-- The listed cells of consecutive bytes from a place. -/
def cellsFrom : Nat → List Nat → List Host.Cell
  | _, [] => []
  | a, b :: bs => if b % 256 = 0 then cellsFrom (a + 1) bs else (a, BitVec.ofNat 8 b) :: cellsFrom (a + 1) bs

/-- Memory with consecutive bytes from a place replaced. -/
def memWrite (m : List Host.Cell) (a : Nat) (bs : List Nat) : List Host.Cell :=
  m.filter (fun c => decide (c.1 < a)) ++ cellsFrom a bs ++ m.filter (fun c => decide (a + bs.length ≤ c.1))

/-- n consecutive bytes as a little-endian value (R7, R53). -/
def memRead (m : List Host.Cell) (a : Nat) : Nat → Nat
  | 0 => 0
  | n + 1 => (memGet m a).toNat + 256 * memRead m (a + 1) n

/-- The size of the unit that a poison mark covers: 8-byte chunks in a scratchpad, 32-byte sectors elsewhere (R319, R325). -/
def poisonSize (k : Nat) : Nat := if k < 2 ^ 56 then 8 else 32

/-- The first byte of the poison unit of a place. -/
def poisonUnit (k : Nat) : Nat := k / poisonSize k * poisonSize k

/-- The first byte offset below n, from a place, that lies in a poisoned unit (R391). -/
def poisonAt (s : State) (k n : Nat) : Option Nat :=
  if s.poison = [] then none else (List.range n).find? (fun i => s.poison.contains (poisonUnit (k + i)))

/-- A list of numbers, rising, with one put in. -/
def insertNat : Nat → List Nat → List Nat
  | x, [] => [x]
  | x, y :: ys => if x < y then x :: y :: ys else if x = y then y :: ys else y :: insertNat x ys

/-- The bytes that stay or come at n places from k under the byte enables enb: an enabled byte of a unit that is poisoned and
not written whole is not stored (R319, R327). -/
def mergeBytes (s : State) (k n data enb : Nat) : List Nat :=
  (List.range n).map (fun i =>
    let u := poisonUnit (k + i)
    let whole := (List.range (poisonSize k)).all (fun j => decide (k ≤ u + j) && decide (u + j < k + n) && bit enb (u + j - k))
    if bit enb i && (whole || !s.poison.contains u) then bits data (8 * i) 8 else (memGet s.mem (k + i)).toNat)

/-- The poison marks after a write: poisoned data marks every unit it touches, a whole unit of good data clears its mark (R319,
R327, R328). -/
def mergePoison (s : State) (k n enb : Nat) (pois : Bool) : List Nat :=
  if s.poison = [] ∧ pois = false then []
  else
    (List.range n).foldl (fun l i =>
      let u := poisonUnit (k + i)
      if bit enb i then
        if pois then insertNat u l
        else if (List.range (poisonSize k)).all
            (fun j => decide (k ≤ u + j) && decide (u + j < k + n) && bit enb (u + j - k)) then l.filter (fun x => x != u)
        else l
      else l) s.poison

/-- Of a cache set, the most recent first, the entries that stay when one comes in: all while there is room, else all but the one
that the policy gives up (R320, R321, R323, R345; log 9). -/
def keepWays (ways new : Nat) (set : List Nat) : List Nat :=
  if set.length < ways then set else set.eraseIdx (Config.victim set new % set.length)

/-- A place lies on an HBM stack or second-tier channel, whose base die has a slice (R323). -/
def hasSlice (k : Nat) : Bool := decide (16 * 2 ^ 56 ≤ k) && decide (k < 48 * 2 ^ 56)

/-- The base die of a place of an HBM stack or second-tier channel. -/
def placeMb (k : Nat) : Nat := k / 2 ^ 56 % 16

/-- The 128-byte line of the slice that a place lies in, and its set at the base die (R323). -/
def sliceSet (k : Nat) : Nat := placeMb k * 65536 + k / 128 % 65536

/-- One activation of the row of a place of an HBM stack (R331). -/
def Codes.activate (c : Codes) (k : Nat) : Codes :=
  if 32 * 2 ^ 56 ≤ k then c
  else
    let key := placeMb k * 2 ^ 64 + Config.rowOf k
    { c with rows := mset c.rows key (mget 0 c.rows key + 1) }

/-- Whether a compressor of R325 fits the 32 bytes of a sector, as one value: zero-run, BF16 exponent-delta, base-plus-delta. -/
def compresses (v : Nat) : Bool :=
  let exps := (List.range 16).map (fun i => bits v (16 * i + 7) 8)
  decide (((List.range 32).filter (fun i => bits v (8 * i) 8 != 0)).length ≤ 23) ||
    decide (exps.foldl Nat.max 0 ≤ exps.foldl Nat.min 255 + 15) ||
    (List.range 8).all (fun i => decide ((bits v (32 * i) 32 + 2 ^ 32 + 2 ^ 23 - bits v 0 32) % 2 ^ 32 < 2 ^ 24))

/-- Whether a sector is stored raw, with an entry in the overflow table: no compressor fits it, and it is no poison record (R325, R327). -/
def rawIn (mem : List Host.Cell) (poison : List Nat) (u : Nat) : Bool :=
  !poison.contains u && !compresses (memRead mem u 32)

/-- The metadata sectors of a sector: that of its bit in the compression map and that of its entry in the overflow table, which lie above
the frames, the map first (R324, R332; log 9). -/
def metaOf (u : Nat) : Nat × Nat :=
  let p := u % 2 ^ 56
  let tier := decide (32 * 2 ^ 56 ≤ u)
  let base := u - p + (if tier then Config.tierBytes else Config.stackBytes)
  ((base + p / 256) / 32 * 32, (base + (if tier then 256 else 192) * 1048576 + p / 8) / 32 * 32)

/-- A slice after an access to the sector at u, and the sectors that it reads or writes behind it: a hit none; a miss fills it, for which
a full set of 16 lines gives up one line, its dirty sectors written back (R323). DESIGN CHOICE: a dirty sector is written back then and at no
other time (log 9). -/
def sliceTouch (l : List (Nat × Bool)) (u : Nat) (wr : Bool) : List (Nat × Bool) × List Nat :=
  if l.any (fun x => x.1 == u) then (if wr then mset l u true else l, [])
  else
    let line := u / 128
    let lines := ((l.filter (fun x => sliceSet x.1 == sliceSet u)).map (fun x => x.1 / 128)).eraseDups
    let keep := if lines.contains line then lines else keepWays 16 line lines
    let gone := l.filter (fun x => sliceSet x.1 == sliceSet u && x.1 / 128 != line && !keep.contains (x.1 / 128))
    (mset (l.filter (fun x => !gone.contains x)) u wr, u :: (gone.filter (·.2)).map (·.1))

/-- A slice after accesses to sectors one after another, and what they read or write behind it. -/
def sliceRun (l : List (Nat × Bool)) (us : List (Nat × Bool)) : List (Nat × Bool) × List Nat :=
  us.foldl (fun p u => let (l, b) := sliceTouch p.1 u.1 u.2; (l, p.2 ++ b)) (l, [])

/-- The metadata sectors that a read or write of the sector u uses: a miss reads, and a write writes, its map bit and for a raw sector its
table entry (R326, R327). -/
def metaNeeds (raw : Nat → Bool) (l : List (Nat × Bool)) (u : Nat) (wr : Bool) : List Nat :=
  if !wr && l.any (fun x => x.1 == u) then [] else (metaOf u).1 :: (if raw u then [(metaOf u).2] else [])

/-- The accesses that a read or write of the sectors us makes at the slice, which holds metadata like any other sectors (R326, R327). -/
def sliceUses (raw : Nat → Bool) (l : List (Nat × Bool)) (us : List Nat) (wr : Bool) : List (Nat × Bool) :=
  us.flatMap (fun u => (u, wr) :: (metaNeeds raw l u wr).map (fun m => (m, wr)))

/-- The first bytes of the protected units of n bytes from a place (R319, R325). -/
def unitsOf (k n : Nat) : List Nat :=
  let z := poisonSize k
  (List.range ((k + n + z - 1) / z - k / z)).map (fun i => (k / z + i) * z)

/-- The protected storage after accesses to sectors of the place k. -/
def Codes.touchAll (raw : Nat → Bool) (c : Codes) (k : Nat) (us : List Nat) (wr : Bool) : Codes :=
  if hasSlice k then
    let (l, back) := sliceRun c.slice (sliceUses raw c.slice us wr)
    back.foldl Codes.activate { c with slice := l }
  else c

/-- A slice after an element read of the stride-gather unit, and the sectors read or written behind it: a sector that the slice lacks is
read there and does not enter it (R330). DESIGN CHOICE: its metadata sectors enter the slice (log 9). -/
def slicePass (raw : Nat → Bool) (l : List (Nat × Bool)) (us : List Nat) : List (Nat × Bool) × List Nat :=
  let miss := us.filter (fun u => !l.any (fun x => x.1 == u))
  let (l', back) := sliceRun l (miss.flatMap (fun u => (metaNeeds raw l u false).map (fun m => (m, false))))
  (l', miss ++ back)

/-- The protected storage after an element read of the stride-gather unit (R330). -/
def Codes.passBy (raw : Nat → Bool) (c : Codes) (k : Nat) (us : List Nat) : Codes :=
  if hasSlice k then
    let (l, back) := slicePass raw c.slice us
    back.foldl Codes.activate { c with slice := l }
  else c

/-- The place among the counts of corrected errors for a unit; that of poison records is the next one (R319, R326, R479). -/
def tallyOf (k : Nat) : Nat := if k < 2 ^ 56 then 32 + 2 * (k / 4194304 / 64) else 2 * placeMb k

/-- One more counted. -/
def Codes.count (c : Codes) (i : Nat) : Codes := { c with tally := mset c.tally i (mget 0 c.tally i + 1) }

/-- The module keeps the codes and counts of a unit: it lies in a scratchpad, on a stack or on a second-tier channel. -/
def ownUnit (u : Nat) : Bool := decide (u < 2 ^ 56) || hasSlice u

/-- An error of a unit counted (R319, R326, R479); i is 1 for a poison record. -/
def Codes.tallies (c : Codes) (u i : Nat) : Codes := if ownUnit u then c.count (tallyOf u + i) else c

/-- The place among the counts of corrected errors for the table that an upset lies in (R412). -/
def Flaw.tally : Flaw → Nat
  | .tlb m _ _ => 80 + m
  | .walk m _ => 80 + m
  | .stage d _ => 64 + d
  | .queue q => 64 + q / 1024
  | .sample d _ => 64 + d
  | .staging d => 64 + d
  | _ => 64

/-- A table's word is read: an upset of it that its code corrects is corrected and counted (R412). -/
def State.corrects (s : State) (f : Flaw) : State :=
  if s.codes.flaws.contains (.soft f) then
    { s with codes := ({ s.codes with flaws := s.codes.flaws.filter (· != Flaw.soft f) }).count f.tally }
  else s

/-- The units of n bytes at a place of which a byte is enabled. -/
def touchedUnits (k n enb : Nat) : List Nat :=
  let z := poisonSize k
  (unitsOf k n).filter (fun u => (List.range z).any (fun j => decide (k ≤ u + j) && decide (u + j < k + n) && bit enb (u + j - k)))

/-- The units of n bytes at a place that are written whole under byte enables. -/
def wholeUnits (k n enb : Nat) : List Nat :=
  let z := poisonSize k
  (unitsOf k n).filter (fun u => (List.range z).all (fun j => decide (k ≤ u + j) && decide (u + j < k + n) && bit enb (u + j - k)))

/-- The protected storage after a write: whole units have a good code again, sectors are dirty in the slice with their metadata, and each
unit that poisoned data has just made a poison record is counted where the module keeps such records (R323, R326, R327, R329). -/
def Codes.write (raw : Nat → Bool) (c : Codes) (poison : List Nat) (k n enb : Nat) (pois : Bool) : Codes :=
  let c := if c.flaws = [] then c
    else { c with flaws := c.flaws.filter (fun f => match f with | .unit u _ => !(wholeUnits k n enb).contains u | _ => true) }
  let made := if pois && ownUnit k then (touchedUnits k n enb).filter (fun u => !poison.contains u) else []
  let t := if hasSlice k then c.touchAll raw k (touchedUnits k n enb) true else c
  made.foldl (fun c u => c.count (tallyOf u + 1)) { c with slice := t.slice, rows := t.rows }

/-- A word with its enabled bytes taken from bytes written from place k on. -/
def mergeWord (word old k n data enb : Nat) : Nat :=
  (List.range 4).foldl (fun w i =>
    let a := 4 * word + i
    if k ≤ a ∧ a < k + n ∧ bit enb (a - k) then setBits w (8 * i) 8 (bits data (8 * (a - k)) 8) else w) old

/-- The view notes after a write that both views see alike: what a view may still return has the written bytes too, and nothing is
left of a word written whole (R302, R312). -/
def viewWrite (l : List ViewNote) (k n data enb : Nat) : List ViewNote :=
  if l = [] then []
  else
    (l.map (fun v =>
      if 4 * v.word + 4 ≤ k ∨ k + n ≤ 4 * v.word then v
      else if (List.range 4).all (fun i => decide (k ≤ 4 * v.word + i) && decide (4 * v.word + i < k + n) && bit enb (4 * v.word + i - k)) then
        { v with vals := [] }
      else { v with vals := v.vals.map (fun x => mergeWord v.word x k n data enb) })).filter (fun v => v.vals != [])

/-- Bytes put at a place under byte enables, the codes of what stays already checked. -/
def putEnb (s : State) (k n data enb : Nat) (pois : Bool) : State :=
  let mem := memWrite s.mem k (mergeBytes s k n data enb)
  let poison := mergePoison s k n enb pois
  { s with mem := mem, poison := poison, view := viewWrite s.view k n data enb,
           codes := s.codes.write (rawIn mem poison) s.poison k n enb pois }

/-- A read of n bytes at a place. -/
def readN (s : State) (k n : Nat) : Nat := memRead s.mem k n

/-- A flaw found by a read of its unit: corrected and counted; a poison record; other data without a mark; or an error of the slice's
copy, which makes a dirty sector a poison record and a clean one is fetched again for (R319, R323, R326, R329). A sector of a stack or channel
that is fetched again, or read there and corrected, is an access behind the slice (R331). A unit of host or peer memory reads as poison, a
completion that was marked or came back with an error (R328). -/
def State.find (s : State) (u : Nat) (f : FlawKind) : State :=
  let s := { s with codes := { s.codes with flaws := s.codes.flaws.filter (· != Flaw.unit u f) } }
  let bad : State := { s with poison := insertNat u s.poison, codes := s.codes.tallies u 1 }
  let held := s.codes.slice.find? (fun x => x.1 == u)
  match f with
  | .corrected => { s with codes := (if hasSlice u && held.isNone then s.codes.activate u else s.codes).tallies u 0 }
  | .uncorrectable => bad
  | .misread =>
    if u < 2 ^ 56 then bad
    else { s with mem := memWrite s.mem u (toBytes 32 (Config.freeNat s.free)), free := s.free + 1 }
  | .sliceCopy =>
    match held with
    | some (_, true) => bad
    | some _ => { s with codes := s.codes.activate u }
    | none => s

/-- The codes of units checked by a read of them (R319, R326). -/
def State.checks (s : State) (us : List Nat) : State :=
  if s.codes.flaws = [] then s
  else
    (s.codes.flaws.filterMap (fun f => match f with | .unit u g => if us.contains u then some (u, g) else none | _ => none)).foldl
      (fun s p => s.find p.1 p.2) s

/-- A metadata sector m is read for the sector u. DESIGN CHOICE: a sector read by metadata that is poisoned becomes a poison record, and one
read by metadata that decoded to other data reads as other data; a write leaves poisoned metadata as it is (R326, R327; log 49). -/
def State.metaCheck (s : State) (u m : Nat) (wr : Bool) : State :=
  let other := s.codes.flaws.contains (Flaw.unit m .misread)
  let s := s.checks [m]
  if wr then s
  else if s.poison.contains m && !s.poison.contains u then { s with poison := insertNat u s.poison, codes := s.codes.tallies u 1 }
  else if other then { s with mem := memWrite s.mem u (toBytes 32 (Config.freeNat s.free)), free := s.free + 1 }
  else s

/-- The metadata of sectors of the place k is read, its codes checked (R323, R326). -/
def State.metas (s : State) (k : Nat) (us : List Nat) (wr : Bool) : State :=
  if !hasSlice k || decide (s.codes.flaws = [] ∧ s.poison = []) then s
  else us.foldl (fun s u => (metaNeeds (rawIn s.mem s.poison) s.codes.slice u wr).foldl (fun s m => s.metaCheck u m wr) s) s

/-- The protected units of n bytes at a place are read: their codes and those of their metadata are checked, and sectors enter the slice
(R319, R323, R326). -/
def State.reads (s : State) (k n : Nat) : State :=
  let s := (s.metas k (unitsOf k n) false).checks (unitsOf k n)
  let c := if hasSlice k then s.codes.touchAll (rawIn s.mem s.poison) k (unitsOf k n) false else s.codes
  { s with codes := { s.codes with slice := c.slice, rows := c.rows } }

/-- The sectors of n bytes at a place are read by the stride-gather unit (R326, R330). -/
def State.passes (s : State) (k n : Nat) : State :=
  let s := (s.metas k (unitsOf k n) false).checks (unitsOf k n)
  let c := if hasSlice k then s.codes.passBy (rawIn s.mem s.poison) k (unitsOf k n) else s.codes
  { s with codes := { s.codes with slice := c.slice, rows := c.rows } }

/-- The codes of the units that a write merges with are checked, and those of the metadata that it changes; units written whole are replaced
unread (R319, R326, R327). -/
def State.merges (s : State) (k n enb : Nat) : State :=
  if s.codes.flaws = [] then s
  else (s.metas k (touchedUnits k n enb) true).checks ((touchedUnits k n enb).filter (fun u => !(wholeUnits k n enb).contains u))

/-- A write of n bytes of data under byte enables at a place. -/
def writeEnb (s : State) (k n data enb : Nat) (pois : Bool) : State := putEnb (s.merges k n enb) k n data enb pois

/-- A write of n whole bytes at a place. -/
def writeN (s : State) (k n data : Nat) : State := writeEnb s k n data (2 ^ n - 1) false

/-- The storage behind a place is in self-refresh or gated (R478). -/
def asleep (s : State) (k : Nat) : Bool :=
  if k < 32 * 2 ^ 56 then bit s.hub.sref (placeMb k) else bit s.hub.tgate (placeMb k)

/-- A place lies at a base die whose stack is in self-refresh or whose channel is gated (R478). -/
def dozing (s : State) (k : Nat) : Bool := hasSlice k && (bit s.hub.sref (placeMb k) || bit s.hub.tgate (placeMb k))

/-- A read of n bytes at a place needs no storage that is in self-refresh or gated: slice hits are served there, while misses and
write-backs wait, those of the metadata and of the line that a set gives up among them (R478). -/
def backed (s : State) (k n : Nat) : Bool :=
  !dozing s k || (sliceRun s.codes.slice (sliceUses (rawIn s.mem s.poison) s.codes.slice (unitsOf k n) false)).2.all (fun u => !asleep s u)

/-- The same of an element read by the stride-gather unit (R330, R478). -/
def backedPass (s : State) (k n : Nat) : Bool :=
  !dozing s k || (slicePass (rawIn s.mem s.poison) s.codes.slice (unitsOf k n)).2.all (fun u => !asleep s u)

/-- The same of a write of n bytes at a place that leads to the state s', which tells the sectors that are then stored raw (R327, R478). -/
def backedWrite (s s' : State) (k n : Nat) : Bool :=
  !dozing s k || (sliceRun s.codes.slice (sliceUses (rawIn s'.mem s'.poison) s.codes.slice (unitsOf k n) true)).2.all (fun u => !asleep s u)

/-- The storage offset that a swizzled offset names (R317). -/
def unswizzle (o : Nat) : Nat := o / 64 * 64 + (bits o 3 3 + bits o 6 3) % 8 * 8 + o % 8

/-- The hash of R322 that places a DIA on one of 16 homes. -/
def homeHash (d : Nat) : Nat := bits d 12 4 ^^^ bits d 20 4 ^^^ bits d 28 4 ^^^ bits d 36 4 ^^^ bits d 44 4

/-- The base die at which a DIA of class 0 to 2 has its home (R322). -/
def homeOf (cls tgt dia : Nat) : Nat := if cls = 1 then tgt % 16 else homeHash dia

/-- A memory base die. -/
def State.mb (s : State) (m : Nat) : Mb := mget Mb.reset s.mbs m

/-- The state with a memory base die replaced. -/
def State.setMb (s : State) (m : Nat) (x : Mb) : State := { s with mbs := mset s.mbs m x }

/-- How a page walk ends (R342, R343, R348), or that it waits for the storage of a table (R475, R478). -/
inductive WalkEnd where
  | leaf (base size : Nat) (r w : Bool)
  | err (reason : Nat)
  | wait
  deriving DecidableEq, Repr

/-- One entry of a walk at a level (3 root, 2, 1, 0): what it names, or the walk's end (R342 to R344). DESIGN CHOICE: a table entry whose
ADDR is not aligned to the size of the table that it names, which R342 asks for, is a walk error (log 48). -/
def walkEntry (cls lvl e : Nat) : Option Nat ⊕ WalkEnd :=
  let t := e % 4
  let addr := bits e 8 44 * 256
  let lim := if cls = 2 then Config.tierBytes else Config.stackBytes
  let subSize := if lvl = 3 then 4096 else if lvl = 2 then 4096 else 256
  let page := if lvl = 1 then 2097152 else 65536
  let unit := if cls = 1 then page else page / 16
  if t = 0 then .inr (.err 1)
  else if bits e 52 12 ≠ 0 ∨ bits e 4 4 ≠ 0 then .inr (.err 3)
  else if t = 1 then
    if lvl = 0 ∨ bit e 3 ∨ bit e 2 ∨ addr % subSize ≠ 0 ∨ addr + subSize > Config.stackBytes then .inr (.err 3) else .inl (some addr)
  else if t = 2 then
    if lvl > 1 ∨ addr % unit ≠ 0 ∨ addr + unit > lim then .inr (.err 3) else .inr (.leaf addr page (bit e 2) (bit e 3))
  else .inr (.err 3)

/-- The index field of a level (R342). -/
def walkIndex (lvl dia : Nat) : Nat :=
  match lvl with | 3 => bits dia 39 13 | 2 => bits dia 30 9 | 1 => bits dia 21 9 | _ => bits dia 16 5

/-- The entry of the walk cache for a table entry; one whose code fails is no longer there (R345, R346). -/
def walkHit (s : State) (m p : Nat) : Option Nat :=
  if s.codes.flaws.contains (.walk m p) then none else ((s.mb m).walk.find? (fun x => x.1 == p)).map (·.2)

/-- A walk of the tables from a level down, the entries it read as table entries, and the state its reads leave (R342, R345). A
walk-cache entry keeps translating until it is invalidated (R350); any other entry is read at its home. -/
def walkFrom (s : State) (m cls dia : Nat) : Nat → Nat → List (Nat × Nat) → WalkEnd × List (Nat × Nat) × State
  | 0, _, acc => (.err 3, acc, s)
  | lvl + 1, table, acc =>
    let p := table + 8 * walkIndex lvl dia
    let k := homeKey 1 m p
    let go (s : State) (e : Nat) : WalkEnd × List (Nat × Nat) × State :=
      match walkEntry cls lvl e with
      | .inl (some nxt) => walkFrom s m cls dia lvl nxt ((p, e) :: acc)
      | .inl none => (.err 3, acc, s)
      | .inr r => (r, acc, s)
    match walkHit s m p with
    | some e => go (s.corrects (.walk m p)) e
    | none =>
      if !bit (s.hub.rdy.getD m 0) 2 || !backed s k 8 then (.wait, acc, s)
      else
        let s := s.reads k 8
        if (poisonAt s k 8).isSome then (.err 4, acc, s) else go s (readN s k 8)

/-- The root register of a space (R341). DESIGN CHOICE: a root that is off the table's alignment or outside the frames is walked as it
stands (log 48). -/
def Mb.root (x : Mb) (cls : Nat) : Nat :=
  bits ((match cls with | 0 => x.ptb0 | 1 => x.ptb1 | _ => x.ptb2).toNat) 8 44 * 256

/-- The page walk of a DIA at base die m (R342). -/
def walk (s : State) (m cls dia : Nat) : WalkEnd × List (Nat × Nat) × State := walkFrom s m cls dia 4 ((s.mb m).root cls) []

/-- The physical byte that a leaf gives a DIA (R344). -/
def leafByte (cls base size dia : Nat) : Nat :=
  if cls = 1 then base + dia % size
  else base + (if size = 65536 then 0 else bits dia 16 5) * 4096 + dia % 4096

/-- The TLB entry that covers a DIA (R345). -/
def Mb.tlbFind (x : Mb) (cls dia : Nat) : Option TlbEnt :=
  x.tlb.find? (fun e => e.spc == cls && e.page == dia / e.size * e.size)

/-- The TLB entry of base die m that covers a DIA; one whose code fails is discarded (R345, R346). -/
def tlbHit (s : State) (m cls dia : Nat) : Option TlbEnt :=
  match (s.mb m).tlbFind cls dia with
  | some e => if s.codes.flaws.contains (.tlb m cls e.page) then none else some e
  | none => none

/-- The set of the TLB that a page lies in (R345; log 9). -/
def TlbEnt.set (e : TlbEnt) : Nat := e.page / e.size % 512

/-- A TLB with a leaf put in: it replaces what covers its page, and a full set of 16 gives up one entry (R345, R347). -/
def putTlb (l : List TlbEnt) (e : TlbEnt) : List TlbEnt :=
  let l := l.filter (fun x => !(x.spc == e.spc && decide (x.page < e.page + e.size) && decide (e.page < x.page + x.size)))
  let key (x : TlbEnt) : Nat := x.page * 4 + x.spc
  let keep := keepWays 16 (key e) ((l.filter (fun x => x.set == e.set)).map key)
  e :: l.filter (fun x => x.set != e.set || keep.contains (key x))

/-- A walk cache with a table entry put in; a full one of 512 gives up one entry (R345). -/
def putWalk (l : List (Nat × Nat)) (p e : Nat) : List (Nat × Nat) :=
  let l := mdel l p
  let keep := keepWays 512 p (l.map (·.1))
  mset (if l.length < 512 then l else l.filter (fun x => keep.contains x.1)) p e

/-- A base die with a leaf put into its TLB and table entries into its walk cache (R345). -/
def Mb.fillTlb (x : Mb) (cls dia base size : Nat) (r w : Bool) (path : List (Nat × Nat)) : Mb :=
  { x with tlb := putTlb x.tlb { spc := cls, page := dia / size * size, size := size, base := base, r := r, w := w },
           walk := path.foldl (fun l p => putWalk l p.1 p.2) x.walk }

/-- The walk cache alone filled, for a walk whose leaf denies what an entry of the TLB still translates (R347, R350). -/
def Mb.fillWalk (x : Mb) (path : List (Nat × Nat)) : Mb := { x with walk := path.foldl (fun l p => putWalk l p.1 p.2) x.walk }

/-- A base die after a walk to a leaf: the leaf enters the TLB unless it denies the access and an older entry stands there (R345,
R347, R350). -/
def leafIn (s : State) (m cls dia base size : Nat) (r w grant : Bool) (path : List (Nat × Nat)) : State :=
  let x := s.mb m
  let held := !grant && (tlbHit s m cls dia).isSome
  let mended (f : Flaw) : Bool :=
    match f with
    | .tlb k c page => k == m && c == cls && page / size == dia / size && !held
    | .walk k p => k == m && path.any (fun x => x.1 == p)
    | _ => false
  let s := if s.codes.flaws = [] then s else { s with codes := { s.codes with flaws := s.codes.flaws.filter (fun f => !mended f) } }
  s.setMb m (if held then x.fillWalk path else x.fillTlb cls dia base size r w path)

/-- Whether a leaf grants a read or write. -/
def grants (needR needW r w : Bool) : Bool := (!needR || r) && (!needW || w)

/-- A clasped machine's registers. -/
def State.clasp (s : State) (x : Nat) : Clasp := mget Clasp.reset s.hub.clasps x

/-- Whether a clasped machine works: MODE 1 to 3 (R420, R474). -/
def State.claspUp (s : State) (x : Nat) : Bool := (s.clasp x).mode == 1 || (s.clasp x).mode == 2 || (s.clasp x).mode == 3

/-- How translation at the home ends for an agent that waits in place: a place, a fault, or a walk that a broken walker does not
make (R420). -/
inductive Xl where
  | ok (key : Nat)
  | fault (reason : Nat)
  | wait
  deriving DecidableEq, Repr

/-- The requests of the tile cores that walk at a base die. -/
def walking (s : State) (m : Nat) : List Req :=
  (s.core.reqs ++ (s.others.filter (fun p => p.1 != s.self)).flatMap (fun p => p.2.reqs)).filter (fun r => r.st == .walking && r.mb == m)

/-- The 64 KiB pages whose walks are under way at a base die (R346). -/
def walksAt (s : State) (m : Nat) : List (Nat × Nat) := ((walking s m).map (fun r => (r.cls, r.place / 65536))).eraseDups

/-- A walk for a page may start at a base die: none is under way for it, which would be joined, and fewer than 64 are (R346). -/
def walkFree (s : State) (m cls dia : Nat) : Bool :=
  !(walksAt s m).contains (cls, dia / 65536) && decide ((walksAt s m).length < 64)

/-- Translation of one DIA: a TLB hit that grants, else a fresh walk (R346, R347), which waits for one of its page that is under way; the
walk fills the TLB. -/
def xlate (s : State) (cls tgt dia : Nat) (needR needW : Bool) : Xl × State :=
  let m := homeOf cls tgt dia
  let fresh : Xl × State :=
    if !s.claspUp (64 + m) || !walkFree s m cls dia then (.wait, s)
    else
      match walk s m cls dia with
      | (.leaf b z r w, path, s) =>
        let ok := grants needR needW r w
        let s := leafIn s m cls dia b z r w ok path
        (if ok then .ok (homeKey cls m (leafByte cls b z dia)) else .fault 2, s)
      | (.err n, _, s) => (.fault n, s)
      | (.wait, _, s) => (.wait, s)
  match tlbHit s m cls dia with
  | some e => if grants needR needW e.r e.w then (.ok (homeKey cls m (leafByte cls e.base e.size dia)), s.corrects (.tlb m cls e.page)) else fresh
  | none => fresh

/-! ## Links and homes -/

/-- A link's state: 0 DOWN, 1 UP, 2 degraded; hops and spines are UP until they fail, peer ports DOWN until they come up (R461,
R469). -/
def linkState (s : State) (l : Nat) : Nat := mget (if l < 33 then 1 else 0) s.hub.links l

/-- n hops from hop a on, rising, are all in service (R459, R461). -/
def hopsUp (s : State) (a n : Nat) : Bool := (List.range n).all (fun i => linkState s ((a + i) % 16) != 0)

/-- A way round the bangle is in service (R459, R461). -/
def ringOk (s : State) (a b : Nat) : Bool := hopsUp s a ((b + 16 - a) % 16) || hopsUp s b ((a + 16 - b) % 16)

/-- The spine of a die, with the hub-to-hub link if the resource lies on the other hub (R462). -/
def spineOk (s : State) (d hub : Nat) : Bool := linkState s (16 + d) != 0 && (d / 8 == hub || linkState s 32 != 0)

/-- A base die and the storage behind it are ready (R474, R475); self-refresh and gating stand apart (R478, backed). -/
def homeReady (s : State) (cls m : Nat) : Bool :=
  bit (s.hub.rdy.getD m 0) 1 && (if cls = 2 then bit s.hub.rdyh (8 + m) else bit (s.hub.rdy.getD m 0) 2)

/-- The spines and the hub-to-hub link lead from a die, or from hub die d - 16, to a hub die (R462). -/
def hubReach (s : State) (d hub : Nat) : Bool := if d < 16 then spineOk s d hub else d == 16 + hub || linkState s 32 != 0

/-- A route leads from a die, or from hub die d - 16, to a ready home; traffic without one waits, and traffic for a peer port that is DOWN goes
by the other (R461, R462, R470, R475). -/
def routeOk (s : State) (d cls tgt dia : Nat) : Bool :=
  match cls with
  | 3 => hubReach s d tgt && bit s.hub.rdyh tgt
  | 4 =>
    let port := if linkState s (34 - tgt) = 0 then 1 - tgt else tgt
    hubReach s d (1 - port) && linkState s (34 - port) != 0
  | 8 => true
  | c =>
    let m := homeOf c tgt dia
    (if d < 16 then ringOk s d m else spineOk s m (d - 16)) && homeReady s c m && (c != 2 || linkState s (16 + m) != 0)

/-! ## Device agents -/

/-- The class of a located DIA (R356). -/
def locCls (l : Nat) : Nat := bits l 52 3

/-- The stack or link of a located DIA (R356). -/
def locTgt (l : Nat) : Nat := bits l 55 4

/-- The address of a located DIA (R356). -/
def locDia (l : Nat) : Nat := bits l 0 52

/-- What is wrong with a located DIA: 2 a reserved bit, 3 a class above the limit, a target or an alignment outside its limits, 0
nothing (R355, R356). -/
def locBad (l align maxCls : Nat) : Nat :=
  if bits l 59 5 ≠ 0 then 2
  else if maxCls < locCls l ∨ (match locCls l with | 1 => false | 3 => decide (2 ≤ locTgt l) | _ => locTgt l != 0) = true ∨
      locDia l % align ≠ 0 then 3
  else 0

/-- Why a device agent's access does not come to be: no route or home yet, a translation fault with its base die, class, target,
DIA and reason, or poison. -/
inductive LocErr where
  | wait
  | fault (m cls tgt dia reason : Nat)
  | poison
  deriving DecidableEq, Repr

/-- The place of a located DIA plus an offset, for a device agent on a die (R356). -/
def locPlace (s : State) (d l off : Nat) (wr : Bool) : Except LocErr Nat × State :=
  let dia := locDia l + off
  let cls := locCls l
  if !routeOk s d cls (locTgt l) dia then (.error .wait, s)
  else if cls = 3 then (.ok (homeKey 3 (locTgt l % 2) dia), s)
  else
    match xlate s cls (locTgt l) dia (!wr) wr with
    | (.ok k, s') => if wr || backed s' k 8 then (.ok k, s') else (.error .wait, s')
    | (.wait, s') => (.error .wait, s')
    | (.fault r, s') => (.error (.fault (homeOf cls (locTgt l) dia) cls (locTgt l) dia r), s')

/-- n words of 8 bytes at a located DIA, from an offset. -/
def locRead (s : State) (d l : Nat) : Nat → Nat → Except LocErr Nat × State
  | _, 0 => (.ok 0, s)
  | off, n + 1 =>
    match locPlace s d l off false with
    | (.error r, s') => (.error r, s')
    | (.ok k, s') =>
      let s' := s'.reads k 8
      if (poisonAt s' k 8).isSome then (.error .poison, s')
      else
        match locRead s' d l (off + 8) n with
        | (.error r, s'') => (.error r, s'')
        | (.ok v, s'') => (.ok (readN s' k 8 + 2 ^ 64 * v), s'')

/-- n bytes written at a place, or none where storage behind it that they need sleeps (R478). -/
def locPut (s : State) (k n data : Nat) : Option State :=
  let s' := writeN s k n data
  if backedWrite s s' k n then some s' else none

/-- Words written at a located DIA from an offset: a sector that the words fill at once, else one word after another (R327). -/
def locWrite (s : State) (d l : Nat) : Nat → List Nat → Option LocErr × State
  | _, [] => (none, s)
  | off, w0 :: w1 :: w2 :: w3 :: ws =>
    match locPlace s d l off true with
    | (.error r, s') => (some r, s')
    | (.ok k, s') =>
      if k % 32 = 0 then
        match locPut s' k 32 (w0 + 2 ^ 64 * (w1 + 2 ^ 64 * (w2 + 2 ^ 64 * w3))) with
        | some s'' => locWrite s'' d l (off + 32) ws
        | none => (some .wait, s')
      else
        match locPut s' k 8 w0 with
        | some s'' => locWrite s'' d l (off + 8) (w1 :: w2 :: w3 :: ws)
        | none => (some .wait, s')
  | off, w :: ws =>
    match locPlace s d l off true with
    | (.error r, s') => (some r, s')
    | (.ok k, s') =>
      match locPut s' k 8 w with
      | some s'' => locWrite s'' d l (off + 8) ws
      | none => (some .wait, s')

end Sys2Proof.Machine
end

