-- ==== Sys2Proof/Decode.lean ====
section
/-! DEFINITION. Decoding slot words to instructions, and the encoder (R84 to R99).

The decoder is total: it gives the instruction of a row of the opcode maps (R96 to R98), or none where the opcode is
unassigned or a reserved field is not zero (R10). Operand limits are the business of WellFormed. -/

namespace Sys2Proof

/-- The three opcode spaces of R89. -/
inductive Space where
  | s | v | t
  deriving DecidableEq, Repr

/-- A slot word with what a header lends to it: hdr is 1 when the bundle has a header, ext its extension byte (R88). -/
structure SlotWord where
  space : Space
  word : Nat
  hdr : Nat
  ext : Nat
  deriving DecidableEq, Repr

/-- The operand bits of a OpSNgdab word. -/
def OpSNgdab.bits (o : OpSNgdab) : Nat :=
  o.n.val * 16777216 + o.g.val * 1048576 + o.d.val * 16384 + o.a.val * 256 + o.b.val * 4
/-- The fields of a OpSNgdab word. -/
def OpSNgdab.ofWord (w : Nat) : OpSNgdab :=
  { n := Fin.ofNat 2 (w / 16777216), g := Fin.ofNat 16 (w / 1048576), d := Fin.ofNat 64 (w / 16384), a := Fin.ofNat 64 (w / 256), b := Fin.ofNat 64 (w / 4) }

/-- The operand bits of a OpSNgda word. -/
def OpSNgda.bits (o : OpSNgda) : Nat :=
  o.n.val * 16777216 + o.g.val * 1048576 + o.d.val * 16384 + o.a.val * 256
/-- The fields of a OpSNgda word. -/
def OpSNgda.ofWord (w : Nat) : OpSNgda :=
  { n := Fin.ofNat 2 (w / 16777216), g := Fin.ofNat 16 (w / 1048576), d := Fin.ofNat 64 (w / 16384), a := Fin.ofNat 64 (w / 256) }

/-- The operand bits of a OpSNqdab word. -/
def OpSNqdab.bits (o : OpSNqdab) : Nat :=
  o.n.val * 16777216 + o.q.val * 1048576 + o.d.val * 16384 + o.a.val * 256 + o.b.val * 4
/-- The fields of a OpSNqdab word. -/
def OpSNqdab.ofWord (w : Nat) : OpSNqdab :=
  { n := Fin.ofNat 2 (w / 16777216), q := Fin.ofNat 16 (w / 1048576), d := Fin.ofNat 64 (w / 16384), a := Fin.ofNat 64 (w / 256), b := Fin.ofNat 64 (w / 4) }

/-- The operand bits of a OpSSdabw word. -/
def OpSSdabw.bits (o : OpSSdabw) : Nat :=
  o.s.val * 2097152 + o.d.val * 16384 + o.a.val * 256 + o.b.val * 4 + o.w.val * 2
/-- The fields of a OpSSdabw word. -/
def OpSSdabw.ofWord (w : Nat) : OpSSdabw :=
  { s := Fin.ofNat 16 (w / 2097152), d := Fin.ofNat 64 (w / 16384), a := Fin.ofNat 64 (w / 256), b := Fin.ofNat 64 (w / 4), w := Fin.ofNat 2 (w / 2) }

/-- The operand bits of a OpSNgdai word. -/
def OpSNgdai.bits (o : OpSNgdai) : Nat :=
  o.n.val * 16777216 + o.g.val * 1048576 + o.d.val * 16384 + o.a.val * 256 + o.i.val
/-- The fields of a OpSNgdai word. -/
def OpSNgdai.ofWord (w : Nat) : OpSNgdai :=
  { n := Fin.ofNat 2 (w / 16777216), g := Fin.ofNat 16 (w / 1048576), d := Fin.ofNat 64 (w / 16384), a := Fin.ofNat 64 (w / 256), i := Fin.ofNat 256 w }

/-- The operand bits of a OpSNgdai2 word. -/
def OpSNgdai2.bits (o : OpSNgdai2) : Nat :=
  o.n.val * 16777216 + o.g.val * 1048576 + o.d.val * 16384 + o.a.val * 256 + o.i.val
/-- The fields of a OpSNgdai2 word. -/
def OpSNgdai2.ofWord (w : Nat) : OpSNgdai2 :=
  { n := Fin.ofNat 2 (w / 16777216), g := Fin.ofNat 16 (w / 1048576), d := Fin.ofNat 64 (w / 16384), a := Fin.ofNat 64 (w / 256), i := Fin.ofNat 64 w }

/-- The operand bits of a OpSDi word. -/
def OpSDi.bits (o : OpSDi) : Nat :=
  o.d.val * 524288 + o.i.val
/-- The fields of a OpSDi word. -/
def OpSDi.ofWord (w : Nat) : OpSDi :=
  { d := Fin.ofNat 64 (w / 524288), i := Fin.ofNat 524288 w }

/-- The operand bits of a OpSDhi word. -/
def OpSDhi.bits (o : OpSDhi) : Nat :=
  o.d.val * 524288 + o.h.val * 65536 + o.i.val
/-- The fields of a OpSDhi word. -/
def OpSDhi.ofWord (w : Nat) : OpSDhi :=
  { d := Fin.ofNat 64 (w / 524288), h := Fin.ofNat 4 (w / 65536), i := Fin.ofNat 65536 w }

/-- The operand bits of a OpSNgqabc word. -/
def OpSNgqabc.bits (o : OpSNgqabc) : Nat :=
  o.n.val * 16777216 + o.g.val * 1048576 + o.q.val * 65536 + o.a.val * 1024 + o.b.val * 16 + o.c.val * 2
/-- The fields of a OpSNgqabc word. -/
def OpSNgqabc.ofWord (w : Nat) : OpSNgqabc :=
  { n := Fin.ofNat 2 (w / 16777216), g := Fin.ofNat 16 (w / 1048576), q := Fin.ofNat 16 (w / 65536), a := Fin.ofNat 64 (w / 1024), b := Fin.ofNat 64 (w / 16), c := Fin.ofNat 8 (w / 2) }

/-- The operand bits of a OpSNgqaci word. -/
def OpSNgqaci.bits (o : OpSNgqaci) : Nat :=
  o.n.val * 16777216 + o.g.val * 1048576 + o.q.val * 65536 + o.a.val * 1024 + o.c.val * 128 + o.i.val
/-- The fields of a OpSNgqaci word. -/
def OpSNgqaci.ofWord (w : Nat) : OpSNgqaci :=
  { n := Fin.ofNat 2 (w / 16777216), g := Fin.ofNat 16 (w / 1048576), q := Fin.ofNat 16 (w / 65536), a := Fin.ofNat 64 (w / 1024), c := Fin.ofNat 8 (w / 128), i := Fin.ofNat 128 w }

/-- The operand bits of a OpSNgqxayb word. -/
def OpSNgqxayb.bits (o : OpSNgqxayb) : Nat :=
  o.n.val * 16777216 + o.g.val * 1048576 + o.q.val * 65536 + o.x.val * 32768 + o.a.val * 2048 + o.y.val * 1024 + o.b.val * 64
/-- The fields of a OpSNgqxayb word. -/
def OpSNgqxayb.ofWord (w : Nat) : OpSNgqxayb :=
  { n := Fin.ofNat 2 (w / 16777216), g := Fin.ofNat 16 (w / 1048576), q := Fin.ofNat 16 (w / 65536), x := Fin.ofNat 2 (w / 32768), a := Fin.ofNat 16 (w / 2048), y := Fin.ofNat 2 (w / 1024), b := Fin.ofNat 16 (w / 64) }

/-- The operand bits of a OpSNgqxa word. -/
def OpSNgqxa.bits (o : OpSNgqxa) : Nat :=
  o.n.val * 16777216 + o.g.val * 1048576 + o.q.val * 65536 + o.x.val * 32768 + o.a.val * 2048
/-- The fields of a OpSNgqxa word. -/
def OpSNgqxa.ofWord (w : Nat) : OpSNgqxa :=
  { n := Fin.ofNat 2 (w / 16777216), g := Fin.ofNat 16 (w / 1048576), q := Fin.ofNat 16 (w / 65536), x := Fin.ofNat 2 (w / 32768), a := Fin.ofNat 16 (w / 2048) }

/-- The operand bits of a OpSNgo word. -/
def OpSNgo.bits (o : OpSNgo) : Nat :=
  o.n.val * 16777216 + o.g.val * 1048576 + o.o.val
/-- The fields of a OpSNgo word. -/
def OpSNgo.ofWord (w : Nat) : OpSNgo :=
  { n := Fin.ofNat 2 (w / 16777216), g := Fin.ofNat 16 (w / 1048576), o := Fin.ofNat 1048576 w }

/-- The operand bits of a OpSNgxqo word. -/
def OpSNgxqo.bits (o : OpSNgxqo) : Nat :=
  o.n.val * 16777216 + o.g.val * 1048576 + o.x.val * 524288 + o.q.val * 32768 + o.o.val
/-- The fields of a OpSNgxqo word. -/
def OpSNgxqo.ofWord (w : Nat) : OpSNgxqo :=
  { n := Fin.ofNat 2 (w / 16777216), g := Fin.ofNat 16 (w / 1048576), x := Fin.ofNat 2 (w / 524288), q := Fin.ofNat 16 (w / 32768), o := Fin.ofNat 32768 w }

/-- The operand bits of a OpSNga word. -/
def OpSNga.bits (o : OpSNga) : Nat :=
  o.n.val * 16777216 + o.g.val * 1048576 + o.a.val * 256
/-- The fields of a OpSNga word. -/
def OpSNga.ofWord (w : Nat) : OpSNga :=
  { n := Fin.ofNat 2 (w / 16777216), g := Fin.ofNat 16 (w / 1048576), a := Fin.ofNat 64 (w / 256) }

/-- The operand bits of a OpSNgdo word. -/
def OpSNgdo.bits (o : OpSNgdo) : Nat :=
  o.n.val * 16777216 + o.g.val * 1048576 + o.d.val * 16384 + o.o.val
/-- The fields of a OpSNgdo word. -/
def OpSNgdo.ofWord (w : Nat) : OpSNgdo :=
  { n := Fin.ofNat 2 (w / 16777216), g := Fin.ofNat 16 (w / 1048576), d := Fin.ofNat 64 (w / 16384), o := Fin.ofNat 16384 w }

/-- The operand bits of a OpSNgso word. -/
def OpSNgso.bits (o : OpSNgso) : Nat :=
  o.n.val * 16777216 + o.g.val * 1048576 + o.s.val * 131072 + o.o.val
/-- The fields of a OpSNgso word. -/
def OpSNgso.ofWord (w : Nat) : OpSNgso :=
  { n := Fin.ofNat 2 (w / 16777216), g := Fin.ofNat 16 (w / 1048576), s := Fin.ofNat 8 (w / 131072), o := Fin.ofNat 131072 w }

/-- The operand bits of a OpSNgi word. -/
def OpSNgi.bits (o : OpSNgi) : Nat :=
  o.n.val * 16777216 + o.g.val * 1048576 + o.i.val
/-- The fields of a OpSNgi word. -/
def OpSNgi.ofWord (w : Nat) : OpSNgi :=
  { n := Fin.ofNat 2 (w / 16777216), g := Fin.ofNat 16 (w / 1048576), i := Fin.ofNat 256 w }

/-- The operand bits of a OpSNg word. -/
def OpSNg.bits (o : OpSNg) : Nat :=
  o.n.val * 16777216 + o.g.val * 1048576
/-- The fields of a OpSNg word. -/
def OpSNg.ofWord (w : Nat) : OpSNg :=
  { n := Fin.ofNat 2 (w / 16777216), g := Fin.ofNat 16 (w / 1048576) }

/-- The operand bits of a OpSNgdi word. -/
def OpSNgdi.bits (o : OpSNgdi) : Nat :=
  o.n.val * 16777216 + o.g.val * 1048576 + o.d.val * 16384 + o.i.val
/-- The fields of a OpSNgdi word. -/
def OpSNgdi.ofWord (w : Nat) : OpSNgdi :=
  { n := Fin.ofNat 2 (w / 16777216), g := Fin.ofNat 16 (w / 1048576), d := Fin.ofNat 64 (w / 16384), i := Fin.ofNat 256 w }

/-- The operand bits of a OpSNgai word. -/
def OpSNgai.bits (o : OpSNgai) : Nat :=
  o.n.val * 16777216 + o.g.val * 1048576 + o.a.val * 256 + o.i.val
/-- The fields of a OpSNgai word. -/
def OpSNgai.ofWord (w : Nat) : OpSNgai :=
  { n := Fin.ofNat 2 (w / 16777216), g := Fin.ofNat 16 (w / 1048576), a := Fin.ofNat 64 (w / 256), i := Fin.ofNat 256 w }

/-- The operand bits of a OpSI word. -/
def OpSI.bits (o : OpSI) : Nat :=
  o.i.val
/-- The fields of a OpSI word. -/
def OpSI.ofWord (w : Nat) : OpSI :=
  { i := Fin.ofNat 131072 w }

/-- The operand bits of a OpSNgks word. -/
def OpSNgks.bits (o : OpSNgks) : Nat :=
  o.n.val * 16777216 + o.g.val * 1048576 + o.k.val * 262144 + o.s.val * 16384
/-- The fields of a OpSNgks word. -/
def OpSNgks.ofWord (w : Nat) : OpSNgks :=
  { n := Fin.ofNat 2 (w / 16777216), g := Fin.ofNat 16 (w / 1048576), k := Fin.ofNat 4 (w / 262144), s := Fin.ofNat 16 (w / 16384) }

/-- The operand bits of a OpVGdabf word. -/
def OpVGdabf.bits (o : OpVGdabf) : Nat :=
  o.g.val * 2097152 + o.d.val * 32768 + o.a.val * 512 + o.b.val * 8 + o.f.val
/-- The fields of a OpVGdabf word. -/
def OpVGdabf.ofWord (w h e : Nat) : OpVGdabf :=
  { g := Fin.ofNat 16 (w / 2097152), d := Fin.ofNat 64 (w / 32768), a := Fin.ofNat 64 (w / 512), b := Fin.ofNat 64 (w / 8), f := Fin.ofNat 8 w, h := Fin.ofNat 2 h, e := Fin.ofNat 256 e }

/-- The operand bits of a OpVGdaf word. -/
def OpVGdaf.bits (o : OpVGdaf) : Nat :=
  o.g.val * 2097152 + o.d.val * 32768 + o.a.val * 512 + o.f.val
/-- The fields of a OpVGdaf word. -/
def OpVGdaf.ofWord (w h e : Nat) : OpVGdaf :=
  { g := Fin.ofNat 16 (w / 2097152), d := Fin.ofNat 64 (w / 32768), a := Fin.ofNat 64 (w / 512), f := Fin.ofNat 8 w, h := Fin.ofNat 2 h, e := Fin.ofNat 256 e }

/-- The operand bits of a OpVGcmabf word. -/
def OpVGcmabf.bits (o : OpVGcmabf) : Nat :=
  o.g.val * 2097152 + o.c.val * 262144 + o.m.val * 32768 + o.a.val * 512 + o.b.val * 8 + o.f.val
/-- The fields of a OpVGcmabf word. -/
def OpVGcmabf.ofWord (w h e : Nat) : OpVGcmabf :=
  { g := Fin.ofNat 16 (w / 2097152), c := Fin.ofNat 8 (w / 262144), m := Fin.ofNat 8 (w / 32768), a := Fin.ofNat 64 (w / 512), b := Fin.ofNat 64 (w / 8), f := Fin.ofNat 8 w, h := Fin.ofNat 2 h, e := Fin.ofNat 256 e }

/-- The operand bits of a OpVGdabm word. -/
def OpVGdabm.bits (o : OpVGdabm) : Nat :=
  o.g.val * 2097152 + o.d.val * 32768 + o.a.val * 512 + o.b.val * 8 + o.m.val
/-- The fields of a OpVGdabm word. -/
def OpVGdabm.ofWord (w h e : Nat) : OpVGdabm :=
  { g := Fin.ofNat 16 (w / 2097152), d := Fin.ofNat 64 (w / 32768), a := Fin.ofNat 64 (w / 512), b := Fin.ofNat 64 (w / 8), m := Fin.ofNat 8 w, h := Fin.ofNat 2 h, e := Fin.ofNat 256 e }

/-- The operand bits of a OpVGdabf2 word. -/
def OpVGdabf2.bits (o : OpVGdabf2) : Nat :=
  o.g.val * 2097152 + o.d.val * 32768 + o.a.val * 512 + o.b.val * 8 + o.f.val
/-- The fields of a OpVGdabf2 word. -/
def OpVGdabf2.ofWord (w h e : Nat) : OpVGdabf2 :=
  { g := Fin.ofNat 16 (w / 2097152), d := Fin.ofNat 64 (w / 32768), a := Fin.ofNat 64 (w / 512), b := Fin.ofNat 64 (w / 8), f := Fin.ofNat 4 w, h := Fin.ofNat 2 h, e := Fin.ofNat 256 e }

/-- The operand bits of a OpVGdastf word. -/
def OpVGdastf.bits (o : OpVGdastf) : Nat :=
  o.g.val * 2097152 + o.d.val * 32768 + o.a.val * 512 + o.s.val * 64 + o.t.val * 8 + o.f.val
/-- The fields of a OpVGdastf word. -/
def OpVGdastf.ofWord (w h e : Nat) : OpVGdastf :=
  { g := Fin.ofNat 16 (w / 2097152), d := Fin.ofNat 64 (w / 32768), a := Fin.ofNat 64 (w / 512), s := Fin.ofNat 8 (w / 64), t := Fin.ofNat 8 (w / 8), f := Fin.ofNat 8 w, h := Fin.ofNat 2 h, e := Fin.ofNat 256 e }

/-- The operand bits of a OpVGdast word. -/
def OpVGdast.bits (o : OpVGdast) : Nat :=
  o.g.val * 2097152 + o.d.val * 32768 + o.a.val * 512 + o.s.val * 64 + o.t.val * 8
/-- The fields of a OpVGdast word. -/
def OpVGdast.ofWord (w h e : Nat) : OpVGdast :=
  { g := Fin.ofNat 16 (w / 2097152), d := Fin.ofNat 64 (w / 32768), a := Fin.ofNat 64 (w / 512), s := Fin.ofNat 8 (w / 64), t := Fin.ofNat 8 (w / 8), h := Fin.ofNat 2 h, e := Fin.ofNat 256 e }

/-- The operand bits of a OpVGda word. -/
def OpVGda.bits (o : OpVGda) : Nat :=
  o.g.val * 2097152 + o.d.val * 32768 + o.a.val * 512
/-- The fields of a OpVGda word. -/
def OpVGda.ofWord (w h e : Nat) : OpVGda :=
  { g := Fin.ofNat 16 (w / 2097152), d := Fin.ofNat 64 (w / 32768), a := Fin.ofNat 64 (w / 512), h := Fin.ofNat 2 h, e := Fin.ofNat 256 e }

/-- The operand bits of a OpVGdauf word. -/
def OpVGdauf.bits (o : OpVGdauf) : Nat :=
  o.g.val * 2097152 + o.d.val * 32768 + o.a.val * 512 + o.u.val * 8 + o.f.val
/-- The fields of a OpVGdauf word. -/
def OpVGdauf.ofWord (w h e : Nat) : OpVGdauf :=
  { g := Fin.ofNat 16 (w / 2097152), d := Fin.ofNat 64 (w / 32768), a := Fin.ofNat 64 (w / 512), u := Fin.ofNat 64 (w / 8), f := Fin.ofNat 4 w, h := Fin.ofNat 2 h, e := Fin.ofNat 256 e }

/-- The operand bits of a OpVGab word. -/
def OpVGab.bits (o : OpVGab) : Nat :=
  o.g.val * 2097152 + o.a.val * 512 + o.b.val * 8
/-- The fields of a OpVGab word. -/
def OpVGab.ofWord (w h e : Nat) : OpVGab :=
  { g := Fin.ofNat 16 (w / 2097152), a := Fin.ofNat 64 (w / 512), b := Fin.ofNat 64 (w / 8), h := Fin.ofNat 2 h, e := Fin.ofNat 256 e }

/-- The operand bits of a OpVGdb word. -/
def OpVGdb.bits (o : OpVGdb) : Nat :=
  o.g.val * 2097152 + o.d.val * 32768 + o.b.val * 8
/-- The fields of a OpVGdb word. -/
def OpVGdb.ofWord (w h e : Nat) : OpVGdb :=
  { g := Fin.ofNat 16 (w / 2097152), d := Fin.ofNat 64 (w / 32768), b := Fin.ofNat 64 (w / 8), h := Fin.ofNat 2 h, e := Fin.ofNat 256 e }

/-- The operand bits of a OpVGabf word. -/
def OpVGabf.bits (o : OpVGabf) : Nat :=
  o.g.val * 2097152 + o.a.val * 512 + o.b.val * 8 + o.f.val
/-- The fields of a OpVGabf word. -/
def OpVGabf.ofWord (w h e : Nat) : OpVGabf :=
  { g := Fin.ofNat 16 (w / 2097152), a := Fin.ofNat 64 (w / 512), b := Fin.ofNat 64 (w / 8), f := Fin.ofNat 8 w, h := Fin.ofNat 2 h, e := Fin.ofNat 256 e }

/-- The operand bits of a OpVGdab word. -/
def OpVGdab.bits (o : OpVGdab) : Nat :=
  o.g.val * 2097152 + o.d.val * 32768 + o.a.val * 512 + o.b.val * 8
/-- The fields of a OpVGdab word. -/
def OpVGdab.ofWord (w h e : Nat) : OpVGdab :=
  { g := Fin.ofNat 16 (w / 2097152), d := Fin.ofNat 64 (w / 32768), a := Fin.ofNat 64 (w / 512), b := Fin.ofNat 64 (w / 8), h := Fin.ofNat 2 h, e := Fin.ofNat 256 e }

/-- The operand bits of a OpVGdai word. -/
def OpVGdai.bits (o : OpVGdai) : Nat :=
  o.g.val * 2097152 + o.d.val * 32768 + o.a.val * 512 + o.i.val * 8
/-- The fields of a OpVGdai word. -/
def OpVGdai.ofWord (w h e : Nat) : OpVGdai :=
  { g := Fin.ofNat 16 (w / 2097152), d := Fin.ofNat 64 (w / 32768), a := Fin.ofNat 64 (w / 512), i := Fin.ofNat 64 (w / 8), h := Fin.ofNat 2 h, e := Fin.ofNat 256 e }

/-- The operand bits of a OpVGdaim word. -/
def OpVGdaim.bits (o : OpVGdaim) : Nat :=
  o.g.val * 2097152 + o.d.val * 32768 + o.a.val * 512 + o.i.val * 8 + o.m.val
/-- The fields of a OpVGdaim word. -/
def OpVGdaim.ofWord (w h e : Nat) : OpVGdaim :=
  { g := Fin.ofNat 16 (w / 2097152), d := Fin.ofNat 64 (w / 32768), a := Fin.ofNat 64 (w / 512), i := Fin.ofNat 64 (w / 8), m := Fin.ofNat 8 w, h := Fin.ofNat 2 h, e := Fin.ofNat 256 e }

/-- The operand bits of a OpVGdaif word. -/
def OpVGdaif.bits (o : OpVGdaif) : Nat :=
  o.g.val * 2097152 + o.d.val * 32768 + o.a.val * 512 + o.i.val * 8 + o.f.val
/-- The fields of a OpVGdaif word. -/
def OpVGdaif.ofWord (w h e : Nat) : OpVGdaif :=
  { g := Fin.ofNat 16 (w / 2097152), d := Fin.ofNat 64 (w / 32768), a := Fin.ofNat 64 (w / 512), i := Fin.ofNat 64 (w / 8), f := Fin.ofNat 4 w, h := Fin.ofNat 2 h, e := Fin.ofNat 256 e }

/-- The operand bits of a OpVGdaf2 word. -/
def OpVGdaf2.bits (o : OpVGdaf2) : Nat :=
  o.g.val * 2097152 + o.d.val * 32768 + o.a.val * 512 + o.f.val
/-- The fields of a OpVGdaf2 word. -/
def OpVGdaf2.ofWord (w h e : Nat) : OpVGdaf2 :=
  { g := Fin.ofNat 16 (w / 2097152), d := Fin.ofNat 64 (w / 32768), a := Fin.ofNat 64 (w / 512), f := Fin.ofNat 4 w, h := Fin.ofNat 2 h, e := Fin.ofNat 256 e }

/-- The operand bits of a OpVGdwi word. -/
def OpVGdwi.bits (o : OpVGdwi) : Nat :=
  o.g.val * 2097152 + o.d.val * 32768 + o.w.val * 8192 + o.i.val
/-- The fields of a OpVGdwi word. -/
def OpVGdwi.ofWord (w h e : Nat) : OpVGdwi :=
  { g := Fin.ofNat 16 (w / 2097152), d := Fin.ofNat 64 (w / 32768), w := Fin.ofNat 4 (w / 8192), i := Fin.ofNat 8192 w, h := Fin.ofNat 2 h, e := Fin.ofNat 256 e }

/-- The operand bits of a OpVGa word. -/
def OpVGa.bits (o : OpVGa) : Nat :=
  o.g.val * 2097152 + o.a.val * 512
/-- The fields of a OpVGa word. -/
def OpVGa.ofWord (w h e : Nat) : OpVGa :=
  { g := Fin.ofNat 16 (w / 2097152), a := Fin.ofNat 64 (w / 512), h := Fin.ofNat 2 h, e := Fin.ofNat 256 e }

/-- The operand bits of a OpTNgfkab word. -/
def OpTNgfkab.bits (o : OpTNgfkab) : Nat :=
  o.n.val * 16777216 + o.g.val * 1048576 + o.f.val * 131072 + o.k.val * 8192 + o.a.val * 128 + o.b.val * 2
/-- The fields of a OpTNgfkab word. -/
def OpTNgfkab.ofWord (w e : Nat) : OpTNgfkab :=
  { n := Fin.ofNat 2 (w / 16777216), g := Fin.ofNat 16 (w / 1048576), f := Fin.ofNat 8 (w / 131072), k := Fin.ofNat 4 (w / 8192), a := Fin.ofNat 64 (w / 128), b := Fin.ofNat 64 (w / 2), e := Fin.ofNat 256 e }

/-- The operand bits of a OpTNgfab word. -/
def OpTNgfab.bits (o : OpTNgfab) : Nat :=
  o.n.val * 16777216 + o.g.val * 1048576 + o.f.val * 131072 + o.a.val * 128 + o.b.val * 2
/-- The fields of a OpTNgfab word. -/
def OpTNgfab.ofWord (w e : Nat) : OpTNgfab :=
  { n := Fin.ofNat 2 (w / 16777216), g := Fin.ofNat 16 (w / 1048576), f := Fin.ofNat 8 (w / 131072), a := Fin.ofNat 64 (w / 128), b := Fin.ofNat 64 (w / 2), e := Fin.ofNat 256 e }

/-- The operand bits of a OpTNgfa word. -/
def OpTNgfa.bits (o : OpTNgfa) : Nat :=
  o.n.val * 16777216 + o.g.val * 1048576 + o.f.val * 131072 + o.a.val * 128
/-- The fields of a OpTNgfa word. -/
def OpTNgfa.ofWord (w e : Nat) : OpTNgfa :=
  { n := Fin.ofNat 2 (w / 16777216), g := Fin.ofNat 16 (w / 1048576), f := Fin.ofNat 8 (w / 131072), a := Fin.ofNat 64 (w / 128), e := Fin.ofNat 256 e }

/-- The operand bits of a OpTNgf word. -/
def OpTNgf.bits (o : OpTNgf) : Nat :=
  o.n.val * 16777216 + o.g.val * 1048576 + o.f.val * 131072
/-- The fields of a OpTNgf word. -/
def OpTNgf.ofWord (w e : Nat) : OpTNgf :=
  { n := Fin.ofNat 2 (w / 16777216), g := Fin.ofNat 16 (w / 1048576), f := Fin.ofNat 8 (w / 131072), e := Fin.ofNat 256 e }

/-- The operand bits of a OpTNgfkb word. -/
def OpTNgfkb.bits (o : OpTNgfkb) : Nat :=
  o.n.val * 16777216 + o.g.val * 1048576 + o.f.val * 131072 + o.k.val * 8192 + o.b.val * 2
/-- The fields of a OpTNgfkb word. -/
def OpTNgfkb.ofWord (w e : Nat) : OpTNgfkb :=
  { n := Fin.ofNat 2 (w / 16777216), g := Fin.ofNat 16 (w / 1048576), f := Fin.ofNat 8 (w / 131072), k := Fin.ofNat 16 (w / 8192), b := Fin.ofNat 64 (w / 2), e := Fin.ofNat 256 e }

/-- The operand bits of a OpTNgfrsv word. -/
def OpTNgfrsv.bits (o : OpTNgfrsv) : Nat :=
  o.n.val * 16777216 + o.g.val * 1048576 + o.f.val * 131072 + (if o.rsv.val = 0 then 0 else o.rsv.val + 1) * 8192
/-- The fields of a OpTNgfrsv word. -/
def OpTNgfrsv.ofWord (w e : Nat) : OpTNgfrsv :=
  { n := Fin.ofNat 2 (w / 16777216), g := Fin.ofNat 16 (w / 1048576), f := Fin.ofNat 8 (w / 131072), rsv := Fin.ofNat 3 (w / 8192 % 4 - 1), e := Fin.ofNat 256 e }

/-- The operand bits of a OpTNgfb word. -/
def OpTNgfb.bits (o : OpTNgfb) : Nat :=
  o.n.val * 16777216 + o.g.val * 1048576 + o.f.val * 131072 + o.b.val * 2
/-- The fields of a OpTNgfb word. -/
def OpTNgfb.ofWord (w e : Nat) : OpTNgfb :=
  { n := Fin.ofNat 2 (w / 16777216), g := Fin.ofNat 16 (w / 1048576), f := Fin.ofNat 8 (w / 131072), b := Fin.ofNat 64 (w / 2), e := Fin.ofNat 256 e }

/-- The operand bits of a OpTNgdabf word. -/
def OpTNgdabf.bits (o : OpTNgdabf) : Nat :=
  o.n.val * 16777216 + o.g.val * 1048576 + o.d.val * 16384 + o.a.val * 256 + o.b.val * 4 + o.f.val
/-- The fields of a OpTNgdabf word. -/
def OpTNgdabf.ofWord (w e : Nat) : OpTNgdabf :=
  { n := Fin.ofNat 2 (w / 16777216), g := Fin.ofNat 16 (w / 1048576), d := Fin.ofNat 4 (w / 16384), a := Fin.ofNat 64 (w / 256), b := Fin.ofNat 64 (w / 4), f := Fin.ofNat 4 w, e := Fin.ofNat 256 e }

/-- The operand bits of a OpTNgdb word. -/
def OpTNgdb.bits (o : OpTNgdb) : Nat :=
  o.n.val * 16777216 + o.g.val * 1048576 + o.d.val * 16384 + o.b.val * 4
/-- The fields of a OpTNgdb word. -/
def OpTNgdb.ofWord (w e : Nat) : OpTNgdb :=
  { n := Fin.ofNat 2 (w / 16777216), g := Fin.ofNat 16 (w / 1048576), d := Fin.ofNat 4 (w / 16384), b := Fin.ofNat 64 (w / 4), e := Fin.ofNat 256 e }

/-- The operand bits of a OpTNgcxym word. -/
def OpTNgcxym.bits (o : OpTNgcxym) : Nat :=
  o.n.val * 16777216 + o.g.val * 1048576 + o.c.val * 131072 + o.x.val * 32768 + o.y.val * 8192 + o.m.val * 1024
/-- The fields of a OpTNgcxym word. -/
def OpTNgcxym.ofWord (w e : Nat) : OpTNgcxym :=
  { n := Fin.ofNat 2 (w / 16777216), g := Fin.ofNat 16 (w / 1048576), c := Fin.ofNat 8 (w / 131072), x := Fin.ofNat 4 (w / 32768), y := Fin.ofNat 4 (w / 8192), m := Fin.ofNat 8 (w / 1024), e := Fin.ofNat 256 e }

/-- The operand bits of a OpTNgcxymak word. -/
def OpTNgcxymak.bits (o : OpTNgcxymak) : Nat :=
  o.n.val * 16777216 + o.g.val * 1048576 + o.c.val * 131072 + o.x.val * 32768 + o.y.val * 8192 + o.m.val * 1024 + o.a.val * 16 + o.k.val
/-- The fields of a OpTNgcxymak word. -/
def OpTNgcxymak.ofWord (w e : Nat) : OpTNgcxymak :=
  { n := Fin.ofNat 2 (w / 16777216), g := Fin.ofNat 16 (w / 1048576), c := Fin.ofNat 8 (w / 131072), x := Fin.ofNat 4 (w / 32768), y := Fin.ofNat 4 (w / 8192), m := Fin.ofNat 8 (w / 1024), a := Fin.ofNat 64 (w / 16), k := Fin.ofNat 4 w, e := Fin.ofNat 256 e }

/-- The operand bits of a OpTNgcak word. -/
def OpTNgcak.bits (o : OpTNgcak) : Nat :=
  o.n.val * 16777216 + o.g.val * 1048576 + o.c.val * 131072 + o.a.val * 16 + o.k.val
/-- The fields of a OpTNgcak word. -/
def OpTNgcak.ofWord (w e : Nat) : OpTNgcak :=
  { n := Fin.ofNat 2 (w / 16777216), g := Fin.ofNat 16 (w / 1048576), c := Fin.ofNat 8 (w / 131072), a := Fin.ofNat 64 (w / 16), k := Fin.ofNat 16 w, e := Fin.ofNat 256 e }

/-- The operand bits of a OpTNgc word. -/
def OpTNgc.bits (o : OpTNgc) : Nat :=
  o.n.val * 16777216 + o.g.val * 1048576 + o.c.val * 131072
/-- The fields of a OpTNgc word. -/
def OpTNgc.ofWord (w e : Nat) : OpTNgc :=
  { n := Fin.ofNat 2 (w / 16777216), g := Fin.ofNat 16 (w / 1048576), c := Fin.ofNat 8 (w / 131072), e := Fin.ofNat 256 e }

/-- The operand bits of a OpTNgdab word. -/
def OpTNgdab.bits (o : OpTNgdab) : Nat :=
  o.n.val * 16777216 + o.g.val * 1048576 + o.d.val * 16384 + o.a.val * 256 + o.b.val * 4
/-- The fields of a OpTNgdab word. -/
def OpTNgdab.ofWord (w e : Nat) : OpTNgdab :=
  { n := Fin.ofNat 2 (w / 16777216), g := Fin.ofNat 16 (w / 1048576), d := Fin.ofNat 64 (w / 16384), a := Fin.ofNat 64 (w / 256), b := Fin.ofNat 64 (w / 4), e := Fin.ofNat 256 e }

/-- The operand bits of a OpTNgab word. -/
def OpTNgab.bits (o : OpTNgab) : Nat :=
  o.n.val * 16777216 + o.g.val * 1048576 + o.a.val * 256 + o.b.val * 4
/-- The fields of a OpTNgab word. -/
def OpTNgab.ofWord (w e : Nat) : OpTNgab :=
  { n := Fin.ofNat 2 (w / 16777216), g := Fin.ofNat 16 (w / 1048576), a := Fin.ofNat 64 (w / 256), b := Fin.ofNat 64 (w / 4), e := Fin.ofNat 256 e }

/-- The operand bits of a OpTNga word. -/
def OpTNga.bits (o : OpTNga) : Nat :=
  o.n.val * 16777216 + o.g.val * 1048576 + o.a.val * 256
/-- The fields of a OpTNga word. -/
def OpTNga.ofWord (w e : Nat) : OpTNga :=
  { n := Fin.ofNat 2 (w / 16777216), g := Fin.ofNat 16 (w / 1048576), a := Fin.ofNat 64 (w / 256), e := Fin.ofNat 256 e }

/-- The operand bits of a OpTNg word. -/
def OpTNg.bits (o : OpTNg) : Nat :=
  o.n.val * 16777216 + o.g.val * 1048576
/-- The fields of a OpTNg word. -/
def OpTNg.ofWord (w e : Nat) : OpTNg :=
  { n := Fin.ofNat 2 (w / 16777216), g := Fin.ofNat 16 (w / 1048576), e := Fin.ofNat 256 e }

/-- The operand bits of a OpTNgdb2 word. -/
def OpTNgdb2.bits (o : OpTNgdb2) : Nat :=
  o.n.val * 16777216 + o.g.val * 1048576 + o.d.val * 16384 + o.b.val * 4
/-- The fields of a OpTNgdb2 word. -/
def OpTNgdb2.ofWord (w e : Nat) : OpTNgdb2 :=
  { n := Fin.ofNat 2 (w / 16777216), g := Fin.ofNat 16 (w / 1048576), d := Fin.ofNat 64 (w / 16384), b := Fin.ofNat 64 (w / 4), e := Fin.ofNat 256 e }

/-- The operand bits of a OpTNgfab2 word. -/
def OpTNgfab2.bits (o : OpTNgfab2) : Nat :=
  o.n.val * 16777216 + o.g.val * 1048576 + o.f.val * 8192 + o.a.val * 128 + o.b.val * 2
/-- The fields of a OpTNgfab2 word. -/
def OpTNgfab2.ofWord (w e : Nat) : OpTNgfab2 :=
  { n := Fin.ofNat 2 (w / 16777216), g := Fin.ofNat 16 (w / 1048576), f := Fin.ofNat 128 (w / 8192), a := Fin.ofNat 64 (w / 128), b := Fin.ofNat 64 (w / 2), e := Fin.ofNat 256 e }

/-- The operand bits of a header word (R86). -/
def OpHeader.bits (o : OpHeader) : Nat :=
  o.rb.val * 134217728 + o.re.val * 67108864 + o.vj.val * 33554432 + o.tw.val * 16777216 + o.e0.val * 65536 +
    o.e1.val * 256 + o.et.val

/-- The fields of a header word (R86). -/
def OpHeader.ofWord (w : Nat) : OpHeader :=
  { rb := Fin.ofNat 2 (w / 134217728), re := Fin.ofNat 2 (w / 67108864), vj := Fin.ofNat 2 (w / 33554432),
    tw := Fin.ofNat 2 (w / 16777216), e0 := Fin.ofNat 256 (w / 65536), e1 := Fin.ofNat 256 (w / 256),
    et := Fin.ofNat 256 w }

/-- The S opcode space without headers (R96). -/
def decodeSOp (w : Nat) : Option Instr :=
  match w / 33554432 with
  | 0 => if w = 0 then some .nop else none
  | 1 =>
    if w % 4 = 0 then some (.add (OpSNgdab.ofWord w))
    else none
  | 2 =>
    if w % 4 = 0 then some (.sub (OpSNgdab.ofWord w))
    else none
  | 3 =>
    if w % 4 = 0 then some (.and (OpSNgdab.ofWord w))
    else none
  | 4 =>
    if w % 4 = 0 then some (.or (OpSNgdab.ofWord w))
    else none
  | 5 =>
    if w % 4 = 0 then some (.xor (OpSNgdab.ofWord w))
    else none
  | 6 =>
    if w % 4 = 0 then some (.andn (OpSNgdab.ofWord w))
    else none
  | 7 =>
    if w % 4 = 0 then some (.shl (OpSNgdab.ofWord w))
    else none
  | 8 =>
    if w % 4 = 0 then some (.shr (OpSNgdab.ofWord w))
    else none
  | 9 =>
    if w % 4 = 0 then some (.sra (OpSNgdab.ofWord w))
    else none
  | 10 =>
    if w % 4 = 0 then some (.mul (OpSNgdab.ofWord w))
    else none
  | 11 =>
    if w % 4 = 0 then some (.mulhI (OpSNgdab.ofWord w))
    else none
  | 12 =>
    if w % 4 = 0 then some (.mulhN (OpSNgdab.ofWord w))
    else none
  | 13 =>
    if w % 4 = 0 then some (.minI (OpSNgdab.ofWord w))
    else none
  | 14 =>
    if w % 4 = 0 then some (.minN (OpSNgdab.ofWord w))
    else none
  | 15 =>
    if w % 4 = 0 then some (.maxI (OpSNgdab.ofWord w))
    else none
  | 16 =>
    if w % 4 = 0 then some (.maxN (OpSNgdab.ofWord w))
    else none
  | 17 =>
    if w % 256 = 0 then some (.clz (OpSNgda.ofWord w))
    else none
  | 18 =>
    if w % 256 = 0 then some (.popc (OpSNgda.ofWord w))
    else none
  | 19 =>
    if w % 4 = 0 then some (.sel (OpSNqdab.ofWord w))
    else none
  | 20 =>
    if w % 2 = 0 ∧ w / 1048576 % 2 = 0 then some (.amoAdd (OpSSdabw.ofWord w))
    else none
  | 21 =>
    if w % 2 = 0 ∧ w / 1048576 % 2 = 0 then some (.amoMinI (OpSSdabw.ofWord w))
    else none
  | 22 =>
    if w % 2 = 0 ∧ w / 1048576 % 2 = 0 then some (.amoMinN (OpSSdabw.ofWord w))
    else none
  | 23 =>
    if w % 2 = 0 ∧ w / 1048576 % 2 = 0 then some (.amoMaxI (OpSSdabw.ofWord w))
    else none
  | 24 =>
    if w % 2 = 0 ∧ w / 1048576 % 2 = 0 then some (.amoMaxN (OpSSdabw.ofWord w))
    else none
  | 25 =>
    if w % 2 = 0 ∧ w / 1048576 % 2 = 0 then some (.amoAnd (OpSSdabw.ofWord w))
    else none
  | 26 =>
    if w % 2 = 0 ∧ w / 1048576 % 2 = 0 then some (.amoOr (OpSSdabw.ofWord w))
    else none
  | 27 =>
    if w % 2 = 0 ∧ w / 1048576 % 2 = 0 then some (.amoXor (OpSSdabw.ofWord w))
    else none
  | 28 =>
    if w % 2 = 0 ∧ w / 1048576 % 2 = 0 then some (.amoXchg (OpSSdabw.ofWord w))
    else none
  | 29 =>
    if w % 2 = 0 ∧ w / 1048576 % 2 = 0 then some (.amoCas (OpSSdabw.ofWord w))
    else none
  | 33 =>
    some (.addi (OpSNgdai.ofWord w))
  | 35 =>
    some (.andi (OpSNgdai.ofWord w))
  | 36 =>
    some (.ori (OpSNgdai.ofWord w))
  | 37 =>
    some (.xori (OpSNgdai.ofWord w))
  | 39 =>
    if w / 64 % 4 = 0 then some (.shli (OpSNgdai2.ofWord w))
    else none
  | 40 =>
    if w / 64 % 4 = 0 then some (.shri (OpSNgdai2.ofWord w))
    else none
  | 41 =>
    if w / 64 % 4 = 0 then some (.srai (OpSNgdai2.ofWord w))
    else none
  | 42 =>
    some (.muli (OpSNgdai.ofWord w))
  | 45 =>
    some (.miniI (OpSNgdai.ofWord w))
  | 46 =>
    some (.miniN (OpSNgdai.ofWord w))
  | 47 =>
    some (.maxiI (OpSNgdai.ofWord w))
  | 48 =>
    some (.maxiN (OpSNgdai.ofWord w))
  | 52 =>
    some (.ldi (OpSDi.ofWord w))
  | 53 =>
    if w / 262144 % 2 = 0 then some (.ldhi (OpSDhi.ofWord w))
    else none
  | 56 =>
    if w % 2 = 0 then some (.cmp (OpSNgqabc.ofWord w))
    else none
  | 57 =>
    some (.cmpi (OpSNgqaci.ofWord w))
  | 58 =>
    if w % 64 = 0 then some (.pand (OpSNgqxayb.ofWord w))
    else none
  | 59 =>
    if w % 64 = 0 then some (.por (OpSNgqxayb.ofWord w))
    else none
  | 60 =>
    if w % 64 = 0 then some (.pxor (OpSNgqxayb.ofWord w))
    else none
  | 61 =>
    if w % 2048 = 0 then some (.pnot (OpSNgqxa.ofWord w))
    else none
  | 64 =>
    some (.br (OpSNgo.ofWord w))
  | 65 =>
    some (.brc (OpSNgxqo.ofWord w))
  | 66 =>
    some (.brG (OpSNgo.ofWord w))
  | 67 =>
    if w % 256 = 0 ∧ w / 16384 % 64 = 0 then some (.jmp (OpSNga.ofWord w))
    else none
  | 68 =>
    some (.call (OpSNgdo.ofWord w))
  | 69 =>
    if w % 256 = 0 ∧ w / 16384 % 64 = 0 then some (.ret (OpSNga.ofWord w))
    else none
  | 70 =>
    some (.loop (OpSNgo.ofWord w))
  | 71 =>
    some (.loopr (OpSNgso.ofWord w))
  | 72 =>
    if w % 256 = 0 ∧ w / 16384 % 64 = 0 then some (.setlc (OpSNga.ofWord w))
    else none
  | 74 =>
    if w % 256 = 0 ∧ w / 16384 % 64 = 0 then some (.waitc (OpSNga.ofWord w))
    else none
  | 80 =>
    if w / 256 % 4096 = 0 then some (.trap (OpSNgi.ofWord w))
    else none
  | 81 =>
    if w % 1048576 = 0 then some (.eret (OpSNg.ofWord w))
    else none
  | 82 =>
    if w % 1048576 = 0 then some (.halt (OpSNg.ofWord w))
    else none
  | 83 =>
    if w % 1048576 = 0 then some (.retire (OpSNg.ofWord w))
    else none
  | 84 =>
    if w / 256 % 64 = 0 then some (.mfs (OpSNgdi.ofWord w))
    else none
  | 85 =>
    if w / 16384 % 64 = 0 then some (.mts (OpSNgai.ofWord w))
    else none
  | 86 =>
    if w / 131072 % 256 = 0 then some (.setfmt (OpSI.ofWord w))
    else none
  | 87 =>
    if w % 256 = 0 ∧ w / 16384 % 64 = 0 then some (.chkS (OpSNga.ofWord w))
    else none
  | 88 =>
    some (.xv2sN8 (OpSNgdai.ofWord w))
  | 89 =>
    some (.xv2sI8 (OpSNgdai.ofWord w))
  | 90 =>
    some (.xv2sN16 (OpSNgdai.ofWord w))
  | 91 =>
    some (.xv2sI16 (OpSNgdai.ofWord w))
  | 92 =>
    some (.xv2sN32 (OpSNgdai.ofWord w))
  | 93 =>
    some (.xv2sI32 (OpSNgdai.ofWord w))
  | 94 =>
    some (.xv2sN64 (OpSNgdai.ofWord w))
  | 95 =>
    if w % 4 = 0 then some (.xq2m (OpSNgdab.ofWord w))
    else none
  | 96 =>
    some (.ldBI (OpSNgdai.ofWord w))
  | 97 =>
    some (.ldBN (OpSNgdai.ofWord w))
  | 98 =>
    some (.ldHI (OpSNgdai.ofWord w))
  | 99 =>
    some (.ldHN (OpSNgdai.ofWord w))
  | 100 =>
    some (.ldWI (OpSNgdai.ofWord w))
  | 101 =>
    some (.ldWN (OpSNgdai.ofWord w))
  | 102 =>
    some (.ldD (OpSNgdai.ofWord w))
  | 103 =>
    if w / 16384 % 64 = 0 then some (.pref (OpSNgai.ofWord w))
    else none
  | 104 =>
    some (.stB (OpSNgdai.ofWord w))
  | 105 =>
    some (.stH (OpSNgdai.ofWord w))
  | 106 =>
    some (.stW (OpSNgdai.ofWord w))
  | 107 =>
    some (.stD (OpSNgdai.ofWord w))
  | 108 =>
    some (.stGB (OpSNgdai.ofWord w))
  | 109 =>
    some (.stGH (OpSNgdai.ofWord w))
  | 110 =>
    some (.stGW (OpSNgdai.ofWord w))
  | 111 =>
    some (.stGD (OpSNgdai.ofWord w))
  | 112 =>
    if w % 16384 = 0 then some (.fence (OpSNgks.ofWord w))
    else none
  | _ => none

/-- The V opcode space; h and e are what the header lends (R93, R97). -/
def decodeV (w h e : Nat) : Option Instr :=
  match w / 33554432 with
  | 0 => if w = 0 then some .nop else none
  | 1 =>
    some (.vadd (OpVGdabf.ofWord w h e))
  | 2 =>
    some (.vsub (OpVGdabf.ofWord w h e))
  | 3 =>
    some (.vmul (OpVGdabf.ofWord w h e))
  | 4 =>
    some (.vfma (OpVGdabf.ofWord w h e))
  | 5 =>
    some (.vfms (OpVGdabf.ofWord w h e))
  | 6 =>
    some (.vfnma (OpVGdabf.ofWord w h e))
  | 7 =>
    some (.vmax (OpVGdabf.ofWord w h e))
  | 8 =>
    some (.vmin (OpVGdabf.ofWord w h e))
  | 9 =>
    if w / 8 % 64 = 0 then some (.vabs (OpVGdaf.ofWord w h e))
    else none
  | 10 =>
    if w / 8 % 64 = 0 then some (.vneg (OpVGdaf.ofWord w h e))
    else none
  | 11 =>
    some (.vclamp (OpVGdabf.ofWord w h e))
  | 12 =>
    some (.vcmp (OpVGcmabf.ofWord w h e))
  | 13 =>
    some (.vsel (OpVGdabm.ofWord w h e))
  | 16 =>
    if w / 4 % 2 = 0 then some (.vaddI (OpVGdabf2.ofWord w h e))
    else none
  | 17 =>
    if w / 4 % 2 = 0 then some (.vsubI (OpVGdabf2.ofWord w h e))
    else none
  | 18 =>
    if w / 4 % 2 = 0 then some (.vmulI (OpVGdabf2.ofWord w h e))
    else none
  | 19 =>
    if w / 4 % 2 = 0 then some (.vand (OpVGdabf2.ofWord w h e))
    else none
  | 20 =>
    if w / 4 % 2 = 0 then some (.vor (OpVGdabf2.ofWord w h e))
    else none
  | 21 =>
    if w / 4 % 2 = 0 then some (.vxor (OpVGdabf2.ofWord w h e))
    else none
  | 22 =>
    if w / 4 % 2 = 0 then some (.vshl (OpVGdabf2.ofWord w h e))
    else none
  | 23 =>
    if w / 4 % 2 = 0 then some (.vshr (OpVGdabf2.ofWord w h e))
    else none
  | 24 =>
    if w / 4 % 2 = 0 then some (.vsra (OpVGdabf2.ofWord w h e))
    else none
  | 25 =>
    some (.vminInt (OpVGdabf.ofWord w h e))
  | 26 =>
    some (.vmaxInt (OpVGdabf.ofWord w h e))
  | 27 =>
    some (.vcmpI (OpVGcmabf.ofWord w h e))
  | 32 =>
    some (.vcvt (OpVGdastf.ofWord w h e))
  | 33 =>
    if w % 8 = 0 then some (.vcvtSr (OpVGdast.ofWord w h e))
    else none
  | 34 =>
    some (.vpackMx (OpVGdabf.ofWord w h e))
  | 35 =>
    if w / 8 % 64 = 0 then some (.vunpkMx (OpVGdaf.ofWord w h e))
    else none
  | 40 =>
    if w / 8 % 64 = 0 then some (.vexp2 (OpVGdaf.ofWord w h e))
    else none
  | 41 =>
    if w / 8 % 64 = 0 then some (.vlog2 (OpVGdaf.ofWord w h e))
    else none
  | 42 =>
    if w / 8 % 64 = 0 then some (.vrcp (OpVGdaf.ofWord w h e))
    else none
  | 43 =>
    if w / 8 % 64 = 0 then some (.vrsq (OpVGdaf.ofWord w h e))
    else none
  | 44 =>
    if w / 8 % 64 = 0 then some (.vtanh (OpVGdaf.ofWord w h e))
    else none
  | 48 =>
    if w / 8 % 64 = 0 then some (.vrsum (OpVGdaf.ofWord w h e))
    else none
  | 49 =>
    if w / 8 % 64 = 0 then some (.vrmax (OpVGdaf.ofWord w h e))
    else none
  | 50 =>
    if w / 8 % 64 = 0 then some (.vrmin (OpVGdaf.ofWord w h e))
    else none
  | 56 =>
    if w / 4 % 2 = 0 then some (.vperm (OpVGdabf2.ofWord w h e))
    else none
  | 57 =>
    if w % 512 = 0 then some (.vtrn (OpVGda.ofWord w h e))
    else none
  | 58 =>
    if w / 4 % 2 = 0 then some (.vzip (OpVGdabf2.ofWord w h e))
    else none
  | 59 =>
    if w / 4 % 2 = 0 then some (.vuzp (OpVGdabf2.ofWord w h e))
    else none
  | 60 =>
    if w / 4 % 2 = 0 then some (.vrot (OpVGdauf.ofWord w h e))
    else none
  | 61 =>
    if w / 4 % 2 = 0 then some (.vbcst (OpVGdauf.ofWord w h e))
    else none
  | 64 =>
    if w % 8 = 0 ∧ w / 32768 % 64 = 0 then some (.vstatW (OpVGab.ofWord w h e))
    else none
  | 65 =>
    if w % 8 = 0 ∧ w / 512 % 64 = 0 then some (.vstatR (OpVGdb.ofWord w h e))
    else none
  | 66 =>
    if w / 32768 % 64 = 0 then some (.vmom (OpVGabf.ofWord w h e))
    else none
  | 67 =>
    some (.vnorm (OpVGdabf.ofWord w h e))
  | 68 =>
    some (.vsmax (OpVGdabf.ofWord w h e))
  | 72 =>
    if w / 8 % 64 = 0 then some (.vbfacc (OpVGdaf.ofWord w h e))
    else none
  | 73 =>
    if w / 8 % 64 = 0 then some (.vbfexp (OpVGdaf.ofWord w h e))
    else none
  | 76 =>
    if w % 8 = 0 then some (.vpprob (OpVGdab.ofWord w h e))
    else none
  | 77 =>
    some (.vq8 (OpVGdabf.ofWord w h e))
  | 80 =>
    if w % 8 = 0 then some (.vld (OpVGdai.ofWord w h e))
    else none
  | 81 =>
    if w % 8 = 0 then some (.vst (OpVGdai.ofWord w h e))
    else none
  | 82 =>
    some (.vstM (OpVGdaim.ofWord w h e))
  | 83 =>
    if w / 4 % 2 = 0 then some (.vldb (OpVGdaif.ofWord w h e))
    else none
  | 88 =>
    if w / 4 % 128 = 0 then some (.vmov (OpVGdaf2.ofWord w h e))
    else none
  | 89 =>
    some (.vli (OpVGdwi.ofWord w h e))
  | 90 =>
    if w / 4 % 128 = 0 then some (.xs2v (OpVGdaf2.ofWord w h e))
    else none
  | 91 =>
    if w / 4 % 128 = 0 then some (.xm2q (OpVGdaf2.ofWord w h e))
    else none
  | 92 =>
    if w % 512 = 0 ∧ w / 32768 % 64 = 0 then some (.chkV (OpVGa.ofWord w h e))
    else none
  | _ => none

/-- The T opcode space; e is the byte ET (R94, R98). -/
def decodeT (w e : Nat) : Option Instr :=
  match w / 33554432 with
  | 0 => if w = 0 then some .nop else none
  | 1 =>
    if w % 2 = 0 ∧ w / 32768 % 4 = 0 then some (.xmvm (OpTNgfkab.ofWord w e))
    else none
  | 2 =>
    if w % 2 = 0 ∧ w / 32768 % 4 = 0 then some (.xmvt (OpTNgfkab.ofWord w e))
    else none
  | 3 =>
    if w % 2 = 0 ∧ w / 8192 % 16 = 0 then some (.xupdA (OpTNgfab.ofWord w e))
    else if w % 2 = 0 ∧ w / 8192 % 16 = 1 then some (.xupdC (OpTNgfab.ofWord w e))
    else none
  | 4 =>
    if w % 2 = 0 ∧ w / 8192 % 16 = 0 then some (.xupdD (OpTNgfab.ofWord w e))
    else none
  | 5 =>
    if w % 128 = 0 ∧ w / 8192 % 16 = 0 then some (.xfer (OpTNgfa.ofWord w e))
    else if w % 128 = 0 ∧ w / 8192 % 16 = 1 then some (.xferR (OpTNgfa.ofWord w e))
    else none
  | 6 =>
    if w % 128 = 0 ∧ w / 8192 % 16 = 0 then some (.xrst (OpTNgfa.ofWord w e))
    else if w % 131072 = 8192 then some (.xrstAll (OpTNgf.ofWord w e))
    else none
  | 7 =>
    if w % 131072 = 0 then some (.xsymCal (OpTNgf.ofWord w e))
    else none
  | 8 =>
    if w % 128 = 0 ∧ w / 8192 % 16 = 0 then some (.xsymLd (OpTNgfa.ofWord w e))
    else none
  | 9 =>
    if w % 128 = 0 ∧ w / 8192 % 16 = 0 then some (.xsymSt (OpTNgfa.ofWord w e))
    else none
  | 10 =>
    if w % 2 = 0 ∧ w / 128 % 64 = 0 then some (.xget (OpTNgfkb.ofWord w e))
    else none
  | 11 =>
    if w % 128 = 0 ∧ w / 8192 % 16 = 0 then some (.xcfgW (OpTNgfa.ofWord w e))
    else if w % 128 = 0 ∧ w / 8192 % 16 = 1 then some (.xcfgR (OpTNgfa.ofWord w e))
    else if w % 128 = 0 ∧ w / 8192 % 16 = 2 then some (.xcfgWa (OpTNgfa.ofWord w e))
    else if w % 128 = 0 ∧ w / 8192 % 16 = 3 then some (.xcfgRa (OpTNgfa.ofWord w e))
    else if w % 128 = 0 ∧ w / 8192 % 16 = 4 then some (.xcfgWc (OpTNgfa.ofWord w e))
    else if w % 128 = 0 ∧ w / 8192 % 16 = 5 then some (.xcfgRc (OpTNgfa.ofWord w e))
    else none
  | 12 =>
    if w / 8192 % 4 ≠ 1 ∧ w / 32768 % 4 = 0 ∧ w % 8192 = 0 then some (.xmodeN (OpTNgfrsv.ofWord w e))
    else if w % 131072 = 8192 then some (.xmodeR (OpTNgf.ofWord w e))
    else none
  | 13 =>
    if w % 2 = 0 ∧ w / 128 % 1024 = 0 then some (.xstat (OpTNgfb.ofWord w e))
    else if w % 2 = 0 ∧ w / 128 % 1024 = 64 then some (.xstatPc (OpTNgfb.ofWord w e))
    else none
  | 14 =>
    if w % 131072 = 0 then some (.xwait (OpTNgf.ofWord w e))
    else none
  | 16 =>
    if w / 65536 % 16 = 0 ∧ e % 2 = 0 then some (.mxld (OpTNgdabf.ofWord w e))
    else if w % 4 = 0 ∧ w / 256 % 64 = 0 ∧ w / 65536 % 16 = 0 ∧ e % 2 = 1 then some (.mxldR (OpTNgdb.ofWord w e))
    else none
  | 17 =>
    if w % 1024 = 0 then some (.mma (OpTNgcxym.ofWord w e))
    else none
  | 18 =>
    if w % 1024 = 0 then some (.mmaz (OpTNgcxym.ofWord w e))
    else none
  | 19 =>
    if w / 4 % 4 = 0 then some (.mmag (OpTNgcxymak.ofWord w e))
    else none
  | 20 =>
    if w / 1024 % 128 = 0 then some (.mxrd (OpTNgcak.ofWord w e))
    else none
  | 21 =>
    if w / 1024 % 128 = 0 then some (.mxwr (OpTNgcak.ofWord w e))
    else none
  | 22 =>
    if w % 131072 = 0 then some (.mxclr (OpTNgc.ofWord w e))
    else none
  | 24 =>
    if w % 4 = 0 then some (.cpy (OpTNgdab.ofWord w e))
    else none
  | 25 =>
    if w % 4 = 0 then some (.cpyw (OpTNgdab.ofWord w e))
    else none
  | 26 =>
    if w % 4 = 0 then some (.fill (OpTNgdab.ofWord w e))
    else none
  | 27 =>
    if w % 4 = 0 then some (.gath (OpTNgdab.ofWord w e))
    else none
  | 32 =>
    if w % 4 = 0 ∧ w / 16384 % 64 = 0 then some (.barInit (OpTNgab.ofWord w e))
    else none
  | 33 =>
    if w % 4 = 0 ∧ w / 16384 % 64 = 0 then some (.barExp (OpTNgab.ofWord w e))
    else none
  | 34 =>
    if w % 4 = 0 ∧ w / 16384 % 64 = 0 then some (.barArr (OpTNgab.ofWord w e))
    else none
  | 35 =>
    if w % 4 = 0 ∧ w / 16384 % 64 = 0 then some (.barWait (OpTNgab.ofWord w e))
    else none
  | 36 =>
    if w % 4 = 0 then some (.barTest (OpTNgdab.ofWord w e))
    else none
  | 37 =>
    if w % 4 = 0 then some (.chset (OpTNgdab.ofWord w e))
    else none
  | 38 =>
    if w % 256 = 0 ∧ w / 16384 % 64 = 0 then some (.bankAcq (OpTNga.ofWord w e))
    else none
  | 39 =>
    if w % 256 = 0 ∧ w / 16384 % 64 = 0 then some (.bankRel (OpTNga.ofWord w e))
    else none
  | 40 =>
    if w % 1048576 = 0 then some (.beadRecv (OpTNg.ofWord w e))
    else none
  | 41 =>
    if w % 4 = 0 ∧ w / 16384 % 64 = 0 then some (.beadSend (OpTNgab.ofWord w e))
    else none
  | 42 =>
    if w % 256 = 0 ∧ w / 16384 % 64 = 0 then some (.beadDone (OpTNga.ofWord w e))
    else none
  | 43 =>
    if w % 4 = 0 ∧ w / 256 % 64 = 0 then some (.beadHdr (OpTNgdb2.ofWord w e))
    else none
  | 48 =>
    if w % 256 = 0 ∧ w / 16384 % 64 = 0 then some (.rngSeed (OpTNga.ofWord w e))
    else none
  | 49 =>
    if w % 2 = 0 then some (.dupS (OpTNgfab2.ofWord w e))
    else none
  | _ => none

/-- A slot-0 word: a header when its bits 31 to 28 are 1111 (R86), otherwise an S operation. -/
def decodeS (w : Nat) : Option Instr :=
  if w / 268435456 = 15 then some (.header (OpHeader.ofWord w)) else decodeSOp w

/-- The instruction a slot word stands for. -/
def decodeSlot (x : SlotWord) : Option Instr :=
  match x.space with
  | .s => decodeS x.word
  | .v => decodeV x.word x.hdr x.ext
  | .t => decodeT x.word x.ext

/-- The word at position p of a bundle's 16 little-endian bytes (R7, R84). -/
def bundleWord (bytes : List Nat) (p : Nat) : Nat :=
  bytes.getD (4 * p) 0 + bytes.getD (4 * p + 1) 0 * 256 + bytes.getD (4 * p + 2) 0 * 65536 +
    bytes.getD (4 * p + 3) 0 * 16777216

/-- The four little-endian bytes of a slot word (R7, R84). -/
def wordBytes (w : Nat) : List Nat := [w % 256, w / 256 % 256, w / 65536 % 256, w / 16777216 % 256]

/-- The slot position in which a lone word is read: the first of S, V0 and T whose opcode map holds it (log A3). -/
def lonePosition (w : Nat) : Option Nat :=
  if (decodeS w).isSome then some 0
  else if (decodeV w 0 0).isSome then some 1
  else if (decodeT w 0).isSome then some 3
  else none

/-- The 16 bytes of a bundle that holds one word at a position and NOP elsewhere (R84, R85). -/
def loneBundle (w p : Nat) : List Nat :=
  (List.range 4).flatMap (fun i => wordBytes (if i = p then w else 0))

/-- What the decoder reads from a bundle that holds the word alone (log A3). -/
def decodeLone (w : Nat) : Option Instr :=
  match lonePosition w with
  | some 0 => decodeS (bundleWord (loneBundle w 0) 0)
  | some 1 => decodeV (bundleWord (loneBundle w 1) 1) 0 0
  | some 3 => decodeT (bundleWord (loneBundle w 3) 3) 0
  | _ => none

/-- The instruction the decoder reads from a table word of nbits bits; the table gives slot operations 32 bits (log A3). -/
def decodeTableWord (nbits w : Nat) : Option Instr :=
  if nbits = 32 then decodeLone (w % 4294967296) else none

/-- The slot word of an instruction, with what the header lends to it; none for a step of another unit, which has no
bits. -/
def encode (i : Instr) : Option SlotWord :=
  match i with
  | .nop => some { space := .s, word := 0, hdr := 0, ext := 0 }
  | .add o => some { space := .s, word := 0x02000000 + o.bits, hdr := 0, ext := 0 }
  | .sub o => some { space := .s, word := 0x04000000 + o.bits, hdr := 0, ext := 0 }
  | .and o => some { space := .s, word := 0x06000000 + o.bits, hdr := 0, ext := 0 }
  | .or o => some { space := .s, word := 0x08000000 + o.bits, hdr := 0, ext := 0 }
  | .xor o => some { space := .s, word := 0x0A000000 + o.bits, hdr := 0, ext := 0 }
  | .andn o => some { space := .s, word := 0x0C000000 + o.bits, hdr := 0, ext := 0 }
  | .shl o => some { space := .s, word := 0x0E000000 + o.bits, hdr := 0, ext := 0 }
  | .shr o => some { space := .s, word := 0x10000000 + o.bits, hdr := 0, ext := 0 }
  | .sra o => some { space := .s, word := 0x12000000 + o.bits, hdr := 0, ext := 0 }
  | .mul o => some { space := .s, word := 0x14000000 + o.bits, hdr := 0, ext := 0 }
  | .mulhI o => some { space := .s, word := 0x16000000 + o.bits, hdr := 0, ext := 0 }
  | .mulhN o => some { space := .s, word := 0x18000000 + o.bits, hdr := 0, ext := 0 }
  | .minI o => some { space := .s, word := 0x1A000000 + o.bits, hdr := 0, ext := 0 }
  | .minN o => some { space := .s, word := 0x1C000000 + o.bits, hdr := 0, ext := 0 }
  | .maxI o => some { space := .s, word := 0x1E000000 + o.bits, hdr := 0, ext := 0 }
  | .maxN o => some { space := .s, word := 0x20000000 + o.bits, hdr := 0, ext := 0 }
  | .clz o => some { space := .s, word := 0x22000000 + o.bits, hdr := 0, ext := 0 }
  | .popc o => some { space := .s, word := 0x24000000 + o.bits, hdr := 0, ext := 0 }
  | .sel o => some { space := .s, word := 0x26000000 + o.bits, hdr := 0, ext := 0 }
  | .amoAdd o => some { space := .s, word := 0x28000000 + o.bits, hdr := 0, ext := 0 }
  | .amoMinI o => some { space := .s, word := 0x2A000000 + o.bits, hdr := 0, ext := 0 }
  | .amoMinN o => some { space := .s, word := 0x2C000000 + o.bits, hdr := 0, ext := 0 }
  | .amoMaxI o => some { space := .s, word := 0x2E000000 + o.bits, hdr := 0, ext := 0 }
  | .amoMaxN o => some { space := .s, word := 0x30000000 + o.bits, hdr := 0, ext := 0 }
  | .amoAnd o => some { space := .s, word := 0x32000000 + o.bits, hdr := 0, ext := 0 }
  | .amoOr o => some { space := .s, word := 0x34000000 + o.bits, hdr := 0, ext := 0 }
  | .amoXor o => some { space := .s, word := 0x36000000 + o.bits, hdr := 0, ext := 0 }
  | .amoXchg o => some { space := .s, word := 0x38000000 + o.bits, hdr := 0, ext := 0 }
  | .amoCas o => some { space := .s, word := 0x3A000000 + o.bits, hdr := 0, ext := 0 }
  | .addi o => some { space := .s, word := 0x42000000 + o.bits, hdr := 0, ext := 0 }
  | .andi o => some { space := .s, word := 0x46000000 + o.bits, hdr := 0, ext := 0 }
  | .ori o => some { space := .s, word := 0x48000000 + o.bits, hdr := 0, ext := 0 }
  | .xori o => some { space := .s, word := 0x4A000000 + o.bits, hdr := 0, ext := 0 }
  | .shli o => some { space := .s, word := 0x4E000000 + o.bits, hdr := 0, ext := 0 }
  | .shri o => some { space := .s, word := 0x50000000 + o.bits, hdr := 0, ext := 0 }
  | .srai o => some { space := .s, word := 0x52000000 + o.bits, hdr := 0, ext := 0 }
  | .muli o => some { space := .s, word := 0x54000000 + o.bits, hdr := 0, ext := 0 }
  | .miniI o => some { space := .s, word := 0x5A000000 + o.bits, hdr := 0, ext := 0 }
  | .miniN o => some { space := .s, word := 0x5C000000 + o.bits, hdr := 0, ext := 0 }
  | .maxiI o => some { space := .s, word := 0x5E000000 + o.bits, hdr := 0, ext := 0 }
  | .maxiN o => some { space := .s, word := 0x60000000 + o.bits, hdr := 0, ext := 0 }
  | .ldi o => some { space := .s, word := 0x68000000 + o.bits, hdr := 0, ext := 0 }
  | .ldhi o => some { space := .s, word := 0x6A000000 + o.bits, hdr := 0, ext := 0 }
  | .cmp o => some { space := .s, word := 0x70000000 + o.bits, hdr := 0, ext := 0 }
  | .cmpi o => some { space := .s, word := 0x72000000 + o.bits, hdr := 0, ext := 0 }
  | .pand o => some { space := .s, word := 0x74000000 + o.bits, hdr := 0, ext := 0 }
  | .por o => some { space := .s, word := 0x76000000 + o.bits, hdr := 0, ext := 0 }
  | .pxor o => some { space := .s, word := 0x78000000 + o.bits, hdr := 0, ext := 0 }
  | .pnot o => some { space := .s, word := 0x7A000000 + o.bits, hdr := 0, ext := 0 }
  | .br o => some { space := .s, word := 0x80000000 + o.bits, hdr := 0, ext := 0 }
  | .brc o => some { space := .s, word := 0x82000000 + o.bits, hdr := 0, ext := 0 }
  | .brG o => some { space := .s, word := 0x84000000 + o.bits, hdr := 0, ext := 0 }
  | .jmp o => some { space := .s, word := 0x86000000 + o.bits, hdr := 0, ext := 0 }
  | .call o => some { space := .s, word := 0x88000000 + o.bits, hdr := 0, ext := 0 }
  | .ret o => some { space := .s, word := 0x8A000000 + o.bits, hdr := 0, ext := 0 }
  | .loop o => some { space := .s, word := 0x8C000000 + o.bits, hdr := 0, ext := 0 }
  | .loopr o => some { space := .s, word := 0x8E000000 + o.bits, hdr := 0, ext := 0 }
  | .setlc o => some { space := .s, word := 0x90000000 + o.bits, hdr := 0, ext := 0 }
  | .waitc o => some { space := .s, word := 0x94000000 + o.bits, hdr := 0, ext := 0 }
  | .trap o => some { space := .s, word := 0xA0000000 + o.bits, hdr := 0, ext := 0 }
  | .eret o => some { space := .s, word := 0xA2000000 + o.bits, hdr := 0, ext := 0 }
  | .halt o => some { space := .s, word := 0xA4000000 + o.bits, hdr := 0, ext := 0 }
  | .retire o => some { space := .s, word := 0xA6000000 + o.bits, hdr := 0, ext := 0 }
  | .mfs o => some { space := .s, word := 0xA8000000 + o.bits, hdr := 0, ext := 0 }
  | .mts o => some { space := .s, word := 0xAA000000 + o.bits, hdr := 0, ext := 0 }
  | .setfmt o => some { space := .s, word := 0xAC000000 + o.bits, hdr := 0, ext := 0 }
  | .chkS o => some { space := .s, word := 0xAE000000 + o.bits, hdr := 0, ext := 0 }
  | .xv2sN8 o => some { space := .s, word := 0xB0000000 + o.bits, hdr := 0, ext := 0 }
  | .xv2sI8 o => some { space := .s, word := 0xB2000000 + o.bits, hdr := 0, ext := 0 }
  | .xv2sN16 o => some { space := .s, word := 0xB4000000 + o.bits, hdr := 0, ext := 0 }
  | .xv2sI16 o => some { space := .s, word := 0xB6000000 + o.bits, hdr := 0, ext := 0 }
  | .xv2sN32 o => some { space := .s, word := 0xB8000000 + o.bits, hdr := 0, ext := 0 }
  | .xv2sI32 o => some { space := .s, word := 0xBA000000 + o.bits, hdr := 0, ext := 0 }
  | .xv2sN64 o => some { space := .s, word := 0xBC000000 + o.bits, hdr := 0, ext := 0 }
  | .xq2m o => some { space := .s, word := 0xBE000000 + o.bits, hdr := 0, ext := 0 }
  | .ldBI o => some { space := .s, word := 0xC0000000 + o.bits, hdr := 0, ext := 0 }
  | .ldBN o => some { space := .s, word := 0xC2000000 + o.bits, hdr := 0, ext := 0 }
  | .ldHI o => some { space := .s, word := 0xC4000000 + o.bits, hdr := 0, ext := 0 }
  | .ldHN o => some { space := .s, word := 0xC6000000 + o.bits, hdr := 0, ext := 0 }
  | .ldWI o => some { space := .s, word := 0xC8000000 + o.bits, hdr := 0, ext := 0 }
  | .ldWN o => some { space := .s, word := 0xCA000000 + o.bits, hdr := 0, ext := 0 }
  | .ldD o => some { space := .s, word := 0xCC000000 + o.bits, hdr := 0, ext := 0 }
  | .pref o => some { space := .s, word := 0xCE000000 + o.bits, hdr := 0, ext := 0 }
  | .stB o => some { space := .s, word := 0xD0000000 + o.bits, hdr := 0, ext := 0 }
  | .stH o => some { space := .s, word := 0xD2000000 + o.bits, hdr := 0, ext := 0 }
  | .stW o => some { space := .s, word := 0xD4000000 + o.bits, hdr := 0, ext := 0 }
  | .stD o => some { space := .s, word := 0xD6000000 + o.bits, hdr := 0, ext := 0 }
  | .stGB o => some { space := .s, word := 0xD8000000 + o.bits, hdr := 0, ext := 0 }
  | .stGH o => some { space := .s, word := 0xDA000000 + o.bits, hdr := 0, ext := 0 }
  | .stGW o => some { space := .s, word := 0xDC000000 + o.bits, hdr := 0, ext := 0 }
  | .stGD o => some { space := .s, word := 0xDE000000 + o.bits, hdr := 0, ext := 0 }
  | .fence o => some { space := .s, word := 0xE0000000 + o.bits, hdr := 0, ext := 0 }
  | .vadd o => some { space := .v, word := 0x02000000 + o.bits, hdr := o.h.val, ext := o.e.val }
  | .vsub o => some { space := .v, word := 0x04000000 + o.bits, hdr := o.h.val, ext := o.e.val }
  | .vmul o => some { space := .v, word := 0x06000000 + o.bits, hdr := o.h.val, ext := o.e.val }
  | .vfma o => some { space := .v, word := 0x08000000 + o.bits, hdr := o.h.val, ext := o.e.val }
  | .vfms o => some { space := .v, word := 0x0A000000 + o.bits, hdr := o.h.val, ext := o.e.val }
  | .vfnma o => some { space := .v, word := 0x0C000000 + o.bits, hdr := o.h.val, ext := o.e.val }
  | .vmax o => some { space := .v, word := 0x0E000000 + o.bits, hdr := o.h.val, ext := o.e.val }
  | .vmin o => some { space := .v, word := 0x10000000 + o.bits, hdr := o.h.val, ext := o.e.val }
  | .vabs o => some { space := .v, word := 0x12000000 + o.bits, hdr := o.h.val, ext := o.e.val }
  | .vneg o => some { space := .v, word := 0x14000000 + o.bits, hdr := o.h.val, ext := o.e.val }
  | .vclamp o => some { space := .v, word := 0x16000000 + o.bits, hdr := o.h.val, ext := o.e.val }
  | .vcmp o => some { space := .v, word := 0x18000000 + o.bits, hdr := o.h.val, ext := o.e.val }
  | .vsel o => some { space := .v, word := 0x1A000000 + o.bits, hdr := o.h.val, ext := o.e.val }
  | .vaddI o => some { space := .v, word := 0x20000000 + o.bits, hdr := o.h.val, ext := o.e.val }
  | .vsubI o => some { space := .v, word := 0x22000000 + o.bits, hdr := o.h.val, ext := o.e.val }
  | .vmulI o => some { space := .v, word := 0x24000000 + o.bits, hdr := o.h.val, ext := o.e.val }
  | .vand o => some { space := .v, word := 0x26000000 + o.bits, hdr := o.h.val, ext := o.e.val }
  | .vor o => some { space := .v, word := 0x28000000 + o.bits, hdr := o.h.val, ext := o.e.val }
  | .vxor o => some { space := .v, word := 0x2A000000 + o.bits, hdr := o.h.val, ext := o.e.val }
  | .vshl o => some { space := .v, word := 0x2C000000 + o.bits, hdr := o.h.val, ext := o.e.val }
  | .vshr o => some { space := .v, word := 0x2E000000 + o.bits, hdr := o.h.val, ext := o.e.val }
  | .vsra o => some { space := .v, word := 0x30000000 + o.bits, hdr := o.h.val, ext := o.e.val }
  | .vminInt o => some { space := .v, word := 0x32000000 + o.bits, hdr := o.h.val, ext := o.e.val }
  | .vmaxInt o => some { space := .v, word := 0x34000000 + o.bits, hdr := o.h.val, ext := o.e.val }
  | .vcmpI o => some { space := .v, word := 0x36000000 + o.bits, hdr := o.h.val, ext := o.e.val }
  | .vcvt o => some { space := .v, word := 0x40000000 + o.bits, hdr := o.h.val, ext := o.e.val }
  | .vcvtSr o => some { space := .v, word := 0x42000000 + o.bits, hdr := o.h.val, ext := o.e.val }
  | .vpackMx o => some { space := .v, word := 0x44000000 + o.bits, hdr := o.h.val, ext := o.e.val }
  | .vunpkMx o => some { space := .v, word := 0x46000000 + o.bits, hdr := o.h.val, ext := o.e.val }
  | .vexp2 o => some { space := .v, word := 0x50000000 + o.bits, hdr := o.h.val, ext := o.e.val }
  | .vlog2 o => some { space := .v, word := 0x52000000 + o.bits, hdr := o.h.val, ext := o.e.val }
  | .vrcp o => some { space := .v, word := 0x54000000 + o.bits, hdr := o.h.val, ext := o.e.val }
  | .vrsq o => some { space := .v, word := 0x56000000 + o.bits, hdr := o.h.val, ext := o.e.val }
  | .vtanh o => some { space := .v, word := 0x58000000 + o.bits, hdr := o.h.val, ext := o.e.val }
  | .vrsum o => some { space := .v, word := 0x60000000 + o.bits, hdr := o.h.val, ext := o.e.val }
  | .vrmax o => some { space := .v, word := 0x62000000 + o.bits, hdr := o.h.val, ext := o.e.val }
  | .vrmin o => some { space := .v, word := 0x64000000 + o.bits, hdr := o.h.val, ext := o.e.val }
  | .vperm o => some { space := .v, word := 0x70000000 + o.bits, hdr := o.h.val, ext := o.e.val }
  | .vtrn o => some { space := .v, word := 0x72000000 + o.bits, hdr := o.h.val, ext := o.e.val }
  | .vzip o => some { space := .v, word := 0x74000000 + o.bits, hdr := o.h.val, ext := o.e.val }
  | .vuzp o => some { space := .v, word := 0x76000000 + o.bits, hdr := o.h.val, ext := o.e.val }
  | .vrot o => some { space := .v, word := 0x78000000 + o.bits, hdr := o.h.val, ext := o.e.val }
  | .vbcst o => some { space := .v, word := 0x7A000000 + o.bits, hdr := o.h.val, ext := o.e.val }
  | .vstatW o => some { space := .v, word := 0x80000000 + o.bits, hdr := o.h.val, ext := o.e.val }
  | .vstatR o => some { space := .v, word := 0x82000000 + o.bits, hdr := o.h.val, ext := o.e.val }
  | .vmom o => some { space := .v, word := 0x84000000 + o.bits, hdr := o.h.val, ext := o.e.val }
  | .vnorm o => some { space := .v, word := 0x86000000 + o.bits, hdr := o.h.val, ext := o.e.val }
  | .vsmax o => some { space := .v, word := 0x88000000 + o.bits, hdr := o.h.val, ext := o.e.val }
  | .vbfacc o => some { space := .v, word := 0x90000000 + o.bits, hdr := o.h.val, ext := o.e.val }
  | .vbfexp o => some { space := .v, word := 0x92000000 + o.bits, hdr := o.h.val, ext := o.e.val }
  | .vpprob o => some { space := .v, word := 0x98000000 + o.bits, hdr := o.h.val, ext := o.e.val }
  | .vq8 o => some { space := .v, word := 0x9A000000 + o.bits, hdr := o.h.val, ext := o.e.val }
  | .vld o => some { space := .v, word := 0xA0000000 + o.bits, hdr := o.h.val, ext := o.e.val }
  | .vst o => some { space := .v, word := 0xA2000000 + o.bits, hdr := o.h.val, ext := o.e.val }
  | .vstM o => some { space := .v, word := 0xA4000000 + o.bits, hdr := o.h.val, ext := o.e.val }
  | .vldb o => some { space := .v, word := 0xA6000000 + o.bits, hdr := o.h.val, ext := o.e.val }
  | .vmov o => some { space := .v, word := 0xB0000000 + o.bits, hdr := o.h.val, ext := o.e.val }
  | .vli o => some { space := .v, word := 0xB2000000 + o.bits, hdr := o.h.val, ext := o.e.val }
  | .xs2v o => some { space := .v, word := 0xB4000000 + o.bits, hdr := o.h.val, ext := o.e.val }
  | .xm2q o => some { space := .v, word := 0xB6000000 + o.bits, hdr := o.h.val, ext := o.e.val }
  | .chkV o => some { space := .v, word := 0xB8000000 + o.bits, hdr := o.h.val, ext := o.e.val }
  | .xmvm o => some { space := .t, word := 0x02000000 + o.bits, hdr := 0, ext := o.e.val }
  | .xmvt o => some { space := .t, word := 0x04000000 + o.bits, hdr := 0, ext := o.e.val }
  | .xupdA o => some { space := .t, word := 0x06000000 + o.bits, hdr := 0, ext := o.e.val }
  | .xupdC o => some { space := .t, word := 0x06002000 + o.bits, hdr := 0, ext := o.e.val }
  | .xupdD o => some { space := .t, word := 0x08000000 + o.bits, hdr := 0, ext := o.e.val }
  | .xfer o => some { space := .t, word := 0x0A000000 + o.bits, hdr := 0, ext := o.e.val }
  | .xferR o => some { space := .t, word := 0x0A002000 + o.bits, hdr := 0, ext := o.e.val }
  | .xrst o => some { space := .t, word := 0x0C000000 + o.bits, hdr := 0, ext := o.e.val }
  | .xrstAll o => some { space := .t, word := 0x0C002000 + o.bits, hdr := 0, ext := o.e.val }
  | .xsymCal o => some { space := .t, word := 0x0E000000 + o.bits, hdr := 0, ext := o.e.val }
  | .xsymLd o => some { space := .t, word := 0x10000000 + o.bits, hdr := 0, ext := o.e.val }
  | .xsymSt o => some { space := .t, word := 0x12000000 + o.bits, hdr := 0, ext := o.e.val }
  | .xget o => some { space := .t, word := 0x14000000 + o.bits, hdr := 0, ext := o.e.val }
  | .xcfgW o => some { space := .t, word := 0x16000000 + o.bits, hdr := 0, ext := o.e.val }
  | .xcfgR o => some { space := .t, word := 0x16002000 + o.bits, hdr := 0, ext := o.e.val }
  | .xcfgWa o => some { space := .t, word := 0x16004000 + o.bits, hdr := 0, ext := o.e.val }
  | .xcfgRa o => some { space := .t, word := 0x16006000 + o.bits, hdr := 0, ext := o.e.val }
  | .xcfgWc o => some { space := .t, word := 0x16008000 + o.bits, hdr := 0, ext := o.e.val }
  | .xcfgRc o => some { space := .t, word := 0x1600A000 + o.bits, hdr := 0, ext := o.e.val }
  | .xmodeN o => some { space := .t, word := 0x18000000 + o.bits, hdr := 0, ext := o.e.val }
  | .xmodeR o => some { space := .t, word := 0x18002000 + o.bits, hdr := 0, ext := o.e.val }
  | .xstat o => some { space := .t, word := 0x1A000000 + o.bits, hdr := 0, ext := o.e.val }
  | .xstatPc o => some { space := .t, word := 0x1A002000 + o.bits, hdr := 0, ext := o.e.val }
  | .xwait o => some { space := .t, word := 0x1C000000 + o.bits, hdr := 0, ext := o.e.val }
  | .mxld o => some { space := .t, word := 0x20000000 + o.bits, hdr := 0, ext := o.e.val }
  | .mxldR o => some { space := .t, word := 0x20000000 + o.bits, hdr := 0, ext := o.e.val }
  | .mma o => some { space := .t, word := 0x22000000 + o.bits, hdr := 0, ext := o.e.val }
  | .mmaz o => some { space := .t, word := 0x24000000 + o.bits, hdr := 0, ext := o.e.val }
  | .mmag o => some { space := .t, word := 0x26000000 + o.bits, hdr := 0, ext := o.e.val }
  | .mxrd o => some { space := .t, word := 0x28000000 + o.bits, hdr := 0, ext := o.e.val }
  | .mxwr o => some { space := .t, word := 0x2A000000 + o.bits, hdr := 0, ext := o.e.val }
  | .mxclr o => some { space := .t, word := 0x2C000000 + o.bits, hdr := 0, ext := o.e.val }
  | .cpy o => some { space := .t, word := 0x30000000 + o.bits, hdr := 0, ext := o.e.val }
  | .cpyw o => some { space := .t, word := 0x32000000 + o.bits, hdr := 0, ext := o.e.val }
  | .fill o => some { space := .t, word := 0x34000000 + o.bits, hdr := 0, ext := o.e.val }
  | .gath o => some { space := .t, word := 0x36000000 + o.bits, hdr := 0, ext := o.e.val }
  | .barInit o => some { space := .t, word := 0x40000000 + o.bits, hdr := 0, ext := o.e.val }
  | .barExp o => some { space := .t, word := 0x42000000 + o.bits, hdr := 0, ext := o.e.val }
  | .barArr o => some { space := .t, word := 0x44000000 + o.bits, hdr := 0, ext := o.e.val }
  | .barWait o => some { space := .t, word := 0x46000000 + o.bits, hdr := 0, ext := o.e.val }
  | .barTest o => some { space := .t, word := 0x48000000 + o.bits, hdr := 0, ext := o.e.val }
  | .chset o => some { space := .t, word := 0x4A000000 + o.bits, hdr := 0, ext := o.e.val }
  | .bankAcq o => some { space := .t, word := 0x4C000000 + o.bits, hdr := 0, ext := o.e.val }
  | .bankRel o => some { space := .t, word := 0x4E000000 + o.bits, hdr := 0, ext := o.e.val }
  | .beadRecv o => some { space := .t, word := 0x50000000 + o.bits, hdr := 0, ext := o.e.val }
  | .beadSend o => some { space := .t, word := 0x52000000 + o.bits, hdr := 0, ext := o.e.val }
  | .beadDone o => some { space := .t, word := 0x54000000 + o.bits, hdr := 0, ext := o.e.val }
  | .beadHdr o => some { space := .t, word := 0x56000000 + o.bits, hdr := 0, ext := o.e.val }
  | .rngSeed o => some { space := .t, word := 0x60000000 + o.bits, hdr := 0, ext := o.e.val }
  | .dupS o => some { space := .t, word := 0x62000000 + o.bits, hdr := 0, ext := o.e.val }
  | .header o => some { space := .s, word := 0xF0000000 + o.bits, hdr := 0, ext := 0 }
  | .unassignedOpcode o =>
    some { space := if o.slot.val = 0 then .s else if o.slot.val = 3 then .t else .v, word := o.word.val,
           hdr := o.h.val, ext := o.e.val }
  | _ => none

/-- The 32 bits of an instruction's slot word; 0 for a step of another unit. -/
def slotWordOf (i : Instr) : Nat := ((encode i).map (·.word)).getD 0

end Sys2Proof
end

