-- ==== Sys2Proof/WellFormed.lean ====
section
/-! DEFINITION. The operand limits of each instruction (R87, R90 to R95 and each instruction's own rule).

legal is what a slot checks at decode after its opcode and reserved fields; extOk is the header check that an extension
byte sets only bits its slot's format uses (R87). Limits that depend on the machine's state are checked at issue. -/

namespace Sys2Proof

/-- MOD, the upper two bits of a VA extension byte (R93). -/
def extMod (e : Fin 256) : Nat := e.val / 64

/-- C, the lower six bits of a VA extension byte (R93). -/
def extC (e : Fin 256) : Nat := e.val % 64

/-- An S or T guard with N = 1 names a predicate other than q0 (R90). -/
def guardOk (n : Fin 2) (g : Fin 16) : Bool := n.val == 0 || g.val != 0

/-- The slot has no lane guard (R91, R204). -/
def noLane (g : Fin 16) : Bool := g.val == 0 || g.val >= 8

/-- A V word has extension bits only under a header (R88). -/
def extHdr (h : Fin 2) (e : Fin 256) : Bool := h.val == 1 || e.val == 0

/-- Float F codes: 0 is .bf and 1 is .f (R93). -/
def fltF (f : Fin 8) : Bool := f.val < 2

/-- The width in bits of a VCVT format code (R211). -/
def cvtWidth (c : Nat) : Nat :=
  match c with
  | 0 => 16 | 1 => 32 | 2 => 8 | 3 => 16 | 4 => 32 | 5 => 8 | 6 => 16 | _ => 32

/-- The limits of a conversion: two different formats and a part below the width ratio (R211). -/
def cvtOk (s t p : Nat) : Bool :=
  s != t && p < Nat.max (cvtWidth s) (cvtWidth t) / Nat.min (cvtWidth s) (cvtWidth t)

/-- The special registers of R25. -/
def specIndex (i : Nat) : Bool :=
  [0x00, 0x01, 0x02, 0x03, 0x05, 0x08, 0x09, 0x0A, 0x0B, 0x0C, 0x0D, 0x0E, 0x0F, 0x10, 0x11].contains i ||
    (0x20 ≤ i && i ≤ 0x27) || (0x40 ≤ i && i ≤ 0x5F)

/-- An FMT value without reserved bits or reserved codes (R66, R67). -/
def fmtOk (v : Nat) : Bool :=
  v < 0x20000 && v / 8192 % 8 == 0 && v / 1024 % 4 == 0 && v / 64 % 4 == 0 && v / 256 % 4 < 2 && v / 8 % 8 < 4 &&
    v % 8 < 4

/-- The S opcodes that DUP.S may run in SA form (R116). -/
def dupSa (fn : Nat) : Bool := 1 ≤ fn && fn ≤ 18

/-- The S opcodes that DUP.S may run in SI form (R116). -/
def dupSi (fn : Nat) : Bool := [33, 35, 36, 37, 39, 40, 41, 42, 45, 46, 47, 48].contains fn

/-- The part of a two-part operand: MOD is 0 or 1 (R213, R214, R224). -/
def mod01 (e : Fin 256) : Bool := extMod e < 2

/-- The limits of a slot's operands (R92 to R95 and the instruction's own rule); a step of another unit has none. DESIGN CHOICE: a nonzero
MOD where the rule of an instruction names no use of it (VPERM and VMOV, MOD with VBFEXP.bf and MOD[1] with VBFEXP.f) is ILLEGAL like a
reserved one (R217, R225, R232; log 70). -/
def legal (i : Instr) : Bool :=
  match i with
  | .nop => true
  | .add o | .sub o | .and o | .or o | .xor o | .andn o | .shl o | .shr o | .sra o | .mul o | .mulhI o | .mulhN o
  | .minI o | .minN o | .maxI o | .maxN o => guardOk o.n o.g
  | .clz o | .popc o => guardOk o.n o.g
  | .sel _ => true
  | .amoAdd o | .amoMinI o | .amoMinN o | .amoMaxI o | .amoMaxN o | .amoAnd o | .amoOr o | .amoXor o | .amoXchg o
  | .amoCas o => o.s.val < 12
  | .addi o | .andi o | .ori o | .xori o | .muli o | .miniI o | .miniN o | .maxiI o | .maxiN o => guardOk o.n o.g
  | .shli o | .shri o | .srai o => guardOk o.n o.g
  | .ldi _ | .ldhi _ => true
  | .cmp o => guardOk o.n o.g && o.c.val < 6
  | .cmpi o => guardOk o.n o.g && o.c.val < 6
  | .pand o | .por o | .pxor o => guardOk o.n o.g
  | .pnot o => guardOk o.n o.g
  | .br o | .brG o | .loop o => guardOk o.n o.g
  | .brc o => guardOk o.n o.g && (o.x.val == 0 || o.q.val != 0)
  | .jmp o | .ret o | .setlc o | .waitc o | .chkS o => guardOk o.n o.g
  | .call o => guardOk o.n o.g
  | .loopr o => guardOk o.n o.g
  | .trap o => guardOk o.n o.g
  | .eret o | .halt o | .retire o => guardOk o.n o.g
  | .mfs o => guardOk o.n o.g && specIndex o.i.val
  | .mts o => guardOk o.n o.g && specIndex o.i.val
  | .setfmt o => fmtOk o.i.val
  | .xv2sN8 o | .xv2sI8 o => guardOk o.n o.g && o.i.val < 128
  | .xv2sN16 o | .xv2sI16 o => guardOk o.n o.g && o.i.val < 64
  | .xv2sN32 o | .xv2sI32 o => guardOk o.n o.g && o.i.val < 32
  | .xv2sN64 o => guardOk o.n o.g && o.i.val < 16
  | .xq2m o => guardOk o.n o.g && o.d.val < 8 && o.b.val < 16
  | .ldBI o | .ldBN o | .ldHI o | .ldHN o | .ldWI o | .ldWN o | .ldD o | .stB o | .stH o | .stW o | .stD o | .stGB o
  | .stGH o | .stGW o | .stGD o => guardOk o.n o.g
  | .pref o => guardOk o.n o.g
  | .fence o => guardOk o.n o.g && o.k.val != 0 && 1 ≤ o.s.val && o.s.val < 13
  | .vadd o | .vsub o | .vmul o | .vmax o | .vmin o => extHdr o.h o.e && fltF o.f && o.e.val == 0
  | .vfma o | .vfms o | .vfnma o | .vclamp o => extHdr o.h o.e && fltF o.f && extMod o.e == 0
  | .vabs o | .vneg o | .vexp2 o | .vlog2 o | .vrcp o | .vrsq o | .vtanh o | .vrsum o | .vrmax o | .vrmin o =>
    extHdr o.h o.e && fltF o.f && o.e.val == 0
  | .vcmp o => fltF o.f && o.c.val < 7
  | .vcmpI o => o.c.val < 6
  | .vsel o => extHdr o.h o.e && extC o.e == 0
  | .vaddI o | .vsubI o => extHdr o.h o.e && extC o.e == 0 && extMod o.e < 3
  | .vmulI o | .vand o | .vor o | .vxor o | .vshl o | .vshr o | .vsra o => extHdr o.h o.e && o.e.val == 0
  | .vminInt o | .vmaxInt o => extHdr o.h o.e && o.e.val == 0
  | .vcvt o => extHdr o.h o.e && extC o.e == 0 && o.f.val < 3 && cvtOk o.s.val o.t.val (extMod o.e)
  | .vcvtSr o => extHdr o.h o.e && extC o.e == 0 && o.s.val < 2 && cvtOk o.s.val o.t.val (extMod o.e)
  | .vpackMx o => extHdr o.h o.e && noLane o.g && extC o.e == 0 && o.f.val % 4 != 0 && (extMod o.e % 2 == 1 || o.b.val == 0)
  | .vunpkMx o => extHdr o.h o.e && noLane o.g && extC o.e == 0 && o.f.val % 4 != 0 &&
      (if o.f.val < 4 then extMod o.e == 0 else mod01 o.e)
  | .vperm o => extHdr o.h o.e && o.e.val == 0
  | .vzip o | .vuzp o => extHdr o.h o.e && extC o.e == 0 && mod01 o.e
  | .vrot o => extHdr o.h o.e && extC o.e == 0 && mod01 o.e
  | .vbcst o => extHdr o.h o.e && extC o.e == 0 && mod01 o.e && extMod o.e * 64 + o.u.val < 128 / 2 ^ o.f.val
  | .vtrn o => extHdr o.h o.e && noLane o.g && o.e.val == 0 && o.d.val % 8 == 0 && o.a.val % 8 == 0
  | .vstatW o => extHdr o.h o.e && noLane o.g && extC o.e == 0 && mod01 o.e
  | .vstatR o => extHdr o.h o.e && noLane o.g && extC o.e == 0 && mod01 o.e
  | .vmom o => extHdr o.h o.e && fltF o.f && extC o.e == 0 && mod01 o.e
  | .vnorm o | .vsmax o => extHdr o.h o.e && fltF o.f && o.e.val == 0
  | .vbfacc o => extHdr o.h o.e && noLane o.g && fltF o.f && extC o.e == 0 && o.d.val % 2 == 0 &&
      (if o.f.val == 0 then extMod o.e == 0 else mod01 o.e)
  | .vbfexp o => extHdr o.h o.e && noLane o.g && fltF o.f && extC o.e == 0 && o.a.val % 2 == 0 &&
      (if o.f.val == 0 then extMod o.e == 0 else mod01 o.e)
  | .vpprob o => extHdr o.h o.e && noLane o.g && extC o.e == 0 && mod01 o.e
  | .vq8 o => extHdr o.h o.e && noLane o.g && fltF o.f && extC o.e == 0 && (o.f.val == 1 || mod01 o.e)
  | .vld o | .vst o => extHdr o.h o.e && noLane o.g
  | .vstM o => extHdr o.h o.e && noLane o.g
  | .vldb o => extHdr o.h o.e && noLane o.g
  | .vmov o => extHdr o.h o.e && o.e.val == 0
  | .xs2v o => extHdr o.h o.e && o.e.val == 0
  | .xm2q o => extHdr o.h o.e && o.e.val == 0 && noLane o.g && o.d.val < 16 && o.a.val < 8
  | .vli o => extHdr o.h o.e
  | .chkV o => extHdr o.h o.e && noLane o.g && o.e.val == 0
  | .xmvm o | .xmvt o => guardOk o.n o.g
  | .xupdA o | .xupdC o | .xupdD o => guardOk o.n o.g && o.e.val % 64 != 0
  | .xfer o | .xferR o => guardOk o.n o.g && o.e.val % 64 != 0
  | .xrst o | .xsymLd o | .xsymSt o | .xcfgW o | .xcfgR o | .xcfgWa o | .xcfgRa o | .xcfgWc o | .xcfgRc o => guardOk o.n o.g
  | .xrstAll o | .xsymCal o | .xmodeR o | .xwait o => guardOk o.n o.g
  | .xmodeN o => guardOk o.n o.g
  | .xget o => guardOk o.n o.g
  | .xstat o | .xstatPc o => guardOk o.n o.g
  | .mxld o => guardOk o.n o.g
  | .mxldR o => guardOk o.n o.g
  | .mma o | .mmaz o => guardOk o.n o.g && o.m.val < 5
  | .mmag o => guardOk o.n o.g && o.m.val < 5
  | .mxrd o | .mxwr o => guardOk o.n o.g && o.k.val < 3
  | .mxclr o => guardOk o.n o.g
  | .cpy o | .cpyw o | .fill o | .gath o | .chset o => guardOk o.n o.g && o.d.val < 8
  | .barInit o | .barExp o | .barArr o | .barWait o | .beadSend o => guardOk o.n o.g
  | .barTest o => guardOk o.n o.g
  | .bankAcq o | .bankRel o | .beadDone o | .rngSeed o => guardOk o.n o.g
  | .beadRecv o => guardOk o.n o.g
  | .beadHdr o => guardOk o.n o.g && o.b.val < 8
  | .dupS o => guardOk o.n o.g && (if dupSa o.f.val then (o.f.val < 17 || o.b.val == 0)
      else dupSi o.f.val && o.b.val == 0 && ((o.f.val < 39 || 41 < o.f.val) || o.e.val < 64))
  | .unassignedOpcode _ => false
  | _ => true

/-- The extension byte sets only bits that the slot's format uses (R87, R93, R94). -/
def extOk (i : Instr) : Bool :=
  match i with
  | .vcmp o | .vcmpI o => o.e.val == 0
  | .xupdA o | .xupdC o | .xupdD o => o.e.val < 64
  | .xfer o | .xferR o => o.e.val < 64
  | .mxld o => o.e.val == 0
  | .mxldR o => o.e.val == 1
  | .dupS o => !dupSa o.f.val || o.e.val == 0
  | .xmvm o | .xmvt o => o.e.val == 0
  | .xrst o | .xsymLd o | .xsymSt o | .xcfgW o | .xcfgR o | .xcfgWa o | .xcfgRa o | .xcfgWc o | .xcfgRc o => o.e.val == 0
  | .xrstAll o | .xsymCal o | .xmodeR o | .xwait o => o.e.val == 0
  | .xmodeN o => o.e.val == 0
  | .xget o => o.e.val == 0
  | .xstat o | .xstatPc o => o.e.val == 0
  | .mma o | .mmaz o => o.e.val == 0
  | .mmag o => o.e.val == 0
  | .mxrd o | .mxwr o => o.e.val == 0
  | .mxclr o => o.e.val == 0
  | .cpy o | .cpyw o | .fill o | .gath o | .chset o | .barTest o => o.e.val == 0
  | .barInit o | .barExp o | .barArr o | .barWait o | .beadSend o => o.e.val == 0
  | .bankAcq o | .bankRel o | .beadDone o | .rngSeed o => o.e.val == 0
  | .beadRecv o => o.e.val == 0
  | .beadHdr o => o.e.val == 0
  | _ => true

/-- A well-formed instruction: its operands are legal and its extension byte fits its format. -/
def Instr.wf (i : Instr) : Bool := legal i && extOk i

end Sys2Proof
end

