-- ==== Sys2Proof/Machine/Ops.lean ====
section
/-! DEFINITION. Named operations over the state: tiles, registers, addresses, time, events, and taking and leaving a trap. -/

namespace Sys2Proof.Machine

/-- The outcome of a meaning. -/
abbrev Out := Host.Outcome State Fault Refusal

/-! ## Tiles, dies and free values -/

/-- A tile by number. -/
def State.tile (s : State) (t : Nat) : Tile := if t = s.self then s.core else mget Tile.reset s.others t

/-- The state with a tile replaced. -/
def State.setTile (s : State) (t : Nat) (x : Tile) : State :=
  if t = s.self then { s with core := x } else { s with others := mset s.others t x }

/-- The state with a change made to a tile. -/
def State.onTile (s : State) (t : Nat) (f : Tile → Tile) : State := s.setTile t (f (s.tile t))

/-- The state with a change made to the tile in focus. -/
def State.onCore (s : State) (f : Tile → Tile) : State := { s with core := f s.core }

/-- A compute die. -/
def State.die (s : State) (d : Nat) : Die := mget Die.reset s.dies d

/-- The state with a die replaced. -/
def State.setDie (s : State) (d : Nat) (x : Die) : State := { s with dies := mset s.dies d x }

/-- The state with a change made to a die. -/
def State.onDie (s : State) (d : Nat) (f : Die → Die) : State := s.setDie d (f (s.die d))

/-- A work queue by its number in the module (R464). -/
def State.queue (s : State) (q : Nat) : Queue := mget Queue.reset (s.die (q / 1024)).queues (q % 1024)

/-- The state with a work queue replaced. -/
def State.setQueue (s : State) (q : Nat) (x : Queue) : State :=
  s.onDie (q / 1024) (fun d => { d with queues := mset d.queues (q % 1024) x })

/-- A stage entry of a die. -/
def State.stage (s : State) (d i : Nat) : Stage := mget Stage.reset (s.die d).stages i

/-- The state with a stage entry replaced. -/
def State.setStage (s : State) (d i : Nat) (x : Stage) : State :=
  s.onDie d (fun y => { y with stages := mset y.stages i x })

/-- The state with a change made to the hub dies. -/
def State.onHub (s : State) (f : Hub → Hub) : State := { s with hub := f s.hub }

/-- The state with a clasped machine's registers replaced. -/
def State.setClasp (s : State) (x : Nat) (c : Clasp) : State := s.onHub (fun h => { h with clasps := mset h.clasps x c })

/-- An operand of the unit step being made (log A17). -/
def State.arg (s : State) (i : Nat) : Nat := s.args.getD i 0

/-- A fresh free choice (log A16). -/
def State.freeBit (s : State) : Bool × State := (Config.freeBool s.free, { s with free := s.free + 1 })

/-! ## Fields of the status and special registers -/

/-- A special register's field. -/
def fld (x : Word) (lo w : Nat) : Nat := bits x.toNat lo w

/-- A word with a field replaced. -/
def setFld (x : Word) (lo w v : Nat) : Word := BitVec.ofNat 64 (setBits x.toNat lo w v)

/-- TSTAT.SUP: supervisor level (R28). -/
def Tile.sup (t : Tile) : Bool := fld t.spr.tstat 0 1 == 1

/-- TSTAT.INREG: inside a region (R28). -/
def Tile.inreg (t : Tile) : Bool := fld t.spr.tstat 2 1 == 1

/-- The special registers of a tile changed. -/
def Tile.onSpr (t : Tile) (f : Spr → Spr) : Tile := { t with spr := f t.spr }

/-- The register files of a tile changed. -/
def Tile.onRegs (t : Tile) (f : Regs → Regs) : Tile := { t with regs := f t.regs }

/-- The task of a tile changed. -/
def Tile.onTask (t : Tile) (f : Task → Task) : Tile := { t with task := f t.task }

/-- RBQS as MFS reads it (R35). -/
def Rng.rbqs (r : Rng) : Word := BitVec.ofNat 64 (r.gen % 2 ^ 56 * 256 + b2n r.run * 32 + r.count % 32)

/-- The rounding mode that FMT.RM selects (R61, R66). -/
def rmOf (fmt : Word) : Rm := if fld fmt 8 2 = 1 then .rtz else .rne

/-- FMT.SAT (R62, R66). -/
def satOf (fmt : Word) : Bool := fld fmt 12 1 == 1

/-! ## Registers -/

/-- The physical scalar register of a logical name (R18). -/
def physS (rotw : Word) (n : Nat) : Nat := if n < 48 then n else 48 + ((n - 48) + 16 - fld rotw 0 4) % 16

/-- The physical predicate of a logical name (R18). -/
def physQ (rotw : Word) (n : Nat) : Nat := if n < 8 then n else 8 + ((n - 8) + 8 - fld rotw 8 3) % 8

/-- The physical vector register of a logical name (R18). -/
def physV (rotw : Word) (n : Nat) : Nat := if n < 32 then n else 32 + ((n - 32) + 32 - fld rotw 16 5) % 32

/-- sreg(n): s0 reads zero (R17, R50). -/
def Tile.sreg (t : Tile) (n : Nat) : Word := if n = 0 then 0 else t.regs.s.getD (physS t.spr.rotw n) 0

/-- pred(n): q0 reads true (R17, R50). -/
def Tile.pred (t : Tile) (n : Nat) : Bool := n == 0 || t.regs.q.getD (physQ t.spr.rotw n) false

/-- vector register n. -/
def Tile.vreg (t : Tile) (n : Nat) : VWord := t.regs.v.getD (physV t.spr.rotw n) 0

/-- mask(n). -/
def Tile.mask (t : Tile) (n : Nat) : Word := t.regs.m.getD n 0

/-- A physical scalar register written; s0 discards (R17). -/
def Regs.setS (r : Regs) (p : Nat) (v : Word) : Regs :=
  if p = 0 then r else { r with s := r.s.setIfInBounds p v, pois := r.pois.filter (· != p) }

/-- A physical predicate written; q0 discards (R17). -/
def Regs.setQ (r : Regs) (p : Nat) (v : Bool) : Regs := if p = 0 then r else { r with q := r.q.setIfInBounds p v }

/-- A physical vector register written. -/
def Regs.setV (r : Regs) (p : Nat) (v : VWord) : Regs :=
  { r with v := r.v.setIfInBounds p v, pois := r.pois.filter (· != 64 + p) }

/-- A physical vector register written in part: what was poisoned stays so (R231, R328; log 67). -/
def Regs.setPart (r : Regs) (p : Nat) (v : VWord) : Regs := { r with v := r.v.setIfInBounds p v }

/-- The 1,024 bits that a vector enable word enables: bit k enables bytes 2k and 2k + 1 (R400). -/
def enBits (en : Word) : VWord :=
  BitVec.ofNat 1024 (packFields 16 (fun k => if bit en.toNat k then 65535 else 0) 64)

/-- A vector value with the enabled parts of another (R114, R400). -/
def mergeV (old : VWord) (en : Word) (v : VWord) : VWord :=
  if en = BitVec.allOnes 64 then v else (old &&& ~~~(enBits en)) ||| (v &&& enBits en)

/-- The accumulator elements of the rows in a row mask replaced (R269, R399). -/
def setAccRows (a : Vector (BitVec 32) 512) (n rows : Nat) (vs : List (BitVec 32)) : Vector (BitVec 32) 512 :=
  (List.range 64).foldl (fun a i => if bit rows (i / 8) then a.setIfInBounds (64 * n + i) (vs.getD i 0) else a) a

/-- What one landing does to the tile when it lands (R51). -/
def Tile.applyLand (t : Tile) (l : Land) : Tile :=
  match l with
  | .sreg n v => t.onRegs (fun r => r.setS n v)
  | .pred n v => t.onRegs (fun r => r.setQ n v)
  | .mask n en v =>
    t.onRegs (fun r => { r with m := r.m.setIfInBounds n ((r.m.getD n 0 &&& ~~~en) ||| (v &&& en)) })
  | .vec n en v =>
    t.onRegs (fun r => if en = BitVec.allOnes 64 then r.setV n v else r.setPart n (mergeV (r.v.getD n 0) en v))
  | .pair n0 n1 v0 v1 => t.onRegs (fun r => (r.setV n0 v0).setV n1 v1)
  | .octet ns vs => t.onRegs (fun r => (ns.zip vs).foldl (fun r p => r.setV p.1 p.2) r)
  | .acc n rows vs _ => t.onRegs (fun r => { r with acc := setAccRows r.acc n rows vs })
  | .fmt v => t.onSpr (fun p => { p with fmt := v })
  | .twinS v => t.onRegs (fun r => { r with twinS := v })
  | .twinV en v => t.onRegs (fun r => { r with twinV := mergeV r.twinV en v })
  | .twinM en v =>
    t.onRegs (fun r => { r with twinV := ((r.twinV.setWidth 64 &&& ~~~en) ||| (v &&& en)).setWidth 1024 })

/-- The registers that a landing writes, as Regs.pois names them, and whether it writes them whole. -/
def Land.keys (l : Land) : List Nat × Bool :=
  match l with
  | .sreg n _ => (if n = 0 then [] else [n], true)
  | .pred n _ => (if n = 0 then [] else [144 + n], true)
  | .mask n en _ => ([128 + n], en = BitVec.allOnes 64)
  | .vec n en _ => ([64 + n], en = BitVec.allOnes 64)
  | .pair n0 n1 _ _ => ([64 + n0, 64 + n1], true)
  | .octet ns _ => (ns.map (64 + ·), true)
  | .acc n rows _ _ => ([136 + n], rows = 255)
  | .fmt _ => ([], true)
  | .twinS _ => ([160], true)
  | .twinV en _ => ([161], en = BitVec.allOnes 64)
  | .twinM _ _ => ([161], false)

/-- The registers of a list marked as poisoned, or as good (R328; log 67). -/
def Tile.mark (t : Tile) (ks : List Nat) (bad : Bool) : Tile :=
  t.onRegs (fun r => { r with pois := if bad then ks.foldl (fun l k => insertNat k l) r.pois else r.pois.filter (fun k => !ks.contains k) })

/-- A result in flight lands with its poison: good data that fills a register ends its mark, in part they leave it (R51, R328; log 67). -/
def Tile.landed (t : Tile) (x : Landing) : Tile :=
  let t := t.applyLand x.what
  let (ks, whole) := x.what.keys
  if x.pois || (whole && t.regs.pois != []) then t.mark ks x.pois else t

/-- One issued bundle passes over the results in flight: distances fall, those that reach 0 land in issue order (R51,
R100). -/
def Tile.advance (t : Tile) : Tile :=
  let fl := t.flight.map (fun x => { x with d := x.d - 1, j := x.j + 1 })
  let t := { t with flight := fl.filter (fun x => x.d != 0) }
  (fl.filter (fun x => x.d == 0)).foldl (fun t x => if x.live then t.landed x else t) t

/-! ## Readiness and events -/

/-- The die of a tile. -/
def tileDie (t : Nat) : Nat := t / 64

/-- The depth of a ring from its LDEP field (R363, R466). -/
def depthOf (cfg : Word) : Nat := 2 ^ (fld cfg 0 4 + 4)

/-- Word 0 of an event record (R468). -/
def evW0 (code die q tag : Nat) : Nat := code + die * 256 + q * 4096 + tag * 2 ^ 32

/-- The words of a fault record (R348). -/
def FRec.words (r : FRec) : List Nat :=
  [r.dia + r.cls * 2 ^ 52 + (if r.cls = 1 then r.tgt else 0) * 2 ^ 55, r.va,
   r.seq * 2 ^ 48 + r.reason * 2 ^ 44 + r.acc * 2 ^ 40 + r.agent * 2 ^ 36 + r.ch * 2 ^ 32 + r.tile * 16 + r.die, r.gtc]

/-- An access that faults, for its record: class, target, DIA, address, reason, access kind, agent, channel, tile, die. -/
structure FReq where
  cls : Nat
  tgt : Nat
  dia : Nat
  va : Nat
  reason : Nat
  acc : Nat
  agent : Nat
  ch : Nat
  tile : Nat
  die : Nat

/-- The size of the page on which an access faults: that of the leaf that denies it, and 64 KiB where there is no leaf (R343, R348;
log 48). -/
def faultPage (s : State) (m : Nat) (r : FReq) : Nat :=
  if r.reason = 2 then (match walk s m r.cls r.dia with | (.leaf _ z _ _, _, _) => z | _ => 65536) else 65536

/-- The fault record of an access at its MTU: a record on the same page for the same reason is joined, else a new one is made, which
is given (R348). -/
def noteFault (s : State) (m : Nat) (r : FReq) : Nat × Option FRec × State :=
  let x := s.mb m
  let z := faultPage s m r
  match x.recs.find? (fun q => q.cls == r.cls && q.tgt == r.tgt && q.dia / z == r.dia / z && q.reason == r.reason) with
  | some q => (q.seq, none, s)
  | none =>
    let q : FRec := { seq := x.seq, cls := r.cls, tgt := r.tgt, dia := r.dia, va := r.va, reason := r.reason, acc := r.acc,
                      agent := r.agent, ch := r.ch, tile := r.tile, die := r.die, gtc := s.hub.gtc }
    (q.seq, some q, s.setMb m { x with recs := x.recs ++ [q], seq := (x.seq + 1) % 65536 })

/-- The translation-fault event of a fault record (R370, R468). -/
def FRec.event (q : FRec) (gtc : Nat) : Ev :=
  let w (i : Nat) := q.words.getD i 0
  { w0 := evW0 7 q.die 0 0, w1 := gtc, w2 := w 0, w3 := w 1, w4 := w 2, w5 := w 3 }

/-- An event put into the holding buffer of a die for one of its queues; one that finds 256 waiting is dropped (R467). -/
def holdEvent (s : State) (d eq : Nat) (e : Ev) : State :=
  s.onDie d (fun x =>
    if x.hold.length < 256 then { x with hold := x.hold ++ [(eq, e)] }
    else
      let q := mget EvQ.reset x.evqs eq
      { x with evqs := mset x.evqs eq { q with cfg := setFld q.cfg 6 1 1 } })

/-- An event queue of a die; that of die 16, hub die 0, is the management event queue (R462, R466). -/
def State.evq (s : State) (d eq : Nat) : EvQ := if d < 16 then mget EvQ.reset (s.die d).evqs eq else s.hub.mgmt

/-- The state with a change made to an event queue. -/
def State.onEvq (s : State) (d eq : Nat) (f : EvQ → EvQ) : State :=
  if d < 16 then s.onDie d (fun x => { x with evqs := mset x.evqs eq (f (mget EvQ.reset x.evqs eq)) })
  else s.onHub (fun h => { h with mgmt := f h.mgmt })

/-- The fault of a write to an event ring: it has a record like any access of its command processor, whose event waits with the others,
and the queue's next event waits on it (R348, R467; log 27). -/
def ringFault (s : State) (d eq : Nat) (e : LocErr) : State :=
  match e with
  | .fault m cls tgt dia reason =>
    let die := if d < 16 then d else 0
    let (n, new, s) := noteFault s m { cls := cls, tgt := tgt, dia := dia, va := 0, reason := reason, acc := 1, agent := 6, ch := 0,
                                       tile := 0, die := die }
    let s := s.onEvq d eq (fun q => { q with held := some (m, n) })
    match new with
    | some r => if s.claspUp (4 * die) then holdEvent s die (fld (s.die die).devq 0 6) (r.event s.hub.gtc) else s
    | none => s
  | _ => s

/-- A route leads from a die, or hub die 0 as die 16, to the host of its own hub die, which takes its interrupts (R462; log 27). -/
def hostRoute (s : State) (d : Nat) : Bool :=
  let hub := if d < 16 then d / 8 else 0
  hubReach s d hub && bit s.hub.rdyh hub

/-- The interrupt that an event queue owes is sent once a route leads to the host (R462, R467). -/
def sendDue (s : State) (d eq : Nat) : State :=
  if (s.evq d eq).due && hostRoute s d then s.onEvq d eq (fun q => { q with due := false, out := true, sent := q.sent + 1 }) else s

/-- An event written to its queue, with an interrupt where one is due, and whether it was; it is not while the queue is closed or full, or
its ring has no route or translation (R467; log 27). A die of 16 is hub die 0 (R462). -/
def evWrite (s : State) (d eq : Nat) (e : Ev) : Bool × State :=
  let q := s.evq d eq
  if q.held.isSome ∨ fld q.cfg 4 1 = 0 ∨ depthOf q.cfg ≤ (q.wc + 2 ^ 64 - q.rc) % 2 ^ 64 then (false, s)
  else
    match locWrite s d q.base.toNat (64 * (q.wc % depthOf q.cfg)) [e.w0, e.w1, e.w2, e.w3, e.w4, e.w5, 0, 0] with
    | (some err, s) => (false, ringFault s d eq err)
    | (none, s) =>
      let s := s.onEvq d eq (fun q => { q with wc := (q.wc + 1) % 2 ^ 64, due := q.due || (fld q.cfg 5 1 == 1 && !q.out) })
      (true, sendDue s d eq)

/-- The waiting events of a die written, in order, as far as their queues let them (R467). Events that are put behind them meanwhile
stay. -/
def pumpDie (s : State) (d : Nat) : State :=
  let old := (s.die d).hold
  let s := s.onDie d (fun x => { x with hold := [] })
  let s := ((s.die d).evqs.filter (·.2.due)).foldl (fun s p => sendDue s d p.1) s
  let (s, rest) := old.foldl (fun (a : State × List (Nat × Ev)) p =>
    if a.2.any (fun x => x.1 == p.1) then (a.1, a.2 ++ [p])
    else
      match evWrite a.1 d p.1 p.2 with
      | (true, s) => (s, a.2)
      | (false, s) => (s, a.2 ++ [p])) (s, [])
  s.onDie d (fun x => { x with hold := rest ++ x.hold })

/-- The waiting management events written; HD0 writes them itself (R462, R467). -/
def pumpMgmt (s : State) : State :=
  let (s, rest) := s.hub.mgmtWait.foldl (fun (a : State × List Ev) e =>
    if a.2 ≠ [] then (a.1, a.2 ++ [e])
    else match evWrite a.1 16 0 e with
      | (true, s) => (s, [])
      | (false, s) => (s, [e])) (sendDue s 16 0, [])
  s.onHub (fun h => { h with mgmtWait := rest })

/-- Every waiting event tried again, when a route, a home or a page has come back (R461, R467). -/
def pumpAll (s : State) : State :=
  if s.hub.tripped then s else pumpMgmt ((List.range 16).foldl (fun s d => if (s.die d).hold = [] ∧ (s.die d).evqs.any (·.2.due) = false then s else pumpDie s d) s)

/-- An event for an event queue of a die: it is written if it need not wait, else it waits in the die's holding buffer, and is dropped
if that is full (R467). Nothing is written after a thermal trip (R479). -/
def State.postDie (s : State) (d eq : Nat) (e : Ev) : State :=
  if s.hub.tripped then s
  else
    let s := pumpDie s d
    if (s.die d).hold.any (fun x => x.1 == eq) then holdEvent s d eq e
    else
      match evWrite s d eq e with
      | (true, s) => s
      | (false, s) => holdEvent s d eq e

/-- An event for a die's own event queue DEVQ (R467). -/
def State.postDev (s : State) (d code w2 w3 : Nat) : State :=
  s.postDie d (fld (s.die d).devq 0 6)
    { w0 := evW0 code d 0 0, w1 := s.hub.gtc, w2 := w2, w3 := w3, w4 := 0, w5 := 0 }

/-- An event of the die command processor for DEVQ; a broken one delivers none (R420). -/
def State.postCp (s : State) (d code w2 w3 : Nat) : State := if s.claspUp (4 * d) then s.postDev d code w2 w3 else s

/-- An event for the event queue of a work queue; a broken command processor delivers none (R420, R467). -/
def State.postQueue (s : State) (q code tag w2 w3 : Nat) : State :=
  if s.claspUp (4 * (q / 1024)) then
    s.postDie (q / 1024) (fld (s.queue q).evq 0 6)
      { w0 := evW0 code (q / 1024) q tag, w1 := s.hub.gtc, w2 := w2, w3 := w3, w4 := 0, w5 := 0 }
  else s

/-- An event for the management event queue (R467); its waiting events share HD0's 256 places (log 63). Nothing is written after a
thermal trip (R479). -/
def State.postMgmt (s : State) (code w2 w3 : Nat) : State :=
  if s.hub.tripped then s
  else
    let s := pumpMgmt s
    let e : Ev := { w0 := evW0 code 0 0 0, w1 := s.hub.gtc, w2 := w2, w3 := w3, w4 := 0, w5 := 0 }
    let wait (s : State) : State := s.onHub (fun h =>
      if h.mgmtWait.length < 256 then { h with mgmtWait := h.mgmtWait ++ [e] }
      else { h with mgmt := { h.mgmt with cfg := setFld h.mgmt.cfg 6 1 1 } })
    if s.hub.mgmtWait ≠ [] then wait s
    else
      match evWrite s 16 0 e with
      | (true, s) => s
      | (false, s) => wait s

/-- The fault record of an access, whose event the die command processor posts (R348, R370). -/
def faultRec (s : State) (m : Nat) (r : FReq) : Nat × State :=
  match noteFault s m r with
  | (n, some q, s) => (n, if s.claspUp (4 * q.die) then s.postDie q.die (fld (s.die q.die).devq 0 6) (q.event s.hub.gtc) else s)
  | (n, none, s) => (n, s)

/-! ## Records of a queue -/

/-- The word i of a 64-byte record. -/
def recWord (w i : Nat) : Nat := bits w (64 * i) 64

/-- A queue spends a credit on a record that it starts; a level whose ready queues hold none is refilled first (R365).
DESIGN CHOICE: a queue holds no credit before its first refill, and a write of QCFG leaves its count until the next (log 72). -/
def spendCredit (s : State) (q : Nat) : State :=
  let x := s.queue q
  let s := if x.credits ≠ 0 then s
    else s.onDie (q / 1024) (fun y => { y with queues := y.queues.map (fun p =>
      if fld p.2.cfg 6 2 = fld x.cfg 6 2 then (p.1, { p.2 with credits := fld p.2.cfg 8 4 + 1 }) else p) })
  s.setQueue q { s.queue q with credits := (s.queue q).credits - 1 }

/-- The record at the head of a queue starts: QRC moves on, a credit is spent, and left reports are awaited (R364, R365). -/
def startRec (s : State) (q left : Nat) : State :=
  let s := spendCredit s q
  let x := s.queue q
  match x.head with
  | none => s
  | some w =>
    s.setQueue q { x with rc := (x.rc + 1) % 2 ^ 64, head := none, placed := 0, image := none, nid := x.nid + 1,
                          running := x.running ++ [{ id := x.nid, n := x.rc, w := w, left := left, killed := 0, late := false,
                                                     todo := [], drops := 0, held := none }] }

/-- The started record with number n of a queue completes with a status, a count and a late mark (R354, R370). -/
def completeRec (s : State) (q n status cnt : Nat) (late : Bool) : State :=
  let x := s.queue q
  match x.running.find? (fun r => r.id == n) with
  | none => s
  | some r =>
    let s := s.setQueue q { x with running := x.running.filter (fun r => r.id != n) }
    if bit r.w 9 then s.postQueue q 1 (bits r.w 32 32) (status % 256 + cnt % 65536 * 256 + b2n late * 2 ^ 24) 0 else s

/-- The record at the head of a queue starts and completes at once. -/
def runRec (s : State) (q status cnt : Nat) : State := completeRec (startRec s q 0) q (s.queue q).nid status cnt false

/-- Pre-emption requests of a tile are served: their records complete (R406). -/
def servePreempt (s : State) : State :=
  let l := s.core.task.preqRecs
  l.foldl (fun s p => completeRec s p.1 p.2 0 0 false) (s.onCore (fun t => t.onTask (fun k => { k with preqRecs := [] })))

/-- The record that a restart waits for completes (R408). -/
def serveRestart (s : State) : State :=
  match s.core.task.rst with
  | some p => completeRec (s.onCore (fun t => t.onTask (fun k => { k with rst := none }))) p.1 p.2 0 0 false
  | none => s

/-! ## Addresses -/

/-- Where an address leads: cls 8 a scratchpad with its place, cls 0 to 4 a home class with its DIA (R168, R337). own tells
the tile's own scratchpad, swz its swizzled view. -/
structure Dest where
  cls : Nat
  tgt : Nat
  place : Nat
  own : Bool
  swz : Bool
  deriving DecidableEq, Repr

/-- The range registers that a level matches, in order: MRNG first at supervisor level (R394). -/
def Tile.ranges (t : Tile) : List Word := if t.sup then t.spr.mrng :: t.spr.rg.toList else t.spr.rg.toList

/-- Whether a range register matches a global address (R337). -/
def rgMatch (a : Nat) (r : Word) : Bool :=
  fld r 0 1 == 1 && a / 2 ^ (30 + fld r 11 5) == fld r 38 26 / 2 ^ fld r 11 5

/-- The DIA that a range register gives an address (R337). -/
def rgDia (a : Nat) (r : Word) : Nat := (fld r 16 22 * 2 ^ 30 + (a - fld r 38 26 * 2 ^ 30)) % 2 ^ 52

/-- The target of a range register: the stack of class 1, the link or port of classes 3 and 4 (R335). -/
def rgTgt (r : Word) : Nat := if fld r 8 3 = 1 then fld r 4 4 else fld r 4 1

/-- The scratchpad place of a tile-local address, with the view: linear, swizzled, or a cluster window (R168, R317). -/
def sortLocal (self a : Nat) : Option Dest :=
  if a < Config.scratchBytes then some { cls := 8, tgt := 0, place := scratchKey self a, own := true, swz := false }
  else if 0x800000 ≤ a ∧ a < 0x800000 + Config.scratchBytes then
    some { cls := 8, tgt := 0, place := scratchKey self (unswizzle (a - 0x800000)), own := true, swz := true }
  else if 0x10000000 ≤ a ∧ a < 0x10000000 + 16 * 0x400000 ∧ (a - 0x10000000) % 0x400000 < Config.scratchBytes then
    let t := self / 16 * 16 + (a - 0x10000000) / 0x400000
    some { cls := 8, tgt := 0, place := scratchKey t ((a - 0x10000000) % 0x400000), own := t == self, swz := false }
  else none

/-- Whether an address lies in the swizzled view (R168). -/
def swzVa (a : Nat) : Bool := 0x800000 ≤ a && decide (a < 0x800000 + Config.scratchBytes)

/-- The place of byte i of an access at address a whose first line or chunk lies at a place: a vector access through the
swizzled view reads the chunks of each line in rotated order (R317). -/
def viewPlace (cls place a size i : Nat) : Nat :=
  if cls = 8 ∧ swzVa a ∧ size = 128 then place + unswizzle (a - 0x800000 + i) - (a - 0x800000) else place + i

/-- Whether an address lies in the global virtual space (R168). -/
def isGlobal (a : Nat) : Bool := Config.globalBase ≤ a && decide (a < 2 ^ 56)

/-- The bank of a scratchpad place (R316). -/
def bankOf (k : Nat) : Nat := bits k 16 6

/-- The checks of R170 after alignment: region, range permission (needR, needW, needX) and, at task level, bank
ownership. -/
def checkRegion (s : State) (a : Nat) (needR needW needX : Bool) : Except (Cause × Nat) Dest :=
  match sortLocal s.self a with
  | some d =>
    if needX then .error (.range, a)
    else if d.own && !s.core.sup && !bit s.core.spr.bown.toNat (bankOf d.place) then .error (.perm, a)
    else .ok d
  | none =>
    if isGlobal a then
      match s.core.ranges.find? (rgMatch a) with
      | none => .error (.range, a)
      | some r =>
        if (needR && fld r 1 1 == 0) || (needW && fld r 2 1 == 0) || (needX && fld r 3 1 == 0) then .error (.perm, a)
        else .ok { cls := fld r 8 3, tgt := rgTgt r, place := rgDia a r, own := false, swz := false }
    else .error (.range, a)

/-- Every check of R170 on a load or store: alignment under R169 with the slot word, then region, permission, ownership. -/
def checkAccess (s : State) (word a size : Nat) (needR needW : Bool) : Except (Cause × Nat) Dest :=
  if a % size ≠ 0 then .error (.illegal, word)
  else
    match checkRegion s a needR needW false with
    | .ok d => .ok (if size = 128 then { d with place := d.place / 64 * 64 } else d)
    | .error e => .error e

/-- The name of the 64-byte line of a global place (R320, R321). -/
def lineKey (cls tgt dia : Nat) : Nat := (cls * 16 + tgt) * 2 ^ 52 + dia / 64 * 64

/-- The cached line of a name, if held. -/
def findLine (l : List Line) (k : Nat) : Option Line := l.find? (fun x => x.key == k)

/-- A cache of sets of some ways with a line put in; a full set gives up one line (R320, R321; log 9). -/
def putLine (sets ways : Nat) (l : List Line) (k data : Nat) : List Line :=
  let l := l.filter (fun x => x.key != k)
  let keep := keepWays ways k ((l.filter (fun x => x.key / 64 % sets == k / 64 % sets)).map (·.key))
  { key := k, data := data } :: l.filter (fun x => x.key / 64 % sets != k / 64 % sets || keep.contains x.key)

/-- The L1 data cache with a line put in: 256 sets of 8 ways (R320). -/
def putL1 (l : List Line) (k data : Nat) : List Line := putLine 256 8 l k data

/-- The instruction cache with a line put in: 256 sets of 4 ways (R321). -/
def putCode (l : List Line) (k data : Nat) : List Line := putLine 256 4 l k data

/-! ## Time -/

/-- The counter of R389 that a tile's cycle adds to. -/
def profIndex (t : Tile) : Nat :=
  if t.task.launch.isNone then 0
  else
    match t.beads.cur with
    | none => 4
    | some b => let k := bits b 88 8; if k = 1 ∨ k = 3 then 2 else if k = 2 then 3 else 4

/-- The head command's opcode of a facet that is executing; it waits while a Locket holds the facet (R389, R452). -/
def facetOp (f : Facet) : Nat := if f.busy && !f.held then (match f.queue with | c :: _ => c.op | [] => 0) else 0

/-- Whether the tile's last try was a stall at BEAD.RECV (R389). -/
def Tag.atRecv (g : Tag) : Bool := g == .stallRecv || g == .doneRecv

/-- The tag with which the tile may issue again (R389; log A4). -/
def Tag.rest (g : Tag) : Tag := if g.atRecv then .doneRecv else .done

/-- The placement counters after one tile cycle; atRecv marks a stall at BEAD.RECV (R389). -/
def profTick (t : Tile) (atRecv : Bool) : Vector Nat 8 :=
  let bump (v : Vector Nat 8) (i : Nat) := v.setIfInBounds i ((v.getD i 0 + 1) % 2 ^ 64)
  let p := bump t.prof (if t.task.launch.isSome && atRecv then 1 else profIndex t)
  let ops := t.facets.toList.map facetOp
  let p := if ops.any (fun o => o == 1 || o == 2) then bump p 5 else p
  let p := if ops.any (fun o => o == 3 || o == 4) then bump p 6 else p
  if ops.any (fun o => o == 5 || o == 6) then bump p 7 else p

/-- One cycle of the tile in focus: CYC and the paced units advance (R32, R103, R389, R409). -/
def Tile.cycle (t : Tile) (atRecv : Bool) : Tile :=
  { t with spr := { t.spr with cyc := t.spr.cyc + 1 }, mxWait := t.mxWait - 1, chkWait := t.chkWait - 1,
           prof := profTick t atRecv }

/-- GTC after n ticks: where it differs from position 0's, one tick in a thousand is gained or left out, and it never runs backwards
(R471; log A14). -/
def Hub.ticks (h : Hub) (n : Nat) : Hub :=
  if h.slew = 0 ∨ h.slewed + n < 1000 ∨ n = 0 then { h with gtc := (h.gtc + n) % 2 ^ 64, slewed := if h.slew = 0 then 0 else h.slewed + n }
  else if 0 < h.slew then { h with gtc := (h.gtc + n + 1) % 2 ^ 64, slew := h.slew - 1, slewed := 0 }
  else { h with gtc := (h.gtc + n - 1) % 2 ^ 64, slew := h.slew + 1, slewed := 0 }

/-- GTC after one tile cycle of a die: 10 / (9 + CLK) ticks, the remainder kept (R3, R477; log A14). -/
def Hub.tick (h : Hub) (clk : Nat) : Hub := { h.ticks ((h.phase + 10) / (9 + clk)) with phase := (h.phase + 10) % (9 + clk) }

/-- One tile cycle passes (R32; log A14). -/
def cyclePass (s : State) (atRecv : Bool) : State :=
  { s with core := s.core.cycle atRecv, hub := s.hub.tick (s.die (tileDie s.self)).clk }

/-! ## The context image -/

/-- The code of a cause (R31). -/
def Cause.code (c : Cause) : Nat :=
  match c with
  | .illegal => 1 | .priv => 2 | .range => 3 | .page => 4 | .perm => 5 | .poison => 6 | .twin => 7 | .region => 8
  | .mxuBound => 9 | .facet => 10 | .barrier => 11 | .wchk => 12 | .soft => 13 | .preempt => 14

/-- KIND, TGT, ROWEN and the payload words of a result in flight (R399, R400); a mask result for the latch enables the byte
pairs in which it writes a bit, and in them carries the latch bits that its lane guard leaves; which bits it writes, the tile keeps
(R115, R400; log 68). -/
def landSnap (latch : VWord) (l : Land) : Nat × Nat × Nat × List Nat :=
  let vw (v : VWord) : List Nat := (List.range 16).map (fun i => lane v i 64)
  match l with
  | .sreg n v => (0, n, 0, [v.toNat])
  | .pred n v => (1, n, 0, [b2n v])
  | .mask n en v => (2, n, 0, [en.toNat, v.toNat])
  | .vec n en v => (3, n, 0, en.toNat :: vw v)
  | .pair n0 _ v0 v1 => (4, n0, 0, vw v0 ++ vw v1)
  | .octet ns vs => (5, ns.getD 0 0, 0, (vs.map vw).flatten)
  | .acc n rows vs kind =>
    let w (i : Nat) := (vs.getD (2 * i) 0).toNat + 2 ^ 32 * (vs.getD (2 * i + 1) 0).toNat
    if kind = 7 then (7, n, 0, (List.range 16).map w)
    else if kind = 8 then (8, n, 0, (List.range 16).map (fun i => w (i + 16)))
    else (6, n, rows, (List.range 32).map w)
  | .fmt v => (9, 0, 0, [v.toNat])
  | .twinS v => (10, 0, 0, [v.toNat])
  | .twinV en v => (11, 0, 0, en.toNat :: vw v)
  | .twinM en v =>
    let low := ((latch.setWidth 64 &&& ~~~en) ||| (v &&& en)).toNat
    let pairs := packFields 1 (fun k => b2n (decide (4 ≤ k) || bits en.toNat (16 * k) 16 != 0)) 64
    (11, 0, 0, pairs :: low :: List.replicate 15 0)

/-- A SNAP descriptor word; v is V (R399). -/
def snapWord (v kind d st pend tgt rowen off j : Nat) : Nat :=
  v * 2 ^ 63 + kind * 2 ^ 59 + d * 2 ^ 55 + st * 2 ^ 53 + pend * 2 ^ 52 + tgt * 2 ^ 40 + rowen * 2 ^ 17 + off * 2 ^ 8 +
    Nat.min j 255

/-- One thing to latch: V (0 for an AMO entry that was taken as a cause at return, R407), issue distance, kind, distance, ST,
PEND, target, row enables, the bit enables of a latch mask, payload with its poison, and the place of an AMO among the tile's requests (R399,
R400; log 67). -/
structure SnapItem where
  v : Nat
  j : Nat
  kind : Nat
  d : Nat
  st : Nat
  pend : Nat
  tgt : Nat
  rowen : Nat
  en : Option Nat
  pay : List Nat
  pois : Bool
  req : Option Nat
  deriving DecidableEq, Repr

/-- The register value of a read: its data, sign extended from its size where the read says so (R172, R177). -/
def Req.value (r : Req) : Nat := if r.sx then wrap 64 (sext r.data (8 * r.size)) else r.data

/-- The ST code of a load record or AMO entry; one that was taken as a cause at return keeps its code in data (R399, R401,
R407). -/
def Req.stCode (r : Req) : Nat :=
  match r.st with | .poisoned => 1 | .page => 2 | .perm => 3 | .discarded => r.data % 4 | _ => 0

/-- Whether an AMO has its value or its failure. -/
def Req.settled (r : Req) : Bool :=
  match r.st with | .done => true | .poisoned => true | .page => true | .perm => true | .discarded => true | _ => false

/-- The SNAP state of an AMO request: value arrived, poisoned, ended by FRES, or pending (R522); V is 0 once it was taken as a
cause at return (R407). -/
def amoSnap (k : Nat) (r : Req) : SnapItem :=
  let st := r.stCode
  let pend := b2n (!r.settled)
  { v := b2n (r.st != .discarded), j := r.j, kind := 12, d := 0, st := st, pend := pend, tgt := r.dst, rowen := 0, en := none,
    pay := [if st = 0 then (if pend = 0 then r.value else 0) else r.va], pois := false, req := some k }

/-- Items in issue order: an earlier issue has a larger distance j. -/
def insertItem (x : SnapItem) : List SnapItem → List SnapItem
  | [] => [x]
  | y :: ys => if y.j < x.j then x :: y :: ys else y :: insertItem x ys

/-- An AMO of the running context, which live SNAP entries may hold since a trap within the monitor (R396, R522). -/
def Req.ownAmo (r : Req) : Bool := r.kind == .amo && (!r.late || r.pw == 254)

/-- The tile's requests with their places. -/
def Tile.numbered (t : Tile) : List (Nat × Req) := (List.range t.reqs.length).zip t.reqs

/-- Everything that a trap latches, oldest first (R113, R399). A guarded-off operation still in flight has nothing to latch; the tile
keeps its landing, which later bundles count (R90; log 68). -/
def snapItems (t : Tile) : List SnapItem :=
  let lands := (t.flight.filter (·.live)).map (fun x =>
    let (k, tgt, rowen, pay) := landSnap t.regs.twinV x.what
    ({ v := 1, j := x.j, kind := k, d := x.d, st := 0, pend := 0, tgt := tgt, rowen := rowen,
       en := match x.what with | .twinM en _ => some en.toNat | _ => none, pay := pay, pois := x.pois, req := none } : SnapItem))
  let amos := (t.numbered.filter (·.2.ownAmo)).map (fun p => amoSnap p.1 p.2)
  amos.foldl (fun l x => insertItem x l) lands

/-- Descriptor words and payload words of the items, the payload packed from offset 0 (R399, R400). -/
def snapLayout : List SnapItem → Nat → List Nat × List Nat
  | [], _ => ([], [])
  | x :: xs, off =>
    let (ws, ps) := snapLayout xs (off + x.pay.length)
    (snapWord x.v x.kind x.d x.st x.pend x.tgt x.rowen off x.j :: ws, x.pay ++ ps)

/-- The bit enables of latch masks among the items, by payload offset (log 68). -/
def snapEnables : List SnapItem → Nat → List (Nat × Nat)
  | [], _ => []
  | x :: xs, off => (match x.en with | some e => [(off, e)] | none => []) ++ snapEnables xs (off + x.pay.length)

/-- The payload words of the items that hold poisoned data, their enable words apart (R328, R400; log 67). -/
def snapMarks : List SnapItem → Nat → List Nat
  | [], _ => []
  | x :: xs, off =>
    let skip := if x.kind = 2 ∨ x.kind = 3 ∨ x.kind = 11 then 1 else 0
    (if x.pois then (List.range (x.pay.length - skip)).map (off + skip + ·) else []) ++ snapMarks xs (off + x.pay.length)

/-- Whether a request is a load that a trap withdraws or delivers (R401). -/
def isLoadReq (r : Req) : Bool :=
  match r.kind with | .ld => true | .vld => true | .vldb => true | .barTest => true | .beadHdr => true | _ => false

/-- A load record, V = 0 once it was taken as a cause at return (R401, R407). -/
def loadRecord (r : Req) : List Nat :=
  let kind := match r.kind with | .ld => 0 | .vld => 1 | .vldb => 2 | .barTest => 3 | _ => 4
  [r.va, b2n (r.st != .discarded) * 2 ^ 63 + kind * 2 ^ 60 + Nat.log2 r.size * 2 ^ 56 + b2n r.sx * 2 ^ 55 + r.stCode * 2 ^ 53 + r.dst * 2 ^ 40 + r.pw * 2 ^ 32]

/-- The value a done load or facet return writes to its register (R172, R229, R249). -/
def Req.deliver (r : Req) (t : Tile) : Tile :=
  match r.kind with
  | .vld => t.onRegs (fun x => x.setV r.dst (BitVec.ofNat 1024 r.data))
  | .vldb => t.onRegs (fun x => x.setV r.dst (ofLanes (8 * r.size) (fun _ => r.data)))
  | .xget => if r.op = 10 then t.onRegs (fun x => x.setV r.dst (BitVec.ofNat 1024 r.data))
             else t.onRegs (fun x => x.setS r.dst (BitVec.ofNat 64 r.data))
  | .amo => t.onRegs (fun x => x.setS r.dst (BitVec.ofNat 64 r.value))
  | .ld => t.onRegs (fun x => x.setS r.dst (BitVec.ofNat 64 r.value))
  | _ => t.onRegs (fun x => x.setS r.dst (BitVec.ofNat 64 r.data))

/-- A list of words with its words padded with zeros, or cut, to a length. -/
def padTo (n : Nat) (l : List Nat) : List Nat := (l ++ List.replicate n 0).take n

/-- The fill descriptor of a staging buffer (R397). -/
def osbWords (o : Osb) : List Nat :=
  [o.st * 2 ^ 62 + o.fmt * 2 ^ 60 + b2n o.recv * 2 ^ 59 + (if o.recv then o.src % 16 else o.src % 2 ^ 56), o.desc]

/-- The 2,048 words of the context image of R397, from the tile as it stands, its latched words and its records. -/
def imageWords (t : Tile) (tstat : Word) (frz : Bool) (gtc : Nat) (snaps pay : List Nat) (loads : List Req) : List Nat :=
  let vw (v : VWord) : List Nat := (List.range 16).map (fun i => lane v i 64)
  let hdr := 2 ^ 63 + b2n t.beads.cur.isSome * 2 ^ 62 + b2n frz * 2 ^ 61 + (loads.filter (·.st != .discarded)).length * 2 ^ 40 + t.tcq.length * 2 ^ 32 +
    (snaps.filter (fun w => bit w 63)).length * 2 ^ 24 + 8 * pay.length
  let p := t.spr
  padTo 8 [hdr + t.task.sflt.1 % 4 * 2 ^ 59, p.tpc.toNat, p.tcause.toNat, p.tval.toNat, tstat.toNat, gtc, p.cyc.toNat,
    if t.task.sflt.1 % 4 = 0 then 0 else t.task.sflt.2] ++
  padTo 24 ([p.fmt.toNat, p.lc.toNat, 0, p.rotw.toNat, 0, 0, p.taskid.toNat, p.bown.toNat, p.stage.toNat, p.wchk.toNat] ++
    p.rg.toList.map (·.toNat) ++
    [t.rng.seed.toNat, t.rng.rbqs.toNat, packFields 1 (fun n => b2n (n == 0 || t.regs.q.getD n false)) 16, t.regs.twinS.toNat]) ++
  (0 :: (t.regs.s.toList.map (·.toNat)).drop 1) ++ t.regs.m.toList.map (·.toNat) ++
  (t.chans.toList.map (fun c => [c.lo + c.hi * 2 ^ 22, c.wm + b2n c.act * 2 ^ 22])).flatten ++
  (t.osb.toList.map osbWords).flatten ++
  (List.range 8).map (fun i => bits (t.beads.cur.getD 0) (64 * i) 64) ++
  vw t.regs.twinV ++ padTo 32 snaps ++
  padTo 64 ((t.tcq.map (fun c => [c.word + c.et * 2 ^ 32, c.a, c.b, 0])).flatten) ++
  padTo 32 ((loads.map loadRecord).flatten) ++ List.replicate 8 0 ++
  (t.regs.v.toList.map vw).flatten ++
  (List.range 256).map (fun i => (t.regs.acc.getD (2 * i) 0).toNat + 2 ^ 32 * (t.regs.acc.getD (2 * i + 1) 0).toNat) ++
  padTo 480 pay

/-- The place of the context save area (R394, R395). -/
def saveArea (s : State) (t : Nat) : Nat := scratchKey t (fld (s.tile t).spr.mcsb 0 6 * 65536)

/-- Words written from a place. -/
def writeWords (s : State) (k : Nat) (ws : List Nat) : State :=
  { s with mem := memWrite s.mem k ((ws.map (toBytes 8)).flatten),
           poison := s.poison.filter (fun u => decide (u < k) || decide (k + 8 * ws.length ≤ u)),
           view := s.view.filter (fun v => decide (4 * v.word + 4 ≤ k) || decide (k + 8 * ws.length ≤ 4 * v.word)),
           codes := { s.codes with flaws := s.codes.flaws.filter (fun f => match f with
             | .unit u _ => decide (u < k) || decide (k + 8 * ws.length ≤ u) | _ => true) } }

/-- An AMO of the running context becomes one that a live SNAP entry holds, pw 254 (R396, R522). -/
def Req.toSnap (r : Req) : Req := if r.kind = .amo ∧ r.late = false then { r with late := true, pw := 254 } else r

/-- A request of the task that returns is the running context's again; those of a draining task (pw 255) and of live SNAP
entries (pw 254) are not. -/
def Req.back (r : Req) : Req := if r.pw < 254 then { r with late := false } else r

/-- The requests of a tile whose results stand in a snapshot: an AMO whose value or failure has come is in it alone, and one that is
pending names its entry (R113, R522). -/
def latchReqs (t : Tile) (items : List SnapItem) : List Req :=
  (t.numbered.filter (fun p => !(p.2.ownAmo && p.2.settled))).map (fun p =>
    if p.2.ownAmo then { p.2 with snap := (lfind (fun x : SnapItem => x.req == some p.1) items).getD 32 } else p.2)

/-- Step 2 of R395: every result in flight goes into the SNAP registers and their payload; what these have no place for, the tile keeps
beside them (R90, R113, R399, R522; log 68). -/
def Tile.latch (t : Tile) : Tile :=
  let items := snapItems t
  let (ws, pay) := snapLayout items 0
  { t with snapEn := snapEnables items 0, snapPois := snapMarks items 0, snapDead := t.flight.filter (!·.live), flight := [], reqs := latchReqs t items,
           snapOrd := (((List.range items.length).zip items).filter (·.2.kind == 12)).map (fun p => (p.1, p.2.j)),
           snapPay := (List.range pay.length).zip pay,
           spr := { t.spr with snap := Vector.ofFn (fun i => BitVec.ofNat 64 (ws.getD i.val 0)) } }

/-- A tile after its loads are delivered or withdrawn for a trap (R401): performed values are in their registers, facet
returns stay, stores and AMOs are marked as the away task's. -/
def Tile.withdraw (t : Tile) : Tile :=
  let t := (t.reqs.filter (fun r => isLoadReq r && r.st == .done)).foldl (fun t r => r.deliver t) t
  { t with reqs := (t.reqs.filter (fun r => !isLoadReq r && r.kind != .fetch && r.kind != .pref)).map
             (fun r => { r with late := true }) }

/-- An empty request of a kind. -/
def Req.empty (k : ReqKind) : Req :=
  { kind := k, st := .waiting, va := 0, size := 1, dst := 0, sx := false, pw := 0, data := 0, enb := 0, cmp := 0, op := 0,
    sco := 0, cls := 8, tgt := 0, place := 0, phys := 0, mb := 0, seq := 0, j := 0, slot := 0, snap := 32, frz := false, pois := false, late := false }

/-- Program order of two requests of a tile: by bundle, then by slot (R393). -/
def Req.before (a b : Req) : Bool := decide (b.j < a.j) || (a.j == b.j && decide (a.slot < b.slot))

/-- The place of the first request in program order that meets a condition. -/
def oldestOf (p : Req → Bool) (l : List Req) : Option Nat :=
  ((List.range l.length).zip l).foldl (fun (b : Option Nat) x =>
    if p x.2 then
      match b with
      | none => some x.1
      | some i => if x.2.before (lget x.2 l i) then some x.1 else some i
    else b) none

/-- Requests in program order. -/
def sortReqs (l : List Req) : List Req :=
  l.foldl (fun acc r => acc.takeWhile (fun x => !r.before x) ++ r :: acc.dropWhile (fun x => !r.before x)) []

/-- A store that FRES ended and whose cause is not the one taken: the first in program order stands in SFLT (R393, R522). -/
def Tile.sfltStands (t : Tile) : Tile :=
  let bad (r : Req) : Bool := r.kind == .st && !r.late && (r.st == .page || r.st == .perm)
  match oldestOf bad t.reqs with
  | some i =>
    let r := lget (Req.empty .st) t.reqs i
    { t with reqs := t.reqs.filter (fun r => !bad r),
             task := if t.task.sflt.1 = 0 then { t.task with sflt := (if r.st = .page then 2 else 3, r.va), sfltOrd := (r.j, r.slot) }
                     else t.task }
  | none => t

/-- Two requests lead to one storage: class 4 is one through either port (R294, R335, R340). -/
def sameHome (a b : Req) : Bool := a.cls == b.cls && (a.tgt == b.tgt || a.cls == 4)

/-- Whether two requests lead to one place (R296). -/
def samePlace (a b : Req) : Bool :=
  sameHome a b && decide (a.place < b.place + b.size) && decide (b.place < a.place + a.size)

/-- Where the context image holds a register that Regs.pois names, and how many bytes: the predicates share one word (R397). -/
def imagePlace (k : Nat) : Nat × Nat :=
  if k < 64 then (0x100 + 8 * k, 8)
  else if k < 128 then (0x900 + 128 * (k - 64), 128)
  else if k < 136 then (0x300 + 8 * (k - 128), 8)
  else if k < 144 then (0x2900 + 256 * (k - 136), 256)
  else if k < 160 then (0xE0, 8)
  else if k = 160 then (0xE8, 8)
  else (0x440, 128)

/-- What of a tile's context is poisoned lies poisoned in its image: registers, words of the current bead, payload words (R231, R328, R397;
log 67). -/
def markImage (s : State) (base : Nat) (t : Tile) : State :=
  let bead := ((List.range 8).filter (fun i => bit (t.beads.cur.getD 0) (512 + i))).map (fun i => (0x400 + 8 * i, 8))
  (t.regs.pois.map imagePlace ++ bead ++ t.snapPois.map (fun i => (0x3100 + 8 * i, 8))).foldl (fun (s : State) (p : Nat × Nat) =>
    writeEnb s (base + p.1) p.2 (readN s (base + p.1) p.2) (2 ^ p.2 - 1) true) s

/-- What a trap of the task does from step 2 of R395 on, with the tile's TCAUSE, TPC and TVAL already recorded: the results
in flight are latched, loads withdrawn, the image written, and the monitor entered; or, with no monitor, the tile stops
(R396). stop is HALT's form of it, which leaves the level as it is (R159, R408). -/
def leaveTask (s : State) (stop : Bool) : State :=
  let t := s.core
  let tstat0 := t.spr.tstat
  let frz := t.task.run == .frozen
  let loads := (sortReqs (t.reqs.filter (fun r => isLoadReq r && r.st != .done))).take 16
  let hasMon := fld t.spr.mcsb 6 1 == 1
  let t : Tile := if hasMon then t.latch.sfltStands else t.latch
  let snaps := (t.spr.snap.toList.map (·.toNat)).filter (· != 0)
  let pay := t.snapPay.map (·.2)
  let halfway := (t.reqs.filter (fun (r : Req) => isLoadReq r && r.st == .done)).foldl (fun t r => r.deliver t) t
  let tstat1 := if stop then tstat0 else setFld (setFld (setFld (setFld tstat0 1 1 0) 0 1 1) 2 1 0) 4 1 0
  if hasMon then
    let s := writeWords s (saveArea s s.self) (imageWords halfway tstat0 frz s.hub.gtc snaps pay loads)
    let s := markImage s (saveArea s s.self) halfway
    let kept := t.tcq.map (fun c => (c.stamp, c.beadRec))
    let t := { t.withdraw with tcq := [], task := { t.task with kept := kept, maskEn := t.snapEn, amoOrd := t.snapOrd, dead := t.snapDead,
                                                                loadOrd := loads.map (fun (r : Req) => (r.j, r.slot)) } }
    let t := t.onSpr (fun p => { p with tstat := tstat1, pc := if stop then p.pc else BitVec.ofNat 64 (fld p.mvec 4 52 * 16) })
    let t := t.onTask (fun k => { k with run := if stop then .halted else .running, away := !stop || k.away, preq := false })
    let s := servePreempt { s with core := { t with iss := Iss.reset } }
    if stop then s.postCp (tileDie s.self) 8 (s.self % 64) t.spr.tpc.toNat else s
  else
    let t := { halfway with spr := { t.spr with tstat := tstat1, pc := t.spr.tpc },
                            reqs := (t.reqs.filter (fun (r : Req) => !isLoadReq r && r.kind != ReqKind.fetch && r.kind != ReqKind.pref)).map Req.toSnap }
    let t := t.onTask (fun k => { k with run := if stop then .halted else .haltedNoMon, preq := false, wd := loads })
    let s := servePreempt { s with core := { t with iss := Iss.reset } }
    s.postCp (tileDie s.self) 8 (s.self % 64) t.spr.tpc.toNat

/-- Taking an exception (R395, R396): TCAUSE, TPC and TVAL are recorded; at task level the context is left as leaveTask
says, at supervisor level results are latched into the live registers, PSUP becomes 1 and the monitor is entered. -/
def takeTrap (s : State) (c : Cause) (slot tval : Nat) (tpc : Word) : State :=
  let t := s.core
  let inr := fld t.spr.tstat 2 1
  let tstat := if c = .twin then setFld t.spr.tstat 3 1 1 else t.spr.tstat
  let wchk := if c = .wchk then setFld t.spr.wchk 1 1 1 else t.spr.wchk
  let t := { t with fetchRg := [], task := { t.task with pend := none },
                    spr := { t.spr with tcause := BitVec.ofNat 64 (inr * 4096 + slot * 256 + c.code), tpc := tpc,
                                        tval := BitVec.ofNat 64 tval, tstat := tstat, wchk := wchk } }
  if t.sup then
    let t := t.latch
    let t := t.onSpr (fun p => { p with tstat := setFld (setFld p.tstat 1 1 1) 2 1 0,
                                        pc := BitVec.ofNat 64 (fld p.mvec 4 52 * 16) })
    { s with core := { t with iss := Iss.reset, reqs := t.reqs.map Req.toSnap,
                              task := { t.task with run := .running } } }
  else leaveTask { s with core := t } false

/-! ## Return -/

/-- The landing that a SNAP descriptor and its payload describe; none for an AMO entry or an unused one (R399, R400,
R407). bad tells the payload words that are poisoned (log 67), en gives the bits that a mask result for the latch writes (log 68). -/
def snapLand (w : Nat) (pay : Nat → Nat) (bad : Nat → Bool) (en : List (Nat × Nat)) : Option Landing :=
  let off := bits w 8 9
  let p (i : Nat) := pay (off + i)
  let vv (i : Nat) : VWord := BitVec.ofNat 1024 (packFields 64 (fun k => p (i + k)) 16)
  let n := bits w 40 8
  let nxt (i : Nat) : Nat := if n < 32 then n + i else 32 + (n - 32 + i) % 32
  let accs (i : Nat) : BitVec 32 := BitVec.ofNat 32 (bits (p (i / 2)) (32 * (i % 2)) 32)
  let l : Option Land :=
    match bits w 59 4 with
    | 0 => some (.sreg n (BitVec.ofNat 64 (p 0)))
    | 1 => some (.pred n (p 0 % 2 == 1))
    | 2 => some (.mask n (BitVec.ofNat 64 (p 0)) (BitVec.ofNat 64 (p 1)))
    | 3 => some (.vec n (BitVec.ofNat 64 (p 0)) (vv 1))
    | 4 => some (.pair n (nxt 1) (vv 0) (vv 16))
    | 5 => some (.octet ((List.range 8).map nxt) ((List.range 8).map (fun i => vv (16 * i))))
    | 6 => some (.acc n (bits w 17 8) ((List.range 64).map accs) 6)
    | 7 => some (.acc n 15 ((List.range 64).map accs) 7)
    | 8 => some (.acc n 240 ((List.range 64).map (fun i => accs (i - 32))) 8)
    | 9 => some (.fmt (BitVec.ofNat 64 (p 0)))
    | 10 => some (.twinS (BitVec.ofNat 64 (p 0)))
    | 11 =>
      match en.find? (fun x => x.1 == off) with
      | some e => some (.twinM (BitVec.ofNat 64 e.2) (BitVec.ofNat 64 (p 1)))
      | none => some (.twinV (BitVec.ofNat 64 (p 0)) (vv 1))
    | _ => none
  let size : Nat :=
    match bits w 59 4 with | 2 => 2 | 3 => 17 | 4 => 32 | 5 => 128 | 6 => 32 | 7 => 16 | 8 => 16 | 11 => 17 | _ => 1
  if bit w 63 then
    l.map (fun x => { what := x, d := bits w 55 4, j := bits w 0 8, live := true, pois := (List.range size).any (fun i => bad (off + i)) })
  else none

/-- Landings in the order of their issue: the smaller j lands last (R399, R407). -/
def insertLanding (x : Landing) : List Landing → List Landing
  | [] => [x]
  | y :: ys => if y.j < x.j then x :: y :: ys else y :: insertLanding x ys

/-- The results in flight that SNAP descriptors and payload put back (R114, R407 step 6). -/
def snapFlight (ws : List Nat) (pay : Nat → Nat) (bad : Nat → Bool) (en : List (Nat × Nat)) : List Landing :=
  (ws.filterMap (fun w => snapLand w pay bad en)).foldl (fun l x => insertLanding x l) []

/-- The accumulators in unit order once every result in flight on them has been made (R103, R114). -/
def unitOrder (acc : Vector (BitVec 32) 512) (fl : List Landing) : Vector (BitVec 32) 512 :=
  fl.foldl (fun a x => match x.what with | .acc n rows vs _ => setAccRows a n rows vs | _ => a) acc

/-- The distance of an AMO entry: J, or what the tile kept where J is at its limit (R399; log 68). -/
def amoDist (ord : List (Nat × Nat)) (n j : Nat) : Nat :=
  match ord.find? (fun p => p.1 == n) with | some p => if Nat.min p.2 255 = j then p.2 else j | none => j

/-- The AMO entries of SNAP words as requests, a value as done, with its poison, and a failure with its address (R407, R522; log 67). -/
def snapAmos (ws : List Nat) (pay : Nat → Nat) (bad : Nat → Bool) (ord : List (Nat × Nat)) : List Req :=
  ((List.range ws.length).zip ws).filterMap (fun (n, w) =>
    if bit w 63 && bits w 59 4 == 12 && !bit w 52 then
      let st : ReqSt := match bits w 53 2 with | 0 => .done | 1 => .poisoned | 2 => .page | _ => .perm
      let x := pay (bits w 8 9)
      some { Req.empty .amo with st := st, dst := bits w 40 8, data := x, size := 8, va := x, pois := bad (bits w 8 9), j := amoDist ord n (bits w 0 8) }
    else none)

/-- The values of AMO entries delivered, each with its poison (R328, R407; log 67). -/
def deliverAmos (t : Tile) (l : List Req) : Tile :=
  l.foldl (fun t r => if r.st == .done then (let t := r.deliver t; if r.pois && r.dst != 0 then t.mark [r.dst] true else t) else t) t

/-- A pending AMO of a live SNAP entry is the running context's again, for the register that the entry names, at its distance; where its
entry has been dropped, its value is (R407, R522). -/
def Req.replay (ws : List Nat) (ord : List (Nat × Nat)) (r : Req) : Req :=
  if r.pw ≠ 254 then r
  else
    let w := ws.getD r.snap 0
    if bit w 63 && bits w 59 4 == 12 then { r with late := false, pw := 0, dst := bits w 40 8, j := amoDist ord r.snap (bits w 0 8) }
    else { r with pw := 255 }

/-- Return within the monitor or after a stop without a monitor: the live SNAP entries land at their distances, and the L1 is
invalidated with the prefetches still outstanding (R114, R177, R184, R396, R407, R408). -/
def replayLive (t : Tile) : Tile :=
  let ws := t.spr.snap.toList.map (·.toNat)
  let fl := snapFlight ws (fun i => mget 0 t.snapPay i) t.snapPois.contains t.snapEn
  let amos := snapAmos ws (fun i => mget 0 t.snapPay i) t.snapPois.contains t.snapOrd
  let t := deliverAmos t amos
  let reqs := t.reqs.map (Req.replay ws t.snapOrd)
  { t with reqs := (reqs ++ amos.filter (fun r => r.st != .done)).filter (fun r => r.kind != .pref), l1 := [],
           flight := fl ++ t.snapDead, snapPay := [], snapEn := [], snapPois := [], snapOrd := [], snapDead := [], regs := { t.regs with accU := unitOrder t.regs.acc fl },
           spr := { t.spr with snap := Vector.replicate 32 0 } }

/-- The request that a load record re-issues (R401, R407 step 4). -/
def recordReq (w0 w1 : Nat) : Req :=
  let kind : ReqKind := match bits w1 60 3 with | 0 => .ld | 1 => .vld | 2 => .vldb | 3 => .barTest | _ => .beadHdr
  { Req.empty kind with va := w0, size := 2 ^ bits w1 56 4, dst := bits w1 40 8, sx := bit w1 55, pw := bits w1 32 8 }

/-- A word of the task's context image. -/
def imageWord (s : State) (off : Nat) : Nat := readN s (saveArea s s.self + off) 8

/-- The load records of the image that are in use, each with its place in program order (R401, R407). -/
def imageLoads (s : State) : List Req :=
  (List.range 16).filterMap (fun i =>
    let w1 := imageWord s (0x7C0 + 16 * i + 8)
    if bit w1 63 then
      let st : ReqSt := match bits w1 53 2 with | 0 => .waiting | 1 => .poisoned | 2 => .page | _ => .perm
      let (j, slot) := s.core.task.loadOrd.getD i (0, 0)
      some { recordReq (imageWord s (0x7C0 + 16 * i)) w1 with st := st, data := imageWord s (0x7C0 + 16 * i), j := j, slot := slot }
    else none)

/-- The SNAP words of the image (R399). -/
def imageSnaps (s : State) : List Nat := (List.range 32).map (fun i => imageWord s (0x4C0 + 8 * i))

/-- The payload words of the image (R400). -/
def imagePay (s : State) (i : Nat) : Nat := imageWord s (0x3100 + 8 * i)

/-- A payload word of the image is poisoned (R328, R400). -/
def imagePayBad (s : State) (i : Nat) : Bool := (poisonAt s (saveArea s s.self + 0x3100 + 8 * i) 8).isSome

/-- A bead record of 64 bytes at a place, each of its eight words with its poison mark above them (R328). -/
def beadAt (s : State) (k : Nat) : Nat :=
  readN s k 64 + 2 ^ 512 * packFields 1 (fun i => b2n (poisonAt s (k + 8 * i) 8).isSome) 8

/-- The place of the bead record that queue record i of the image names (R402). -/
def tcqBead (s : State) (i : Nat) : Nat := scratchKey s.self (imageWord s (0x5C0 + 32 * i + 8) % 2 ^ 22)

/-- The number of tensor command queue records of the image (R398, R402). -/
def tcqCount (s : State) : Nat := bits (imageWord s 0) 32 8

/-- The bead records that the tile kept nothing for are read again, their codes checked (R319, R402). -/
def tcqReads (s : State) : State :=
  ((List.range (tcqCount s)).drop s.core.task.kept.length).foldl (fun s i => s.reads (tcqBead s i) 64) s

/-- The tensor command queue records of the image, with BOWN and RG0 to RG7 as restored, and what the tile kept of each (R402,
R407 step 3). -/
def imageTcq (s : State) (rg : List Word) (bown task stage : Nat) : List Tcq :=
  (List.range (tcqCount s)).map (fun i =>
    let w := imageWord s (0x5C0 + 32 * i)
    let a := imageWord s (0x5C0 + 32 * i + 8)
    let (stamp, bead) := s.core.task.kept.getD i (s.core.stamp, beadAt s (tcqBead s i))
    { word := bits w 0 32, et := bits w 32 8, a := a, b := imageWord s (0x5C0 + 32 * i + 16), beadRec := bead, rg := rg,
      bown := bown, task := task, stage := stage, stamp := stamp })

/-- The queue entries that a trap moved into the image of the task that is away; one that is poisoned there is lost (R328, R402; log 67). -/
def awayTcq (s : State) : List Tcq :=
  if s.core.task.away && fld s.core.spr.mcsb 6 1 == 1 && bit (imageWord s 0) 63 then
    let w (off : Nat) : Word := BitVec.ofNat 64 (imageWord s off)
    (((List.range (tcqCount s)).zip (imageTcq s ((List.range 8).map (fun i => w (0x90 + 8 * i))) (w 0x78).toNat (fld (w 0x70) 0 32)
      (w 0x80).toNat)).filter (fun p => (poisonAt s (saveArea s s.self + 0x5C0 + 32 * p.1) 24).isNone)).map (·.2)
  else []

/-- The image of the task that is away read for its queue entries, its codes checked (R319, R402). -/
def awayReads (s : State) : State :=
  if s.core.task.away && fld s.core.spr.mcsb 6 1 == 1 then tcqReads (s.reads (saveArea s s.self) 16384) else s

/-- The first offset in the image of a poisoned word that no mark of the tile stands for: header, special registers, windows, descriptors,
queue and load records, and the address of a failed AMO (R328, R397; log 67). -/
def imageBad (s : State) : Option Nat :=
  if s.poison = [] then none
  else
    let failed := (imageSnaps s).filterMap (fun w =>
      if bit w 63 && bits w 59 4 == 12 && bits w 53 2 != 0 then some (0x3100 + 8 * bits w 8 9) else none)
    (((List.range 28 ++ (List.range 24).map (104 + ·) ++ (List.range 128).map (152 + ·)).map (8 * ·)) ++ failed).find?
      (fun o => (poisonAt s (saveArea s s.self + o) 8).isSome)

/-- The register files of the image; a register whose bytes there are poisoned holds poisoned data (R328, R397; log 67). -/
def imageRegs (s : State) : Regs :=
  let w (off : Nat) : Word := BitVec.ofNat 64 (imageWord s off)
  let v (off : Nat) : VWord := BitVec.ofNat 1024 (readN s (saveArea s s.self + off) 128)
  let acc : Vector (BitVec 32) 512 := Vector.ofFn (fun i => BitVec.ofNat 32 (readN s (saveArea s s.self + 0x2900 + 4 * i.val) 4))
  let q := imageWord s (0x40 + 160)
  let bad (k : Nat) : Bool := (poisonAt s (saveArea s s.self + (imagePlace k).1) (imagePlace k).2).isSome
  let pois := if s.poison = [] then [] else (List.range 162).filter (fun k => k != 0 && k != 144 && bad k)
  { s := Vector.ofFn (fun i => if i.val = 0 then 0 else w (0x100 + 8 * i.val)), q := Vector.ofFn (fun i => bit q i.val),
    v := Vector.ofFn (fun i => v (0x900 + 128 * i.val)), m := Vector.ofFn (fun i => w (0x300 + 8 * i.val)), acc := acc,
    accU := acc, twinS := w (0x40 + 168), twinV := v 0x440, pois := pois }

/-- Step 1 of R407: registers, latches, special registers, windows, staging descriptors and the current bead from the
image; the random-bit queue as its seed and counts (R46). DESIGN CHOICE: WCHK is among them, so that a monitor enables checking mode for
the task in the image's word and an MTS to WCHK enables it only until the ERET (R48, R49, R407; log 73). -/
def loadContext (s : State) : Tile :=
  let t := s.core
  let w (off : Nat) : Word := BitVec.ofNat 64 (imageWord s off)
  let rb := imageWord s (0x40 + 152)
  let chan (i : Nat) : Chan :=
    let a := imageWord s (0x340 + 16 * i)
    let b := imageWord s (0x340 + 16 * i + 8)
    { t.chans.getD i Chan.reset with lo := bits a 0 22, hi := bits a 22 22, wm := bits b 0 22, act := bit b 22 }
  let osb (i : Nat) : Osb :=
    let a := imageWord s (0x3C0 + 16 * i)
    let st := bits a 62 2
    { Osb.reset with st := if st = 0 then 0 else 1, fmt := bits a 60 2, recv := bit a 59, src := bits a 0 56,
                     desc := imageWord s (0x3C0 + 16 * i + 8), refill := st != 0 && !bit a 59 }
  let tstat := setFld (setFld (setFld (w 32) 1 1 0) 0 1 0) 4 1 0
  let tcause := w 16
  { t with
    regs := imageRegs s,
    spr := { t.spr with pc := w 8, tpc := w 8, tcause := tcause, tval := w 24, tstat := setFld tstat 2 1 (fld tcause 12 1),
                        cyc := w 48, fmt := w 0x40, lc := w 0x48, rotw := w 0x58, taskid := w 0x70, bown := w 0x78,
                        stage := w 0x80, wchk := w 0x88, rg := Vector.ofFn (fun i => w (0x90 + 8 * i.val)),
                        snap := Vector.replicate 32 0 },
    chans := Vector.ofFn (fun i => chan i.val), osb := Vector.ofFn (fun i => osb i.val),
    rng := { seed := w (0x40 + 144), gen := bits rb 8 56, count := bits rb 0 5, run := bit rb 5 },
    beads := { t.beads with cur := if bit (imageWord s 0) 62 then some (beadAt s (saveArea s s.self + 0x400) + s.core.beads.cur.getD 0 / 2 ^ 520 * 2 ^ 520) else none },
    l1 := [], fetchRg := [], snapPay := [], snapEn := [], snapPois := [], snapOrd := [], snapDead := [], iss := Iss.reset }

/-- A request with where its address leads (R168, R337); the permission was checked at its first issue. -/
def resolveReq (s : State) (r : Req) : Req :=
  match r.kind, checkRegion s r.va false false false with
  | .beadHdr, _ => r
  | _, .ok d => { r with cls := d.cls, tgt := d.tgt, place := if r.size = 128 then d.place / 64 * 64 else d.place }
  | _, .error _ => { r with st := .perm }

/-- The bytes that a scratchpad access reads, as its address orders them (R53, R317). -/
def readView (s : State) (r : Req) : Nat :=
  if swzVa r.va ∧ r.size = 128 then packFields 64 (fun i => readN s (viewPlace r.cls r.place r.va r.size (8 * i)) 8) 16
  else readN s r.place r.size

/-- The first byte of a scratchpad access that lies in a poisoned chunk (R391). -/
def poisonView (s : State) (r : Req) : Option Nat :=
  if s.poison = [] then none
  else (List.range r.size).find? (fun i => s.poison.contains (poisonUnit (viewPlace r.cls r.place r.va r.size i)))

/-- The performed value of a load of the tile's scratchpad space, or its failure by poison (R172, R319, R328). -/
def performLocal (s : State) (r : Req) : Req :=
  match r.kind with
  | .beadHdr =>
    let b := s.core.beads.cur.getD 0
    if bit b (512 + r.pw) then { r with st := .poisoned, data := 8 * r.pw } else { r with st := .done, data := bits b (64 * r.pw) 64 }
  | .barTest => r
  | _ =>
    if r.cls = 8 ∧ r.st = .waiting then
      match poisonView s r with
      | some i => { r with st := .poisoned, data := r.va + i }
      | none => { r with st := .done, data := readView s r }
    else r

/-- A load or AMO taken as a cause at return: its record or entry is written with V = 0 into the new image (R407). -/
def Req.taken (r : Req) : Req := { r with st := .discarded, data := r.stCode }

/-- The causes that stand at return, in the order of R407: load records and AMO entries, SFLT, a facet discard; with the tile
that remains once one is taken. Within the monitor only live entries and its own loads stand. -/
def standing (t : Tile) : Option (Cause × Nat × Tile) :=
  let bad (r : Req) : Bool := !r.late && (r.kind == .amo || isLoadReq r) && (r.st == .poisoned || r.st == .page || r.st == .perm)
  match oldestOf bad t.reqs with
  | some i =>
    let r := lget (Req.empty .ld) t.reqs i
    some (match r.st with | .poisoned => .poison | .page => .page | _ => .perm, if r.st = .poisoned then r.data else r.va,
      { t with reqs := if fld t.spr.mcsb 6 1 = 1 then lset t.reqs i r.taken else ldel t.reqs i })
  | none =>
    if t.sup then none
    else if t.task.sflt.1 ≠ 0 then
      some (if t.task.sflt.1 = 2 then .page else .perm, t.task.sflt.2, t.onTask (fun k => { k with sflt := (0, 0) }))
    else
      match lfind (fun r : Req => r.st == .discarded) t.reqs with
      | some i =>
        let r := lget (Req.empty .xget) t.reqs i
        some (.facet, r.sco % 8 + 512, { t with reqs := ldel t.reqs i })
      | none => none

/-- The units that a load of the scratchpad space reads have their codes checked (R319). -/
def readUnits (s : State) (r : Req) : State :=
  match r.kind, sortLocal s.self r.va with
  | .beadHdr, _ => s
  | .barTest, _ => s
  | _, some d => s.reads (if r.size = 128 then d.place / 64 * 64 else d.place) r.size
  | _, none => s

/-- The AMO of an away task, or of the monitor, whose entry the monitor has dropped gives its value to none (R522). -/
def Req.dropAway (r : Req) : Req := if r.kind = .amo ∧ r.late then { r with pw := 255 } else r

/-- The first cause that stands at a return is taken before the first bundle; where none does, the loads that are issued again are
performed, as far as they read the scratchpad space (R407). -/
def resume (s : State) (loads : List Req) : State :=
  let s1 := s.onCore (fun t => { t with reqs := t.reqs ++ loads })
  match standing s1.core with
  | some (c, v, t) => takeTrap { s with core := t } c 15 v t.spr.tpc
  | none =>
    let s := loads.foldl readUnits s
    let again := loads.map (fun r => performLocal s (resolveReq s r))
    s.onCore (fun t => { t with reqs := t.reqs ++ again })

/-- The return to the task of R407 steps 1 to 6, from its image: the L1 is invalidated, queue records pushed back behind what the
monitor has pushed, loads
re-issued, AMO and facet values delivered, VALID cleared, snapshot entries put in flight, and the first cause that stands is taken
before the first bundle. -/
def restoreTask (s : State) : State :=
  let s := tcqReads (s.reads (saveArea s s.self) 16384)
  let hdr := imageWord s 0
  let t := loadContext s
  let snaps := imageSnaps s
  let amos := snapAmos snaps (imagePay s) (imagePayBad s) s.core.task.amoOrd
  let fl := snapFlight snaps (imagePay s) (imagePayBad s) s.core.task.maskEn
  let live := (s.core.reqs.filter (fun r => r.kind != .pref)).map (fun r => r.dropAway.back)
  let isGet (r : Req) : Bool := (r.kind == .xget || r.kind == .xstat) && r.st == .done && !r.late
  let tcq := imageTcq s t.spr.rg.toList t.spr.bown.toNat (fld t.spr.taskid 0 32) t.spr.stage.toNat
  let t := { t with flight := fl ++ s.core.task.dead, regs := { t.regs with accU := unitOrder t.regs.acc fl }, tcq := s.core.tcq ++ tcq }
  let t := (live.filter isGet).foldl (fun t r => r.deliver t) t
  let t := deliverAmos t amos
  let t := t.onTask (fun k => { k with run := .running, away := false, regionStart := s.hub.gtc, wd := [], dead := [], amoOrd := [], sflt := if bits hdr 59 2 = 0 then (0, 0) else (bits hdr 59 2, imageWord s 56) })
  let loads := imageLoads s
  let s := writeWords s (saveArea s s.self) [hdr % 2 ^ 63]
  resume { s with core := { t with reqs := live.filter (fun r => !isGet r) ++ amos.filter (fun r => r.st != .done) } } loads

/-- The return within the monitor (R162, R407): the level stays supervisor, the live SNAP entries land at their distances, and one that holds
a failure is taken before the first bundle. -/
def returnSupervisor (s : State) : State :=
  let t := replayLive s.core
  let t := t.onSpr (fun p => { p with pc := p.tpc, tstat := setFld (setFld p.tstat 0 1 (fld p.tstat 1 1)) 2 1 (fld p.tcause 12 1) })
  resume { s with core := { t with iss := Iss.reset, task := { t.task with run := .running, regionStart := s.hub.gtc } } } []

/-- Return from an exception (R162, R407): to the task from its image when PSUP = 0, within the monitor when PSUP = 1. -/
def returnTrap (s : State) : State := if fld s.core.spr.tstat 1 1 = 1 then returnSupervisor s else restoreTask s

/-- A halted task of the tile in focus left an image (R159, R408). -/
def haltImage (s : State) : Bool := fld s.core.spr.mcsb 6 1 == 1 && bit (imageWord s 0) 63

/-- The loads that a trap without a monitor withdrew are issued again; one that had failed stands as a cause (R396, R401, R408). -/
def reissue (s : State) : State :=
  resume (s.onCore (fun t => t.onTask (fun k => { k with wd := [] })))
    (s.core.task.wd.map (fun r =>
      match r.st with | .poisoned => r | .page => r | .perm => r | _ => { r with st := .waiting, frz := false }))

/-- The restart of a halted tile (R159, R408): from its image, from the live registers where it stopped without a monitor, or
at the restart address of a monitor's HALT. -/
def restartTile (s : State) : State :=
  let t := s.core
  match t.task.run with
  | .haltedSup =>
    { s with core := { t with spr := { t.spr with pc := t.task.restart }, task := { t.task with run := .running } } }
  | .halted =>
    if haltImage s then restoreTask s
    else
      let t := replayLive t
      reissue { s with core := { t with spr := { t.spr with pc := t.spr.tpc }, reqs := t.reqs.map Req.back,
                                        task := { t.task with run := .running, away := false } } }
  | .haltedNoMon =>
    let t := replayLive t
    let t := t.onSpr (fun p => { p with pc := p.tpc, tstat := setFld (setFld p.tstat 0 1 0) 2 1 (fld p.tcause 12 1) })
    reissue { s with core := { t with reqs := t.reqs.map Req.back,
                                      task := { t.task with run := .running, away := false, regionStart := s.hub.gtc } } }
  | _ => s

end Sys2Proof.Machine
end

