-- ==== Sys2Proof/Machine/Operands.lean ====
section
/-! DEFINITION. Operands: guards, the registers an operation reads and lands on, ports, latencies and features (R90 to R95,
R101, R107 to R110, R472). -/

namespace Sys2Proof.Machine

/-- A slot's guard (R90, R91). -/
inductive Guard where
  | always
  | pred (n : Nat) (neg : Bool)
  | lane (m : Nat)
  deriving DecidableEq, Repr

/-- The guard of an S or T format (R90). -/
def stGuard (n : Fin 2) (g : Fin 16) : Guard := if n.val = 0 ∧ g.val = 0 then .always else .pred g.val (n.val == 1)

/-- The guard of a V format (R91). -/
def vGuard (g : Fin 16) : Guard :=
  if g.val = 0 then .always else if g.val < 8 then .lane g.val else .pred g.val false

/-- The guard of an operation; BR.G, SEL and the unguarded formats have none (R90, R146, R152). -/
def guardOf (i : Instr) : Guard :=
  match i with
  | .add o | .sub o | .and o | .or o | .xor o | .andn o | .shl o | .shr o | .sra o | .mul o | .mulhI o | .mulhN o
  | .minI o | .minN o | .maxI o | .maxN o | .xq2m o => stGuard o.n o.g
  | .clz o | .popc o => stGuard o.n o.g
  | .addi o | .andi o | .ori o | .xori o | .muli o | .miniI o | .miniN o | .maxiI o | .maxiN o | .xv2sN8 o
  | .xv2sI8 o | .xv2sN16 o | .xv2sI16 o | .xv2sN32 o | .xv2sI32 o | .xv2sN64 o | .ldBI o | .ldBN o | .ldHI o
  | .ldHN o | .ldWI o | .ldWN o | .ldD o | .stB o | .stH o | .stW o | .stD o | .stGB o | .stGH o | .stGW o | .stGD o => stGuard o.n o.g
  | .shli o | .shri o | .srai o => stGuard o.n o.g
  | .cmp o => stGuard o.n o.g
  | .cmpi o => stGuard o.n o.g
  | .pand o | .por o | .pxor o => stGuard o.n o.g
  | .pnot o => stGuard o.n o.g
  | .br o | .loop o => stGuard o.n o.g
  | .brc o => stGuard o.n o.g
  | .jmp o | .ret o | .setlc o | .waitc o | .chkS o => stGuard o.n o.g
  | .call o => stGuard o.n o.g
  | .loopr o => stGuard o.n o.g
  | .trap o => stGuard o.n o.g
  | .eret o | .halt o | .retire o => stGuard o.n o.g
  | .mfs o => stGuard o.n o.g
  | .mts o | .pref o => stGuard o.n o.g
  | .fence o => stGuard o.n o.g
  | .vadd o | .vsub o | .vmul o | .vfma o | .vfms o | .vfnma o | .vmax o | .vmin o | .vclamp o | .vminInt o
  | .vmaxInt o | .vpackMx o | .vnorm o | .vsmax o | .vq8 o => vGuard o.g
  | .vabs o | .vneg o | .vunpkMx o | .vexp2 o | .vlog2 o | .vrcp o | .vrsq o | .vtanh o | .vrsum o | .vrmax o
  | .vrmin o | .vbfacc o | .vbfexp o => vGuard o.g
  | .vcmp o | .vcmpI o => vGuard o.g
  | .vsel o => vGuard o.g
  | .vaddI o | .vsubI o | .vmulI o | .vand o | .vor o | .vxor o | .vshl o | .vshr o | .vsra o | .vperm o | .vzip o
  | .vuzp o => vGuard o.g
  | .vcvt o => vGuard o.g
  | .vcvtSr o => vGuard o.g
  | .vtrn o => vGuard o.g
  | .vrot o | .vbcst o => vGuard o.g
  | .vstatW o => vGuard o.g
  | .vstatR o => vGuard o.g
  | .vmom o => vGuard o.g
  | .vpprob o => vGuard o.g
  | .vld o | .vst o => vGuard o.g
  | .vstM o => vGuard o.g
  | .vldb o => vGuard o.g
  | .vmov o | .xs2v o | .xm2q o => vGuard o.g
  | .vli o => vGuard o.g
  | .chkV o => vGuard o.g
  | .xmvm o | .xmvt o => stGuard o.n o.g
  | .xupdA o | .xupdC o | .xupdD o => stGuard o.n o.g
  | .xfer o | .xferR o | .xrst o | .xsymLd o | .xsymSt o | .xcfgW o | .xcfgR o | .xcfgWa o | .xcfgRa o | .xcfgWc o
  | .xcfgRc o => stGuard o.n o.g
  | .xrstAll o | .xsymCal o | .xmodeR o | .xwait o => stGuard o.n o.g
  | .xget o => stGuard o.n o.g
  | .xmodeN o => stGuard o.n o.g
  | .xstat o | .xstatPc o => stGuard o.n o.g
  | .mxld o => stGuard o.n o.g
  | .mxldR o => stGuard o.n o.g
  | .mma o | .mmaz o => stGuard o.n o.g
  | .mmag o => stGuard o.n o.g
  | .mxrd o | .mxwr o => stGuard o.n o.g
  | .mxclr o => stGuard o.n o.g
  | .cpy o | .cpyw o | .fill o | .gath o | .barTest o | .chset o => stGuard o.n o.g
  | .barInit o | .barExp o | .barArr o | .barWait o | .beadSend o => stGuard o.n o.g
  | .bankAcq o | .bankRel o | .beadDone o | .rngSeed o => stGuard o.n o.g
  | .beadRecv o => stGuard o.n o.g
  | .beadHdr o => stGuard o.n o.g
  | .dupS o => stGuard o.n o.g
  | _ => .always

/-- Whether a guard enables its operation; a lane guard enables the slot (R90, R91). -/
def Guard.on (g : Guard) (t : Tile) : Bool :=
  match g with
  | .always => true
  | .pred n neg => t.pred n != neg
  | .lane _ => true

/-- The lane-guard mask, all ones without one (R91). -/
def Guard.mask (g : Guard) (t : Tile) : Word :=
  match g with | .lane m => t.mask m | _ => BitVec.allOnes 64

/-- The registers that an operation reads, each as often as fields name it (R108). -/
structure Srcs where
  s : List Nat := []
  q : List Nat := []
  v : List Nat := []
  m : List Nat := []
  deriving DecidableEq, Repr

/-- The fourth operand of a VA form: C, which is D without a header (R93). -/
def opC (h : Fin 2) (e : Fin 256) (d : Fin 64) : Nat := if h.val = 0 then d.val else extC e

/-- The source registers of an operation (R108 and each instruction's rule). DESIGN CHOICE: the stage predicates q8 to q(6 + S) that LOOPR
reads without a field take no read port (R108; log 70). -/
def srcOf (i : Instr) : Srcs :=
  match i with
  | .add o | .sub o | .and o | .or o | .xor o | .andn o | .shl o | .shr o | .sra o | .mul o | .mulhI o | .mulhN o
  | .minI o | .minN o | .maxI o | .maxN o => { s := [o.a, o.b] }
  | .clz o | .popc o => { s := [o.a] }
  | .sel o => { s := [o.a, o.b], q := [o.q] }
  | .amoAdd o | .amoMinI o | .amoMinN o | .amoMaxI o | .amoMaxN o | .amoAnd o | .amoOr o | .amoXor o
  | .amoXchg o => { s := [o.a, o.b] }
  | .amoCas o => { s := [o.a, o.b, o.d] }
  | .addi o | .andi o | .ori o | .xori o | .muli o | .miniI o | .miniN o | .maxiI o | .maxiN o => { s := [o.a] }
  | .shli o | .shri o | .srai o => { s := [o.a] }
  | .ldhi o => { s := [o.d] }
  | .cmp o => { s := [o.a, o.b] }
  | .cmpi o => { s := [o.a] }
  | .pand o | .por o | .pxor o => { q := [o.a, o.b] }
  | .pnot o => { q := [o.a] }
  | .brc o => { q := [o.q] }
  | .jmp o | .ret o | .setlc o | .waitc o | .chkS o => { s := [o.a] }
  | .mts o => { s := [o.a] }
  | .xv2sN8 o | .xv2sI8 o | .xv2sN16 o | .xv2sI16 o | .xv2sN32 o | .xv2sI32 o | .xv2sN64 o => { v := [o.a] }
  | .xq2m o => { s := [o.a], q := [o.b] }
  | .ldBI o | .ldBN o | .ldHI o | .ldHN o | .ldWI o | .ldWN o | .ldD o => { s := [o.a] }
  | .pref o => { s := [o.a] }
  | .stB o | .stH o | .stW o | .stD o | .stGB o | .stGH o | .stGW o | .stGD o => { s := [o.a, o.d] }
  | .vadd o | .vsub o | .vmul o | .vmax o | .vmin o => { v := [o.a, o.b] }
  | .vfma o | .vfms o | .vfnma o | .vclamp o => { v := [o.a, o.b, opC o.h o.e o.d] }
  | .vabs o | .vneg o | .vexp2 o | .vlog2 o | .vrcp o | .vrsq o | .vtanh o | .vrsum o | .vrmax o | .vrmin o
  | .vunpkMx o => { v := [o.a] }
  | .vcmp o | .vcmpI o => { v := [o.a, o.b] }
  | .vsel o => { v := [o.a, o.b], m := [o.m] }
  | .vaddI o | .vsubI o | .vmulI o | .vand o | .vor o | .vxor o | .vshl o | .vshr o | .vsra o | .vperm o | .vzip o
  | .vuzp o => { v := [o.a, o.b] }
  | .vminInt o | .vmaxInt o => { v := [o.a, o.b] }
  | .vcvt o => { v := [o.a] }
  | .vcvtSr o => { v := [o.a] }
  | .vpackMx o => if extMod o.e % 2 = 1 then { v := [o.a, o.b] } else { v := [o.a] }
  | .vrot o | .vbcst o => { v := [o.a] }
  | .vtrn o => { v := (List.range 8).map (o.a.val + ·) }
  | .vstatW o => { v := [o.a, o.b] }
  | .vstatR o => { v := [o.b] }
  | .vmom o => { v := [o.a, o.b] }
  | .vnorm o | .vsmax o => { v := [o.a, o.b] }
  | .vbfacc o => { v := [o.d, o.d + 1, o.a] }
  | .vbfexp o => { v := [o.a, o.a + 1] }
  | .vpprob o => { v := [o.a, o.b] }
  | .vq8 o => { v := [o.a, o.b] }
  | .vld o => { s := [o.a] }
  | .vldb o => { s := [o.a] }
  | .vst o => { s := [o.a], v := [o.d] }
  | .vstM o => { s := [o.a], v := [o.d], m := [o.m] }
  | .vmov o => { v := [o.a] }
  | .xs2v o => { s := [o.a] }
  | .xm2q o => { m := [o.a] }
  | .chkV o => { v := [o.a] }
  | .xmvm o | .xmvt o => { s := [o.a, o.b] }
  | .xupdA o | .xupdC o | .xupdD o => { s := [o.a, o.b] }
  | .xfer o | .xferR o | .xrst o | .xsymLd o | .xsymSt o | .xcfgW o | .xcfgR o | .xcfgWa o | .xcfgRa o | .xcfgWc o
  | .xcfgRc o => { s := [o.a] }
  | .mxld o => { s := [o.a, o.b] }
  | .mxldR o => { s := [o.b] }
  | .mmag o => { s := [o.a] }
  | .mxwr o => { v := [o.a] }
  | .cpy o | .cpyw o | .fill o | .gath o | .chset o | .barTest o => { s := [o.a, o.b] }
  | .barInit o | .barExp o | .barArr o | .barWait o | .beadSend o => { s := [o.a, o.b] }
  | .bankAcq o | .bankRel o | .beadDone o | .rngSeed o => { s := [o.a] }
  | .dupS o => if dupSa o.f.val then (if o.f.val < 17 then { s := [o.a, o.b] } else { s := [o.a] }) else { s := [o.a] }
  | _ => {}

/-- The register files' names, as Regs.pois gives them, of what an operation reads: its sources, the mask of its lane guard, and the
accumulator of MXRD (R91, R108, R270). -/
def srcKeys (t : Tile) (i : Instr) : List Nat :=
  let x := srcOf i
  let w := t.spr.rotw
  let acc : List Nat := match i with | .mxrd o => [136 + o.c] | _ => []
  let lanes : List Nat := match guardOf i with | .lane m => [128 + m] | _ => []
  (x.s.filter (· != 0)).map (physS w) ++ x.v.map (fun n => 64 + physV w n) ++ x.m.map (128 + ·) ++
    (x.q.filter (· != 0)).map (fun n => 144 + physQ w n) ++ acc ++ lanes

/-- An accumulator holds poisoned data once every result in flight on it has been made, which is what an operation that adds to it reads
(R103, R328; log 67). -/
def accPois (t : Tile) (c : Nat) : Bool :=
  t.flight.foldl (fun b x =>
    match x.what with
    | .acc n rows _ _ => if x.live && n == c then x.pois || (b && rows != 255) else b
    | _ => b) (t.regs.pois.contains (136 + c))

/-- An operation reads poisoned data, so that its results are poisoned (R328; log 67). -/
def taints (t : Tile) (i : Instr) : Bool :=
  (t.regs.pois != [] && (srcKeys t i).any t.regs.pois.contains) ||
    (match i with | .mma o => accPois t o.c | .mmag o => accPois t o.c | _ => false)

/-- What an exposed landing reaches, by logical name (R51, R109); a vector landing with the byte pairs it may write. -/
inductive Dst where
  | none
  | s (n : Nat)
  | q (n : Nat)
  | v (n : Nat) (en : Nat)
  | m (n : Nat)
  | pair (n : Nat)
  | oct (n : Nat)
  | acc (n rows kind : Nat)
  | twinS
  | fmt
  deriving DecidableEq, Repr

/-- Every byte pair of a vector register. -/
def enAll : Nat := 2 ^ 64 - 1

/-- The byte pairs of part p of a register cut into parts of w bits (R211, R227). -/
def enPart (w p : Nat) : Nat := (2 ^ (w / 16) - 1) * 2 ^ (w / 16 * p)

/-- The byte pairs that a conversion writes (R211). -/
def cvtEn (s t p : Nat) : Nat :=
  if cvtWidth s ≥ cvtWidth t then enPart (1024 * cvtWidth t / cvtWidth s) p else enAll

/-- The latency of a matrix format code 0 BF16, 1 MXINT8, 2 MXINT6, 3 MXINT4 (R101). -/
def mmaLat (f : Nat) : Nat := match f with | 0 => 12 | 1 => 14 | 2 => 13 | _ => 12

/-- The matrix format of an MF field: 0 takes FMT.AFMT (R94, R267). -/
def mmaFmt (m : Fin 8) (fmt : Word) : Nat := if m.val = 0 then fld fmt 0 3 else m.val - 1

/-- The latency of an S operation that DUP.S may run (R101, R116). -/
def saLat (fn : Nat) : Nat := if fn = 10 ∨ fn = 11 ∨ fn = 12 ∨ fn = 42 then 3 else 1

/-- The exposed landing of an operation and its latency (R101, R206). -/
def dstOf (i : Instr) (fmt : Word) : Dst × Nat :=
  match i with
  | .add o | .sub o | .and o | .or o | .xor o | .andn o | .shl o | .shr o | .sra o | .minI o | .minN o | .maxI o
  | .maxN o => (.s o.d, 1)
  | .mul o | .mulhI o | .mulhN o => (.s o.d, 3)
  | .clz o | .popc o => (.s o.d, 1)
  | .sel o => (.s o.d, 1)
  | .addi o | .andi o | .ori o | .xori o | .miniI o | .miniN o | .maxiI o | .maxiN o => (.s o.d, 1)
  | .muli o => (.s o.d, 3)
  | .shli o | .shri o | .srai o => (.s o.d, 1)
  | .ldi o => (.s o.d, 1)
  | .ldhi o => (.s o.d, 1)
  | .cmp o => (.q o.q, 1)
  | .cmpi o => (.q o.q, 1)
  | .pand o | .por o | .pxor o => (.q o.q, 1)
  | .pnot o => (.q o.q, 1)
  | .call o => (.s o.d, 1)
  | .loopr _ => (.q 15, 1)
  | .mfs o => (.s o.d, 1)
  | .mts o => if o.i.val = 2 then (.fmt, 4) else (.none, 0)
  | .setfmt _ => (.fmt, 4)
  | .xv2sN8 o | .xv2sI8 o | .xv2sN16 o | .xv2sI16 o | .xv2sN32 o | .xv2sI32 o | .xv2sN64 o => (.s o.d, 3)
  | .xq2m o => (.m o.d, 2)
  | .vadd o | .vsub o | .vmul o | .vfma o | .vfms o | .vfnma o => (.v o.d enAll, 4)
  | .vmax o | .vmin o | .vclamp o => (.v o.d enAll, 2)
  | .vabs o | .vneg o => (.v o.d enAll, 2)
  | .vexp2 o | .vlog2 o | .vrcp o | .vrsq o | .vtanh o => (.v o.d enAll, 8)
  | .vrsum o | .vrmax o | .vrmin o => (.v o.d enAll, 6)
  | .vunpkMx o => (.v o.d enAll, 3)
  | .vcmp o | .vcmpI o => (.m o.m, 2)
  | .vsel o => (.v o.d enAll, 2)
  | .vaddI o | .vsubI o | .vand o | .vor o | .vxor o | .vshl o | .vshr o | .vsra o | .vperm o | .vzip o
  | .vuzp o => (.v o.d enAll, 2)
  | .vmulI o => (.v o.d enAll, 4)
  | .vminInt o | .vmaxInt o => (.v o.d enAll, 2)
  | .vcvt o => (.v o.d (cvtEn o.s o.t (extMod o.e)), 3)
  | .vcvtSr o => (.v o.d (cvtEn o.s o.t (extMod o.e)), 3)
  | .vpackMx o => (.v o.d enAll, 3)
  | .vrot o | .vbcst o => (.v o.d enAll, 2)
  | .vtrn o => (.oct o.d, 4)
  | .vstatR o => (.v o.d enAll, 4)
  | .vnorm o | .vsmax o => (.v o.d enAll, 8)
  | .vbfacc o => (.pair o.d, 6)
  | .vbfexp o => (.v o.d enAll, 4)
  | .vpprob o => (.v o.d enAll, 4)
  | .vq8 o => (.v o.d (if o.f.val = 0 then enPart 512 (extMod o.e) else enPart 256 (extMod o.e)), 4)
  | .vmov o => (.v o.d enAll, 1)
  | .vli o => (.v o.d enAll, 1)
  | .xs2v o => (.v o.d enAll, 3)
  | .xm2q o => (.q o.d, 2)
  | .mma o | .mmaz o => (.acc o.c 255 6, mmaLat (mmaFmt o.m fmt))
  | .mmag o => (.acc o.c 255 6, mmaLat (mmaFmt o.m fmt))
  | .mxrd o => (.v o.a enAll, 4)
  | .mxwr o => (if o.k.val = 0 then .acc o.c 15 7 else if o.k.val = 1 then .acc o.c 240 8 else .acc o.c 255 6, 2)
  | .mxclr o => (.acc o.c 255 6, 1)
  | .dupS o => (.twinS, saLat o.f.val)
  | _ => (.none, 0)

/-- Whether a V operation writes a vector or mask register that TW can divert (R87). -/
def twCapable (i : Instr) : Bool :=
  match i with
  | .vbfacc _ => false
  | i => match (dstOf i 0).1 with | .v _ _ => true | .m _ => true | .oct _ => true | _ => false

/-- Whether an operation consumes random bits (R64, R65). -/
def isRandom (i : Instr) : Bool :=
  match i with
  | .vcvtSr _ => true
  | .vpackMx o => extMod o.e ≥ 2
  | .vpprob o => extMod o.e == 0
  | _ => false

/-- Whether an operation adds an outstanding load (R401). -/
def isLoad (i : Instr) : Bool :=
  match i with
  | .ldBI _ | .ldBN _ | .ldHI _ | .ldHN _ | .ldWI _ | .ldWN _ | .ldD _ => true
  | .vld _ => true
  | .vldb _ => true
  | .barTest _ => true
  | .beadHdr _ => true
  | _ => false

/-- Whether an operation is an AMO. -/
def isAmo (i : Instr) : Bool :=
  match i with
  | .amoAdd _ | .amoMinI _ | .amoMinN _ | .amoMaxI _ | .amoMaxN _ | .amoAnd _ | .amoOr _ | .amoXor _ | .amoXchg _
  | .amoCas _ => true
  | _ => false

/-- An FMT value whose format codes the accepted features leave assigned (R472). -/
def fmtFeat (feat v : Nat) : Bool := bit feat 3 || (v % 8 < 2 && v / 8 % 8 < 2)

/-- Whether the accepted features leave an operation assigned (R472). -/
def featOk (feat : Nat) (i : Instr) : Bool :=
  match i with
  | .xmvm _ | .xmvt _ | .xupdA _ | .xupdC _ | .xupdD _ | .xfer _ | .xferR _ | .xrst _ | .xrstAll _ | .xsymCal _
  | .xsymLd _ | .xsymSt _ | .xget _ | .xcfgW _ | .xcfgR _ | .xcfgWa _ | .xcfgRa _ | .xcfgWc _ | .xcfgRc _ | .xmodeN _
  | .xmodeR _ | .xstat _ | .xstatPc _ | .xwait _ => bit feat 1
  | .mxld o => bit feat 2 && (o.f.val < 2 || bit feat 3)
  | .mxldR _ => bit feat 2
  | .mma o | .mmaz o => bit feat 2 && (o.m.val < 3 || bit feat 3)
  | .mmag o => bit feat 2 && (o.m.val < 3 || bit feat 3)
  | .mxrd _ | .mxwr _ | .mxclr _ => bit feat 2
  | .setfmt o => fmtFeat feat o.i
  | .vpackMx o => (o.f.val % 4 == 1 || bit feat 3) && (extMod o.e < 2 || bit feat 4)
  | .vunpkMx o => o.f.val % 4 == 1 || bit feat 3
  | .vcvtSr _ => bit feat 4
  | .vpprob o => extMod o.e != 0 || bit feat 4
  | .rngSeed _ => bit feat 4
  | .gath _ => bit feat 5
  | .beadRecv _ | .beadSend _ | .beadDone _ | .beadHdr _ => bit feat 6
  | _ => true

/-- The TVAL of a decode failure of a slot (R99). -/
def illegalTval (i : Instr) : Nat :=
  match i with
  | .mfs o => if specIndex o.i.val then slotWordOf i else o.i.val
  | .mts o => if specIndex o.i.val then slotWordOf i else o.i.val
  | .setfmt _ => 2
  | i => slotWordOf i

/-- Whether a request that awaits its value marks a scalar register pending (R102). -/
def pendScalar (r : Req) : Bool :=
  !r.late && r.dst != 0 &&
    (match r.kind with
     | .ld => true | .amo => true | .barTest => true | .beadHdr => true | .xstat => true | .xget => r.op != 10
     | _ => false)

/-- Whether a request that awaits its value marks a vector register pending (R102). -/
def pendVector (r : Req) : Bool :=
  !r.late && (match r.kind with | .vld => true | .vldb => true | .xget => r.op == 10 | _ => false)

/-- A physical scalar register is pending. -/
def Tile.sPend (t : Tile) (p : Nat) : Bool := t.reqs.any (fun r => pendScalar r && r.dst == p)

/-- A physical vector register is pending. -/
def Tile.vPend (t : Tile) (p : Nat) : Bool := t.reqs.any (fun r => pendVector r && r.dst == p)

/-- An operation reads a pending register (R102). -/
def readsPending (t : Tile) (i : Instr) : Bool :=
  let x := srcOf i
  x.s.any (fun n => t.sPend (physS t.spr.rotw n)) || x.v.any (fun n => t.vPend (physV t.spr.rotw n))

/-- The pending register that an exposed landing of an operation would write, with its file code (R99, R102). -/
def writesPending (t : Tile) (i : Instr) (tw : Bool) : Option (Nat × Nat) :=
  let w := t.spr.rotw
  let v (n : Nat) : Option (Nat × Nat) := if t.vPend (physV w n) then some (3, physV w n) else none
  if tw then none
  else
    match (dstOf i 0).1 with
    | .s n => if t.sPend (physS w n) then some (1, physS w n) else none
    | .v n _ => v n
    | .pair n => (v n).or (v (n + 1))
    | .oct n => (List.range 8).findSome? (fun k => v (n + k))
    | _ => none

/-- The landings that an operation counts when it is guarded off: its targets without values (R90). -/
def deadLand (t : Tile) (i : Instr) (tw : Bool) : List Landing :=
  let w := t.spr.rotw
  let (d, l) := dstOf i t.spr.fmt
  let mk (x : Land) : List Landing := [{ what := x, d := l, j := 0, live := false, pois := false }]
  match d with
  | .none => []
  | .s n => mk (.sreg (physS w n) 0)
  | .q n => mk (.pred (physQ w n) false)
  | .m n => if tw then mk (.twinM 0 0) else mk (.mask n 0 0)
  | .v n en => if tw then mk (.twinV 0 0) else mk (.vec (physV w n) (BitVec.ofNat 64 en) 0)
  | .pair n => mk (.pair (physV w n) (physV w (n + 1)) 0 0)
  | .oct n => if tw then mk (.twinV 0 0) else mk (.octet ((List.range 8).map (fun k => physV w (n + k))) [])
  | .acc n rows kind => mk (.acc n rows [] kind)
  | .twinS => mk (.twinS 0)
  | .fmt => mk (.fmt 0)

/-- The file code and port count of a landing: 1 S, 2 predicate, 3 vector, 4 mask, 0 none (R99, R109). -/
def landPorts (l : Land) : Nat × Nat :=
  match l with
  | .sreg _ _ => (1, 1)
  | .pred _ _ => (2, 1)
  | .vec _ _ _ => (3, 1)
  | .pair _ _ _ _ => (3, 2)
  | .octet _ _ => (3, 3)
  | .mask _ _ _ => (4, 1)
  | _ => (0, 0)

/-- The exposed landings on a file that fall to a landing bundle, among landings whose distances count from this bundle
(R109). -/
def portLoad (ls : List Landing) (file d : Nat) : Nat :=
  ((ls.filter (fun x => x.d == d && (landPorts x.what).1 == file)).map (fun x => (landPorts x.what).2)).sum

/-- Whether two landings of one bundle reach one target at one bundle; partial vector landings that write different byte
pairs do not, and s0 and q0 are targets like any other (R51, R211; log A20). -/
def sameTarget (x y : Landing) : Bool :=
  x.d == y.d &&
    (match x.what, y.what with
     | .sreg a _, .sreg b _ => a == b
     | .pred a _, .pred b _ => a == b
     | .mask a _ _, .mask b _ _ => a == b
     | .vec a e _, .vec b f _ => a == b && (e &&& f) != 0
     | .vec a _ _, .pair b c _ _ => a == b || a == c
     | .pair b c _ _, .vec a _ _ => a == b || a == c
     | .pair a b _ _, .pair c d _ _ => a == c || a == d || b == c || b == d
     | .acc a r _ _, .acc b q _ _ => a == b && (r &&& q) != 0
     | .twinS _, .twinS _ => true
     | .fmt _, .fmt _ => true
     | _, _ => false)

/-- The payload bytes of a landing in the context image (R400). -/
def payloadBytes (l : Land) : Nat :=
  match l with
  | .sreg _ _ => 8
  | .pred _ _ => 8
  | .mask _ _ _ => 16
  | .vec _ _ _ => 136
  | .pair _ _ _ _ => 256
  | .octet _ _ => 1024
  | .acc _ _ _ k => if k = 6 then 256 else 128
  | .fmt _ => 8
  | .twinS _ => 8
  | .twinV _ _ => 136
  | .twinM _ _ => 136

end Sys2Proof.Machine
end

