-- ==== Sys2Proof/Machine/Flags.lean ====
section
/-! DEFINITION. Conditions and mask results (this machine keeps no flags: R55, R58; comparisons write predicates and masks). -/

namespace Sys2Proof.Machine

/-- A value sign-extended from w bits, as a 64-bit natural (R50, R55). -/
def sx64 (x w : Nat) : Nat := wrap 64 (sext x w)

/-- The truth of a CND code of CMP and CMPI over 64-bit naturals (R147). -/
def cmpCond (c x y : Nat) : Bool :=
  match c with
  | 0 => x == y
  | 1 => x != y
  | 2 => decide (sext x 64 < sext y 64)
  | 3 => decide (sext y 64 ≤ sext x 64)
  | 4 => decide (x < y)
  | _ => decide (y ≤ x)

/-- The immediate of CMPI under a CND code: signed for 0 to 3, natural for lt.n and ge.n (R147). -/
def cmpImm (c i : Nat) : Nat := if c < 4 then sx64 i 7 else i % 128

/-- The truth of a VC condition over float lanes (R93, R208). -/
def fCond (c : Nat) (a b : FVal) : Bool :=
  let un := a.isNan || b.isNan
  match c with
  | 0 => feq a b
  | 1 => !feq a b
  | 2 => !un && fless a b
  | 3 => !un && !fless b a
  | 4 => !un && fless b a
  | 5 => !un && !fless a b
  | _ => un

/-- The truth of a VC condition over integer lanes of width w (R93, R208). -/
def iCond (c : Nat) (natural : Bool) (w a b : Nat) : Bool :=
  let x : Int := if natural then (a % 2 ^ w : Nat) else sext a w
  let y : Int := if natural then (b % 2 ^ w : Nat) else sext b w
  match c with
  | 0 => decide (x = y)
  | 1 => decide (x ≠ y)
  | 2 => decide (x < y)
  | 3 => decide (x ≤ y)
  | 4 => decide (y < x)
  | _ => decide (y ≤ x)

/-- Whether a mask selects lane i of width w (R20). -/
def laneOn (w : Nat) (m : Word) (i : Nat) : Bool := bit m.toNat (if w = 8 then i / 2 else i)

/-- The byte pairs that a mask enables at width w (R20, R400). -/
def pairsOf (w : Nat) (m : Word) : Word :=
  if m = BitVec.allOnes 64 then m else ofMaskBits 64 (fun k => bit m.toNat (if w ≤ 16 then k else k / (w / 16)))

/-- The number of lanes of width w (R19). -/
def lanesOf (w : Nat) : Nat := 1024 / w

/-- The mask bits that a comparison at width w writes under a lane guard: enabled lanes, and every bit at or above the lane
count (R20, R208). -/
def maskEnable (w : Nat) (g : Word) : Word :=
  ofMaskBits 64 (fun k => if w = 8 then bit g.toNat k else decide (lanesOf w ≤ k) || bit g.toNat k)

/-- The mask value of a comparison with lane results t: at width 8 a pair of lanes makes one bit (R20, R208). -/
def maskValue (w : Nat) (t : Nat → Bool) : Word :=
  ofMaskBits 64 (fun k => if w = 8 then t (2 * k) && t (2 * k + 1) else decide (k < lanesOf w) && t k)

/-! ## Atomic operations -/

/-- The word that an AMO writes over the old word m of w bits, none for a compare that fails (R176). -/
def amoNew (code w m b c : Nat) : Option Nat :=
  match code with
  | 0 => some ((m + b) % 2 ^ w)
  | 1 => some (if sext b w < sext m w then b else m)
  | 2 => some (Nat.min m b)
  | 3 => some (if sext m w < sext b w then b else m)
  | 4 => some (Nat.max m b)
  | 5 => some (m &&& b)
  | 6 => some (m ||| b)
  | 7 => some (m ^^^ b)
  | 8 => some b
  | _ => if m = c then some b else none

end Sys2Proof.Machine
end

