-- ==== Sys2Proof/Machine/Stages.lean ====
section
/-! DEFINITION. Bead fields, stage queues and stage faults, which the tile core's retirement shares with the bead scheduler
(R374, R383, R387). -/

namespace Sys2Proof.Machine

/-- A bead's KIND: 1 forward, 2 backward, 3 Pendant evaluation, 4 control (R374). -/
def beadKind (b : Nat) : Nat := bits b 88 8

/-- A bead's STEP (R374). -/
def beadStep (b : Nat) : Nat := bits b 0 32

/-- A bead's BID (R374). -/
def beadBid (b : Nat) : Nat := bits b 32 32

/-- A bead's MB (R374). -/
def beadMb (b : Nat) : Nat := bits b 112 16

/-- A bead's DST (R374). -/
def beadDst (b : Nat) : Nat := bits b 128 15

/-- A bead's PND bit (R374). -/
def beadPnd (b : Nat) : Bool := bit b 83

/-- The stage that delivered a bead. -/
def beadStage (b : Nat) : Nat := bits b 520 6

/-- How often the scheduler had been restored when it delivered a bead (R290, R420). -/
def beadEpoch (b : Nat) : Nat := b / 2 ^ 526

/-- The restores of a die's bead scheduler. -/
def epochOf (s : State) (d : Nat) : Nat := (s.clasp (4 * d + 1)).restores

/-- A bead as it was before its delivery: without STEPEND, NOSTASH and the marks of delivery. -/
def bareBead (b : Nat) : Nat := setBits (b % 2 ^ 520) 80 2 0

/-- The name of stage i of die d (R371). -/
def stageName (s : State) (d i : Nat) : Nat := fld s.hub.prcfg 0 5 * 1024 + d * 64 + i

/-- The entry is valid: V (R371, R373). -/
def Stage.valid (x : Stage) : Bool := bit x.w1.toNat 63

/-- The last stage of a chain: NNONE (R371). -/
def Stage.nnone (x : Stage) : Bool := bit x.w1.toNat 40

/-- The first stage of a chain: PNONE (R371). -/
def Stage.pnone (x : Stage) : Bool := bit x.w1.toNat 24

/-- Micro-batches per step: STEPMB (R371). -/
def Stage.stepMb (x : Stage) : Nat := fld x.w2 48 16

/-- The current step: STEP (R371). -/
def Stage.step (x : Stage) : Nat := fld x.w2 0 32

/-- Whether a bead closes its micro-batch here: the backward bead, or the forward bead at the last stage (R380). -/
def Stage.isClosing (x : Stage) (b : Nat) : Bool := beadKind b == (if x.nnone then 1 else 2)

/-- The micro-batch of a bead has failed at the stage (R386). -/
def Stage.hasFailed (x : Stage) (b : Nat) : Bool := beadKind b != 3 && x.failed.contains (beadStep b, beadMb b)

/-- The micro-batch of a bead has an open entry (R380). -/
def Stage.isOpen (x : Stage) (b : Nat) : Bool := x.opens.any (fun o => o.step == beadStep b && o.mb == beadMb b)

/-- A bead put at the head of its queue. -/
def Stage.pushHead (x : Stage) (b : Nat) : Stage :=
  match beadKind b with
  | 4 => { x with ctl := b :: x.ctl }
  | 2 => { x with bwd := b :: x.bwd }
  | _ => { x with fwd := b :: x.fwd }

/-- A bead put at the tail of its queue (R376). -/
def Stage.pushTail (x : Stage) (b : Nat) : Stage :=
  match beadKind b with
  | 4 => { x with ctl := x.ctl ++ [b] }
  | 2 => { x with bwd := x.bwd ++ [b] }
  | _ => { x with fwd := x.fwd ++ [b] }

/-- A mailbox bead returned to the head of its queue, its delivery undone: the entry that it opened, its place in the warm-up and
its count as a closing bead, where these are of its step still (R379, R384, R387; log A28). -/
def Stage.takeBack (x : Stage) (b : Nat) : Stage :=
  if x.hasFailed b then x
  else
    let now : Bool := x.stepMb == 0 || beadStep b == x.step
    let x := if beadKind b = 1 then
        { x with opens := x.opens.filter (fun o => !(o.step == beadStep b && o.mb == beadMb b)), warm := if now then x.warm - 1 else x.warm }
      else x
    let x := if x.isClosing b ∧ x.stepMb ≠ 0 ∧ now then { x with closedSent := x.closedSent - 1 } else x
    x.pushHead (bareBead b)

/-- A Pendant bead of this module that is dropped without a notice: its batch waits for a bead that never returns (R444). -/
def loseBead (s : State) (b : Nat) : State :=
  let bid := beadBid b
  let mark (x : Job) : Job :=
    { x with batches := x.batches.map (fun c => if c.buf = bits bid 18 3 ∧ c.seq = bits bid 0 18 then { c with lost := true } else c) }
  if beadKind b ≠ 3 ∨ bits bid 27 5 ≠ fld s.hub.prcfg 0 5 then s
  else s.onDie (bits bid 23 4) (fun x => { x with pend := { x.pend with
    jobs := x.pend.jobs.setIfInBounds (bits bid 21 2) (mark (x.pend.jobs.getD (bits bid 21 2) Job.reset)) } })

/-- A bead dropped with its event, posted by die d for the stage that it was for (R370, R468). -/
def dropBead (s : State) (d b reason : Nat) : State := (loseBead s b).postDev d 9 (beadDst b + beadBid b * 2 ^ 32) reason

/-- A bead-dropped event of stage i of die d; a drop by the step rules has a notice of its own (R370, R437, R468). -/
def dropEvent (s : State) (d i b reason : Nat) : State :=
  (if reason = 3 then s else loseBead s b).postDev d 9 (stageName s d i + beadBid b * 2 ^ 32) reason

/-- A mailbox bead returned to its stage; of a stage that is off it is dropped, with a broken or restored scheduler it is lost (R290, R373,
R387, R420, R444). -/
def returnBead (s : State) (d b : Nat) : State :=
  let i := beadStage b
  let x := s.stage d i
  if beadEpoch b ≠ epochOf s d ∨ s.claspUp (4 * d + 1) = false then loseBead s b
  else if !x.valid then dropEvent s d i b 1
  else s.setStage d i (x.takeBack b)

/-- A stage faulted with a reason: 1 send rejected, 2 no live tile, 4 table ECC (R383, R412, R468). -/
def faultStage (s : State) (d i reason : Nat) : State :=
  let x := s.stage d i
  if x.st = .faulted then s else (s.setStage d i { x with st := .faulted }).postDev d 5 (stageName s d i) reason

/-- The beads of a queue, from place n on among its stage's, that an uncorrectable table error leaves (R412). -/
def Stage.spared (free n : Nat) (l : List Nat) : List Nat :=
  (((List.range l.length).zip l).filter (fun p => !Config.freeBool (free + n + p.1))).map (·.2)

/-- The scheduler reads a stage's words: a correctable error is corrected and counted, an uncorrectable one drops the beads that it affects, which are free, and faults the stage
(R412, R468; log 49). -/
def readStage (s : State) (d i : Nat) : State :=
  if s.codes.flaws.contains (.stage d i) then
    let x := s.stage d i
    let n := x.ctl.length
    let m := n + x.fwd.length
    let all := x.ctl ++ x.fwd ++ x.bwd
    let gone := ((List.range all.length).zip all).filter (fun p => Config.freeBool (s.free + p.1))
    let s1 := { s with free := s.free + all.length, codes := { s.codes with flaws := s.codes.flaws.filter (· != Flaw.stage d i) } }
    let s1 := s1.setStage d i { x with ctl := Stage.spared s.free 0 x.ctl, fwd := Stage.spared s.free n x.fwd,
                                       bwd := Stage.spared s.free m x.bwd }
    faultStage (gone.foldl (fun s p => dropEvent s d i p.2 7) s1) d i 4
  else s.corrects (.stage d i)

/-- Whether a tile is bound to stage i of its die, not away and selected (R378). -/
def liveTile (s : State) (t i : Nat) : Bool :=
  let x := s.tile t
  x.task.launch.isSome && !x.task.away && (x.task.run == .running || x.task.run == .frozen) && fld x.spr.stage 15 1 == 1 &&
    fld x.spr.stage 0 15 == stageName s (tileDie t) i && bit (s.stage (tileDie t) i).w0.toNat (t % 64)

/-- Whether a tile serves stage i of its die: live, and with room in its mailbox (R378). -/
def servesStage (s : State) (t i : Nat) : Bool := liveTile s t i && decide ((s.tile t).beads.mailbox.length < 2)

/-- Some tile of the die serves the stage. -/
def stageServed (s : State) (d i : Nat) : Bool := (List.range 64).any (fun t => servesStage s (64 * d + t) i)

/-- Some tile of the die is live for the stage. -/
def stageLive (s : State) (d i : Nat) : Bool := (List.range 64).any (fun t => liveTile s (64 * d + t) i)

/-- A stage that a kill or a fault has left without a live tile and that has a bead queued is faulted (R387; log 28). -/
def checkDead (s : State) (d i : Nat) : State :=
  let x := s.stage d i
  if x.dead ∧ (x.ctl ++ x.fwd ++ x.bwd) ≠ [] ∧ stageServed s d i = false then faultStage s d i 2 else s

/-- After a kill or a fault of a task with a STAGE value: a stage of the die with a bead queued and no serving tile is faulted, at once or
when a bead next arrives (R387; log 28). -/
def checkLive (s : State) (d : Nat) (stage : Word) : State :=
  let i := fld stage 0 6
  let x := s.stage d i
  if fld stage 0 16 ≠ 2 ^ 15 + stageName s d i then s
  else if (x.ctl ++ x.fwd ++ x.bwd) ≠ [] ∧ stageServed s d i = false then faultStage s d i 2
  else if x.valid ∧ stageLive s d i = false then s.setStage d i { x with dead := true }
  else s

/-- The beads of a task that ends: mailbox beads return to their queues, a current bead fails with a status (R387, R444). -/
def leaveBeads (s : State) (t status : Nat) : State :=
  let x := s.tile t
  let d := tileDie t
  let s := x.beads.mailbox.foldr (fun b s => returnBead s d b) s
  let s := match x.beads.cur with
    | some b => if beadKind b = 4 then s else s.onDie d (fun y => { y with retire := y.retire ++ [(t, beadStage b, b, status)] })
    | none => s
  s.onTile t (fun y => { y with beads := { y.beads with cur := none, mailbox := [] } })

end Sys2Proof.Machine
end

