-- ==== Sys2Proof/Machine/Issue.lean ====
section
/-! DEFINITION. Issue and commit: what every slot operation shares (03_bundle_encoding.md).

A meaning gives an Op: the causes it finds at issue, whether it waits, and what it does. issue applies the checks that every
operation has, in the order of R392, and finish ends the operation; the last operation of a bundle commits the bundle. -/

namespace Sys2Proof.Machine

/-- The bundle in issue changed. -/
def Tile.onIss (t : Tile) (f : Iss → Iss) : Tile := { t with iss := f t.iss }

/-- A landing of the operation in issue, k bundles on, poisoned where the operation reads poisoned data (R51, R328; log 67). -/
def State.land (s : State) (k : Nat) (l : Land) : State :=
  s.onCore (fun t => t.onIss (fun i => { i with lands := i.lands ++ [{ what := l, d := k, j := 0, live := true, pois := i.tnt }] }))

/-- An effect whose request notes its slot (R393). -/
def Eff.inSlot (e : Eff) (k : Nat) : Eff :=
  match e with
  | .store r => .store { r with slot := k }
  | .req r => .req { r with slot := k }
  | .load r => .load { r with slot := k }
  | e => e

/-- An effect of the operation in issue that waits for the commit (R52). -/
def State.eff (s : State) (e : Eff) : State := s.onCore (fun t => t.onIss (fun i => { i with effs := i.effs ++ [e.inSlot i.slot] }))

/-- The address of the bundle that follows when the operation in issue transfers control (R106). -/
def State.goto (s : State) (pc : Nat) : State := s.onCore (fun t => t.onIss (fun i => { i with npc := some (BitVec.ofNat 64 pc) }))

/-- A scalar register written k bundles on, under the wheel of the issuing bundle (R51, R156). -/
def State.landS (s : State) (k n v : Nat) : State := s.land k (.sreg (physS s.core.spr.rotw n) (BitVec.ofNat 64 v))

/-- A predicate written k bundles on (R51, R156). -/
def State.landQ (s : State) (k n : Nat) (v : Bool) : State := s.land k (.pred (physQ s.core.spr.rotw n) v)

/-- V1's result goes to the vector twin latch (R86, R115). -/
def Tile.diverted (t : Tile) : Bool := t.iss.tw && t.iss.slot == 2

/-- The enabled byte pairs of a vector register written k bundles on, or of the twin latch under TW (R51, R115). -/
def State.landV (s : State) (k n : Nat) (en : Word) (v : VWord) : State :=
  s.land k (if s.core.diverted then .twinV en v else .vec (physV s.core.spr.rotw n) en v)

/-- The enabled bits of a mask written k bundles on, or of the twin latch under TW (R51, R115). -/
def State.landM (s : State) (k n : Nat) (en v : Word) : State :=
  s.land k (if s.core.diverted then .twinM en v else .mask n en v)

/-- What an operation does once its slot is enabled and its operands are there: an issue cause of its slot, whether it waits for a
staging buffer as for a pending register, a checking-mode breach with its TVAL, a twin mismatch with its TVAL and what that comparison uses
up, whether it waits for anything else, and its effect (R102, R392). -/
structure Op where
  trap : Option (Cause × Nat) := none
  waitSb : Bool := false
  wchk : Option Nat := none
  twin : Option Nat := none
  compared : State → State := id
  wait : Bool := false
  run : State → State := id

/-- The tag of the last issue. -/
def State.tag (s : State) (g : Tag) : State := s.onCore (fun t => t.onIss (fun i => { i with out := g }))

/-- The bundle in issue traps: it is cancelled and the cause taken with TPC its own address (R52, R391). -/
def trapOut (s : State) (c : Cause) (slot tval : Nat) (g : Tag) : Out :=
  .next ((cyclePass (takeTrap s c slot tval s.core.spr.pc) false).tag g)

/-- Whether an instruction is BEAD.RECV, whose stall R389 counts apart. -/
def isRecv (i : Instr) : Bool := match i with | .beadRecv _ => true | _ => false

/-- The bundle in issue stalls: one cycle passes and nothing else happens (R100). -/
def stallOut (s : State) (i : Instr) (g : Tag) : Out :=
  .next ((cyclePass s (isRecv i)).tag (if g = .stall ∧ isRecv i then .stallRecv else g))

/-! ## Commit -/

/-- Whether an access reaches the tile's own scratchpad. -/
def ownPlace (self : Nat) (r : Req) : Bool := r.cls == 8 && r.place / 4194304 == self

/-- The place of the aligned part i of four bytes of an access. -/
def Req.part (r : Req) (i : Nat) : Nat := viewPlace r.cls r.place r.va r.size (4 * i)

/-- The number of aligned four-byte parts of an access (R295). -/
def Req.parts (r : Req) : Nat := (r.size + 3) / 4

/-- A value read through one view of the tile's own scratchpad: each aligned word that the other view has written since the last join may
be any value noted for it or the one that stands there, by one free choice, and values older than the chosen one are gone for this view
(R185, R296, R302; log 7). -/
def viewRead (s : State) (r : Req) (v : Nat) : Nat × State :=
  if s.view = [] then (v, s)
  else
    (List.range r.parts).foldl (fun (p : Nat × State) i =>
      let k := r.part i
      match p.2.view.find? (fun x => x.word == k / 4 && x.swz == swzVa r.va) with
      | none => p
      | some n =>
        let w := 8 * Nat.min r.size 4
        let pick := Config.freeNat p.2.free % (n.vals.length + 1)
        let x := match n.vals[pick]? with | some o => bits o (8 * (k % 4)) w | none => bits p.1 (32 * i) w
        let rest := p.2.view.filter (fun y => !(y.word == n.word && y.swz == n.swz))
        (setBits p.1 (32 * i) w x,
          { p.2 with free := p.2.free + 1,
                     view := if n.vals.length ≤ pick then rest else rest ++ [{ n with vals := n.vals.drop pick }] })) (v, s)

/-- The poisoned data of a scalar register (R328; log 67). -/
def Tile.poisS (t : Tile) (n : Nat) : Bool := n != 0 && t.regs.pois.contains (physS t.spr.rotw n)

/-- Poisoned data of a vector register (R328; log 67). -/
def Tile.poisV (t : Tile) (n : Nat) : Bool := t.regs.pois.contains (64 + physV t.spr.rotw n)

/-- A line of the L1 whose parity fails is given up, so that it is fetched again (R320). -/
def State.parity (s : State) (k : Nat) : State :=
  if s.codes.flaws.contains (.l1 s.self k) then
    { s with codes := { s.codes with flaws := s.codes.flaws.filter (· != .l1 s.self k) },
             core := { s.core with l1 := s.core.l1.filter (fun l => l.key != k) } }
  else s

/-- A load at its commit: a load of the scratchpad space is performed, a global load that hits the L1 takes its bytes there, keeping one
half if only that is held, and any other is sent (R111, R112, R172, R320; logs 6, 7). A held line whose parity fails is fetched again. -/
def commitLoad (s : State) (r : Req) : State :=
  let add (s : State) (r : Req) : State := s.onCore (fun t => { t with reqs := t.reqs ++ [r] })
  if r.kind = .barTest ∨ r.kind = .beadHdr then add s r
  else if r.cls = 8 then
    let s := s.reads r.place r.size
    let r' := performLocal s r
    if r'.st = .done ∧ ownPlace s.self r then
      let (v, s') := viewRead s r r'.data
      add s' { r' with data := v }
    else add s r'
  else if r.cls < 3 then
    let k := lineKey r.cls r.tgt r.place
    let k' := lineKey r.cls r.tgt (r.place + 64)
    let s := (s.parity k).parity k'
    let held (k : Nat) : Option Line := findLine s.core.l1 k
    if r.place % 64 + r.size ≤ 64 then
      match held k with
      | some l => add s { r with st := .done, data := bits l.data (8 * (r.place % 64)) (8 * r.size) }
      | none => add s r
    else
      match held k, held k' with
      | some l, some h => add s { r with st := .done, data := l.data + 2 ^ 512 * h.data }
      | some l, none => add s { r with op := 1, data := l.data }
      | none, some h => add s { r with data := 2 ^ 512 * h.data, op := 2 }
      | none, none => add s r
  else add s r

/-- The bytes of a scratchpad write, as its address orders them (R53, R317). -/
def writeView (s : State) (r : Req) : State :=
  if swzVa r.va ∧ r.size = 128 then
    (List.range 16).foldl (fun s i =>
      writeEnb s (viewPlace r.cls r.place r.va r.size (8 * i)) 8 (bits r.data (64 * i) 64) (bits r.enb (8 * i) 8) r.pois) s
  else writeEnb s r.place r.size r.data r.enb r.pois

/-- The aligned words that a write touches. -/
def Req.words (r : Req) : List Nat :=
  ((List.range r.parts).filter (fun i => bits r.enb (4 * i) (Nat.min r.size 4) != 0)).map (fun i => r.part i / 4)

/-- A value noted for one view of a word. -/
def noteOld (l : List ViewNote) (w : Nat) (swz : Bool) (old : Nat) : List ViewNote :=
  if l.any (fun x => x.word == w && x.swz == swz) then
    l.map (fun x => if x.word = w ∧ x.swz = swz then { x with vals := x.vals ++ [old] } else x)
  else l ++ [{ word := w, swz := swz, vals := [old] }]

/-- Pending loads of a word through the other view may return a later write: of those of earlier bundles, in program order, a last part
does, by one free choice; what stood before is then gone for that view (R172, R185, R302; log 7). -/
def laterWrite (s : State) (swz : Bool) (w : Nat) : State :=
  let reads (r : Req) : Bool := (r.kind == .ld || r.kind == .vld || r.kind == .vldb) && r.st == .done && !r.late && r.j != 0 && ownPlace s.self r &&
    swzVa r.va == swz && (List.range r.parts).any (fun i => r.part i / 4 == w)
  let n := (s.core.reqs.filter reads).length
  if n = 0 then s
  else
    let keep := n - Config.freeNat s.free % (n + 1)
    let v := readN s (4 * w) 4
    let new (r : Req) : Req :=
      let part (d i : Nat) : Nat :=
        if r.part i / 4 = w then setBits d (32 * i) (8 * Nat.min r.size 4) (bits v (8 * (r.part i % 4)) (8 * Nat.min r.size 4)) else d
      { r with data := (List.range r.parts).foldl part r.data }
    let reqs := (s.core.reqs.foldl (fun (p : List Req × Nat) r =>
      if reads r then (p.1 ++ [if keep ≤ p.2 then new r else r], p.2 + 1) else (p.1 ++ [r], p.2)) ([], 0)).1
    { s with core := { s.core with reqs := reqs }, free := s.free + 1,
             view := if keep < n then s.view.filter (fun x => !(x.word == w && x.swz == swz)) else s.view }

/-- A write of the tile core to its own scratchpad through one view: reads through that view see it, reads through the other may still
return what stood before, and its outstanding loads what comes now (R185, R296; log 7). DESIGN CHOICE: of two writes to the same bytes
through different views without a join between them the later one stands (log 72). -/
def ownWrite (s : State) (r : Req) : State :=
  let u := swzVa r.va
  let s' := writeView s r
  let notes := r.words.foldl (fun l w => noteOld l w (!u) (readN s (4 * w) 4))
    (s'.view.filter (fun x => x.swz == u) ++ s.view.filter (fun x => x.swz != u))
  let s' := { s' with view := notes }
  if s.core.reqs.any (fun q => (q.kind == .ld || q.kind == .vld || q.kind == .vldb) && q.st == .done && q.cls == 8 && swzVa q.va != u)
  then r.words.foldl (fun s w => laterWrite s (!u) w) s' else s'

/-- A held L1 line with the enabled bytes of a store (R173). -/
def lineWrite (l : Line) (off n data enb : Nat) : Line :=
  { l with data := (List.range n).foldl (fun d i =>
      if bit enb i && decide (off + i < 64) then setBits d (8 * (off + i)) 8 (bits data (8 * i) 8) else d) l.data }

/-- The L1 lines that a store of poisoned data leaves: a line with poison is not held (R320, R328; log 67). -/
def l1Poison (l1 : List Line) (r : Req) : List Line :=
  l1.filter (fun l => !(l.key == lineKey r.cls r.tgt r.place && bits r.enb 0 64 != 0 ||
    r.size == 128 && l.key == lineKey r.cls r.tgt (r.place + 64) && r.enb / 2 ^ 64 != 0))

/-- The L1 after a store: held lines take its bytes, no line is allocated (R173, R320). -/
def l1Store (l1 : List Line) (r : Req) : List Line :=
  if r.pois then l1Poison l1 r
  else l1.map (fun l =>
    if l.key = lineKey r.cls r.tgt r.place then lineWrite l (r.place % 64) r.size r.data r.enb
    else if r.size = 128 ∧ l.key = lineKey r.cls r.tgt (r.place + 64) then lineWrite l 0 64 (r.data / 2 ^ 512) (r.enb / 2 ^ 64)
    else l)

/-- A store at its commit: the scratchpad space is written at once, a global store updates a held L1 line and is sent (R111,
R173; log A6). -/
def commitStore (s : State) (r : Req) : State :=
  if r.cls = 8 then (if ownPlace s.self r then ownWrite s r else writeView s r)
  else s.onCore (fun t => { t with l1 := l1Store t.l1 r, reqs := t.reqs ++ [r] })

/-- The read and write of an AMO at a place, for the tile in focus; a poisoned word stays (R176, R178). -/
def amoAt (s : State) (r : Req) (key : Nat) : Req × State :=
  let s := s.reads key r.size
  if (poisonAt s key r.size).isSome then ({ r with st := .poisoned, data := r.va }, s)
  else
    let m := readN s key r.size
    let enb := 2 ^ r.size - 1
    ({ r with st := .done, data := m },
      match amoNew r.op (8 * r.size) m r.data r.cmp with
      | some v => if ownPlace s.self r then ownWrite s { r with data := v, enb := enb } else writeEnb s key r.size v enb r.pois
      | none => s)

/-- PH of a barrier object (R186). -/
def barPh (s : State) (k : Nat) : Nat := bits (readN s (k + 8) 8) 16 1

/-- ERR of a barrier object (R186). -/
def barErr (s : State) (k : Nat) : Bool := bit (readN s (k + 8) 8) 17

/-- The TVAL of a BARRIER trap (R193). -/
def barTval (s : State) (k a : Nat) : Nat := a % 2 ^ 32 + bits (readN s (k + 8) 8) 24 8 * 2 ^ 32

/-- BAR.TEST's read of its object, whose codes have been checked (R192, R193, R319; log 61). -/
def testAt (s : State) (r : Req) : Req :=
  match poisonAt s r.place 16 with
  | some i => { r with st := .poisoned, data := r.va + i }
  | none =>
    if barErr s r.place then { r with st := .barErr, data := barTval s r.place r.va }
    else { r with st := .done, data := b2n (barPh s r.place != r.pw) }

/-- A store of a bundle writes where a request of it leads. -/
def storeMeets (effs : List Eff) (r : Req) : Bool := effs.any (fun e => match e with | .store q => samePlace r q | _ => false)

/-- A load at the commit of its bundle; BAR.TEST reads its object there where a store of the bundle writes it, else when it returns (R111,
R192, R296). -/
def commitRead (effs : List Eff) (s : State) (r : Req) : State :=
  if r.kind = .barTest ∧ storeMeets effs r then
    let s := s.reads r.place 16
    s.onCore (fun t => { t with reqs := t.reqs ++ [testAt s r] })
  else commitLoad s r

/-- A special register written at commit; RO fields stay and reserved ones are zero (R25 to R37, R66). -/
def writeSpec (t : Tile) (i : Nat) (v : Word) : Tile :=
  let w1c (old : Word) (b : Nat) : Nat := if bit v.toNat b then 0 else fld old b 1
  t.onSpr (fun p =>
    match i with
    | 0x01 => { p with tstat := setFld (setFld p.tstat 1 1 (fld v 1 1)) 3 1 (w1c p.tstat 3) }
    | 0x03 => { p with lc := v }
    | 0x05 => { p with rotw := v }
    | 0x08 => { p with tcause := v }
    | 0x09 => { p with tpc := v }
    | 0x0A => { p with tval := v }
    | 0x0B => { p with cyc := v }
    | 0x0D => { p with taskid := v }
    | 0x0E => { p with bown := v }
    | 0x10 => { p with wchk := setFld (setFld p.wchk 0 1 (fld v 0 1)) 1 1 (w1c p.wchk 1) }
    | 0x11 => { p with stage := v }
    | i => if 0x20 ≤ i ∧ i ≤ 0x27 then { p with rg := p.rg.setIfInBounds (i - 0x20) v } else p)

/-- One effect at its commit, loads apart (R52, R111). -/
def commitEff (s : State) (e : Eff) : State :=
  match e with
  | .load _ => s
  | .store r => commitStore s r
  | .req r =>
    s.onCore (fun t =>
      let l1 := if r.kind = .amo ∧ r.cls < 3 then t.l1.filter (fun l => l.key != lineKey r.cls r.tgt r.place) else t.l1
      { t with l1 := l1, reqs := t.reqs ++ [r] })
  | .spec i v => s.onCore (fun t => writeSpec t i v)
  | .lc v => s.onCore (fun t => t.onSpr (fun p => { p with lc := v }))
  | .rotw v => s.onCore (fun t => t.onSpr (fun p => { p with rotw := v }))
  | .pop => s.onCore (fun t => { t with rng := { t.rng with count := t.rng.count - 1 } })
  | .seed v => s.onCore (fun t => { t with rng := { seed := v, gen := 0, count := 0, run := true } })
  | .softTrap _ => s
  | .halt => s
  | .retire => s
  | .eret => s

/-- One effect at the commit of its bundle: an AMO at a scratchpad that a store of the bundle follows there is performed at once, after the
bundle's reads and before that store (R111, R231, R296). -/
def commitOne (effs : List Eff) (s : State) (e : Eff) : State :=
  match e with
  | .req r =>
    if r.kind = .amo ∧ r.cls = 8 ∧ storeMeets effs r then
      let (r', s) := amoAt s r r.place
      s.onCore (fun t => { t with reqs := t.reqs ++ [r'] })
    else commitEff s e
  | _ => commitEff s e

/-- Whether an effect writes a range register (R339). -/
def isRgWrite (e : Eff) : Bool := match e with | .spec i _ => decide (0x20 ≤ i) && decide (i ≤ 0x27) | _ => false

/-- A task that leaves the tile by RETIRE: it drains, its exposed and pending values are discarded, its committed stores,
AMOs and barrier updates stand, marked pw 255 (R160). killed marks the supervisor's form and KILL. -/
def retireTile (t : Tile) (killed : Bool) : Tile :=
  let d : Drain :=
    { launch := t.task.launch, bown := (t.task.rel.foldl (fun b x => setBits b x.1 1 1) (t.spr.bown.toNat % 2 ^ 48)), fown := fld t.spr.taskid 32 8, task := fld t.spr.taskid 0 32,
      killed := killed, late := t.task.late, stamp := t.stamp, rel := t.task.rel }
  { t with
    flight := [], snapPay := [], snapEn := [], snapPois := [], snapOrd := [], snapDead := [],
    reqs := (t.reqs.filter (fun r => r.kind == .st || r.kind == .amo || r.kind == .barUpd)).map (fun r => { r with late := true, pw := 255 }),
    spr := { t.spr with snap := Vector.replicate 32 0, tstat := setFld (setFld t.spr.tstat 2 1 0) 4 1 0 },
    task := { t.task with run := .idle, away := false, launch := none, drains := t.task.drains ++ [d], preq := false, pend := none,
                          rel := [], kept := [], preqRecs := [], wd := [], loadOrd := [], maskEn := [], amoOrd := [], dead := [], rst := none } }

/-- The views of the tile in focus joined (R185). -/
def State.join (s : State) : State := { s with view := s.view.filter (fun v => 4 * v.word / 4194304 != s.self) }

/-- The task of the tile in focus ends: the records that asked for its pre-emption or its restart complete, the queue entries that a trap
put into its image are pushed again, to be accepted and run, and it drains (R160, R402, R406, R408). -/
def endTask (s : State) (killed : Bool) : State :=
  let s := servePreempt (serveRestart s)
  let s := awayReads s
  let back := awayTcq s
  (s.onCore (fun t => (retireTile { t with tcq := t.tcq ++ back } killed).onTask (fun x => { x with since := s.hub.gtc }))).join

/-- What the last effect of a bundle does to the tile core after its commit: SOFT, HALT, RETIRE or ERET (R159 to R162). -/
def terminal (s : State) (e : Eff) : State :=
  match e with
  | .softTrap code => takeTrap s .soft 0 code s.core.spr.pc
  | .halt =>
    if s.core.sup then
      let pc := s.core.spr.pc
      let s := s.onCore (fun t => { t with spr := { t.spr with tstat := setFld t.spr.tstat 2 1 0 },
                                           task := { t.task with run := .haltedSup, restart := pc } })
      s.postCp (tileDie s.self) 8 (s.self % 64) pc.toNat
    else
      leaveTask (s.onCore (fun t => t.onSpr (fun p => { p with tpc := p.pc, tstat := setFld p.tstat 2 1 0 }))) true
  | .retire =>
    let k := s.core.sup
    let st := s.core.spr.stage
    let s := endTask (leaveBeads s s.self (if k then 255 else 253)) k
    if k then checkLive s (tileDie s.self) st else s
  | .eret => returnTrap (s.onCore (fun t => { t with flight := [] }))
  | _ => s

/-- The loads of a bundle's effects, in slot order. -/
def loadsOf (l : List Eff) : List Req := l.filterMap (fun e => match e with | .load r => some r | _ => none)

/-- The status after a bundle's region marks: RE ends the region, RB alone begins one (R86, R87, R118). -/
def regionBits (p : Spr) (i : Iss) : Word :=
  if i.re then setFld p.tstat 2 1 0 else if i.rb then setFld p.tstat 2 1 1 else p.tstat

/-- A request once one more bundle has committed: those of the running context and the AMOs that live SNAP entries hold count it (R399). -/
def Req.older (r : Req) : Req := if r.late && r.pw != 254 then r else { r with j := r.j + 1 }

/-- The commit of a bundle: its loads, then its other effects in slot order, its landings begun, one bundle counted by every
result in flight, PC moved, and one tile cycle passed (R111, R106, R100). DESIGN CHOICE: the bundle of an ERET counts like any other, so
that a monitor's result with one bundle to go lands with it, before ERET discards those still in flight (R162; log 70). DESIGN CHOICE: the
bundle after that at 2^56 - 16 is that at 0 (R149; log 73). -/
def commit (s : State) : State :=
  let i := s.core.iss
  let rgs := s.core.ranges
  let gtc := s.hub.gtc
  let s := cyclePass s false
  let s := (loadsOf i.effs).foldl (commitRead i.effs) s
  let s := i.effs.foldl (commitOne i.effs) s
  let s := s.onCore (fun t =>
    let t := { t with flight := t.flight ++ i.lands }.advance
    { t with
      iss := Iss.reset, reqs := (t.reqs.filter (fun r => r.kind != .fetch)).map Req.older,
      fetchRg := if i.effs.any isRgWrite then rgs else [],
      chkWait := if fld t.spr.wchk 0 1 = 1 then 3 else 0,
      spr := { t.spr with tstat := regionBits t.spr i,
                          pc := i.npc.getD (BitVec.ofNat 64 ((t.spr.pc.toNat + 16) % 2 ^ 56)) },
      task := { t.task with regionStart := if i.rb then gtc else t.task.regionStart } })
  i.effs.foldl terminal s

/-- The end of an operation: the last one of its bundle commits the bundle (R111). -/
def finish (s : State) : State := if s.core.iss.last then (commit s).tag .issued else s.tag .done

/-! ## Issue -/

/-- The landings that a guarded-off operation counts (R90). -/
def State.dead (s : State) (i : Instr) : State :=
  s.onCore (fun t => t.onIss (fun x => { x with lands := x.lands ++ deadLand t i t.diverted }))

/-- Whether checking mode is on (R36). -/
def Tile.checking (t : Tile) : Bool := fld t.spr.wchk 0 1 == 1

/-- The TVAL of a checking-mode breach (R410). -/
def wchkTval (kind slot x : Nat) : Nat := kind * 2 ^ 60 + slot * 2 ^ 56 + x

/-- The issue of an enabled operation whose sources are there (R102, R392, R410). -/
def issueOn (i : Instr) (op : Op) (s : State) : Out :=
  let t := s.core
  let wp := writesPending t i t.diverted
  if wp.isSome && !t.checking then stallOut s i .stallSb
  else
    match op.trap with
    | some (c, v) => trapOut s c t.iss.slot v .trapIssue
    | none =>
      if op.waitSb then stallOut s i .stallSb
      else
      match wp.map (fun x => wchkTval 3 t.iss.slot (x.1 * 256 + x.2)) |>.or op.wchk with
      | some v => trapOut s .wchk t.iss.slot v .trapWchk
      | none =>
        match op.twin with
        | some v => trapOut (op.compared s) .twin t.iss.slot v .trapTwin
        | none => if op.wait then stallOut s i .stall else .next (finish (op.run s))

/-- An enabled operation, legal and with its operands there, comes to its own checks (R90, R99, R102). -/
def reaches (i : Instr) (s : State) : Bool :=
  extOk i && legal i && featOk s.hub.featacc i && (guardOf i).on s.core && !readsPending s.core i

/-- The issue of an operation: its decode checks, its guard, the scoreboard and its own causes (R90, R99, R102, R392). -/
def issue (i : Instr) (op : Op) (s : State) : Out :=
  let t := s.core
  if !extOk i then trapOut s .illegal 15 (t.iss.hdr + 2 * 2 ^ 32) .trapDecode
  else if !(legal i && featOk s.hub.featacc i) then trapOut s .illegal t.iss.slot (illegalTval i) .trapDecode
  else if !(guardOf i).on t then .next (finish (s.dead i))
  else if readsPending t i then stallOut s i .stallSb
  else issueOn i op s

/-! ## Waits that several instructions share -/

/-- A request that has not been performed. -/
def Req.open (r : Req) : Bool :=
  match r.st with | .waiting => true | .ready => true | .walking => true | .held => true | _ => false

/-- An AMO with a scope is outstanding: accesses, barrier instructions and pushes wait for its value (R177). -/
def Tile.scopedAmo (t : Tile) : Bool := t.reqs.any (fun r => r.kind == .amo && r.sco != 0 && !r.late)

/-- An AMO or barrier update at a scratchpad has not been performed; a push waits for it, so that the command reads its sources
after it (R305, R306; log A6). -/
def Tile.openAtomic (t : Tile) : Bool := t.reqs.any (fun r => (r.kind == .amo || r.kind == .barUpd) && r.open && r.cls == 8)

/-- Whether a store or AMO that has not been performed lies among those that a release scope carries (R181, R297). DESIGN CHOICE: a write
stands for every agent once it is performed at its home, so a release and an acquire outside each other's parties, or at another home
class, synchronise like any others, one of the outcomes that R300 leaves open (log 69). -/
def scopeCarries (self sco : Nat) (r : Req) : Bool :=
  if r.cls = 8 then (sco != 1 && sco != 12) || r.place / 4194304 == self
  else if r.cls < 3 then 3 ≤ sco && sco != 12
  else if r.cls = 3 then 9 ≤ sco && sco != 12
  else 10 ≤ sco && sco != 12

/-- The commands that a facet still holds (R41). -/
def facetsIdle (t : Tile) : Bool := t.facets.toList.all (fun f => f.queue == [])

/-- The wait of a release: loads returned, the writes of the scope performed, and at .arr and .sys every facet command
complete (R181). -/
def releaseWaits (self : Nat) (t : Tile) (sco : Nat) : Bool :=
  t.reqs.any (fun r => isLoadReq r || ((r.kind == .st || r.kind == .amo) && r.open && scopeCarries self sco r)) ||
    (decide (11 ≤ sco) && !facetsIdle t)

/-- The wait of an acquire: every earlier load and AMO returned (R182). -/
def acquireWaits (t : Tile) : Bool := t.reqs.any (fun r => isLoadReq r || (r.kind == .amo && !r.late))

/-- The prefetches still outstanding discarded, which every acquire does (R123). -/
def Tile.dropPrefs (t : Tile) : Tile := { t with reqs := t.reqs.filter (fun r => r.kind != .pref) }

/-- The L1 invalidated, and the prefetches still outstanding discarded (R123, R184). -/
def Tile.dropL1 (t : Tile) : Tile := { t.dropPrefs with l1 := [] }

/-! ## Scalar and vector accesses -/

/-- What an access at an address finds: its cause, its breach, whether it waits, and where it leads. -/
structure Acc where
  trap : Option (Cause × Nat)
  wchk : Option Nat
  wait : Bool
  dest : Dest

/-- The offsets in the tile's own scratchpad that the enabled bytes of an access touch. -/
def touched (d : Dest) (a size enb : Nat) : List Nat :=
  ((List.range size).filter (fun i => bit enb i)).map (fun i => viewPlace d.cls d.place a size i % 4194304)

/-- An open window holds a touched byte (R199). -/
def windowHolds (t : Tile) (offs : List Nat) : Bool :=
  t.chans.toList.any (fun c => decide (c.lo < c.hi) && offs.any (fun o => decide (c.wm ≤ o) && decide (o < c.hi)))

/-- A breach of checking mode by an access, with its kind (R410). -/
def noteHit (t : Tile) (offs : List Nat) (wr : Bool) : Option Nat :=
  let hit (n : Note) : Bool := offs.any (fun o => decide (n.lo ≤ o) && decide (o < n.hi))
  if t.notes.any (fun n => n.wr && hit n) then some 1 else if wr && t.notes.any (fun n => !n.wr && hit n) then some 2 else none

/-- An S-slot or V-slot access: the checks of R170, a breach under R410, the waits of R177 and R199, and the wait for an
atomic or barrier update that is outstanding at the place, and of a write for a BAR.TEST that has not read there (R296, R302; log A6). -/
def access (s : State) (i : Instr) (a size enb : Nat) (needR needW : Bool) : Acc :=
  let t := s.core
  match checkAccess s (slotWordOf i) a size needR needW with
  | .error e => { trap := some e, wchk := none, wait := false, dest := { cls := 8, tgt := 0, place := 0, own := false, swz := false } }
  | .ok d =>
    let offs := if d.own then touched d a size enb else []
    let busy := t.reqs.any (fun r => (r.kind == .amo || r.kind == .barUpd || (needW && r.kind == .barTest)) && r.open && r.cls == d.cls && r.tgt == d.tgt &&
      decide (r.place < d.place + size) && decide (d.place < r.place + r.size))
    { trap := none, wchk := if t.checking && !windowHolds t offs then (noteHit t offs needW).map (fun k => wchkTval k t.iss.slot (a % 2 ^ 56)) else none,
      wait := t.scopedAmo || windowHolds t offs || (d.cls == 8 && busy), dest := d }

/-- A tile has 16 outstanding loads (R401). -/
def Tile.loadsFull (t : Tile) : Bool := decide (16 ≤ (t.reqs.filter isLoadReq).length)

/-- The request of an access. -/
def Acc.req (x : Acc) (k : ReqKind) (a size : Nat) : Req :=
  { Req.empty k with va := a, size := size, cls := x.dest.cls, tgt := x.dest.tgt, place := x.dest.place }

end Sys2Proof.Machine
end

