-- ==== Sys2Proof/Machine/Access.lean ====
section
/-! DEFINITION. Loads, stores, prefetch, atomics and fences of the S slot, and vector loads and stores (R168 to R185, R228 to
R231). -/

namespace Sys2Proof.Machine

/-- The address of a scalar access: the displacement counts in units of the access size (R92, R172). -/
def scalarEa (s : State) (a i size : Nat) : Nat := wrap 64 (((s.core.sreg a).toNat : Int) + sext i 8 * size)

/-- The enables of a whole access. -/
def allBytes (size : Nat) : Nat := 2 ^ size - 1

/-- A load of size bytes with a displacement (R172). -/
def loadOp (i : Instr) (o : OpSNgdai) (size : Nat) (sx : Bool) (s : State) : Out :=
  let ea := scalarEa s o.a o.i size
  let x := access s i ea size (allBytes size) true false
  let r : Req := { x.req .ld ea size with dst := physS s.core.spr.rotw o.d, sx := sx }
  issue i { trap := x.trap, wchk := x.wchk, wait := x.wait, run := fun s => s.eff (.load r) } s

/-- LdBI: a load of 1 byte, sign-extended (R172). -/
def execLdBI (o : OpSNgdai) (s : State) : Out := loadOp (.ldBI o) o 1 true s

/-- LdBN: a load of 1 byte, zero-extended (R172). -/
def execLdBN (o : OpSNgdai) (s : State) : Out := loadOp (.ldBN o) o 1 false s

/-- LdHI: a load of 2 bytes, sign-extended (R172). -/
def execLdHI (o : OpSNgdai) (s : State) : Out := loadOp (.ldHI o) o 2 true s

/-- LdHN: a load of 2 bytes, zero-extended (R172). -/
def execLdHN (o : OpSNgdai) (s : State) : Out := loadOp (.ldHN o) o 2 false s

/-- LdWI: a load of 4 bytes, sign-extended (R172). -/
def execLdWI (o : OpSNgdai) (s : State) : Out := loadOp (.ldWI o) o 4 true s

/-- LdWN: a load of 4 bytes, zero-extended (R172). -/
def execLdWN (o : OpSNgdai) (s : State) : Out := loadOp (.ldWN o) o 4 false s

/-- LdD: a load of 8 bytes, zero-extended (R172). -/
def execLdD (o : OpSNgdai) (s : State) : Out := loadOp (.ldD o) o 8 false s

/-- The breach of a checked store: its data differ from the scalar twin latch, or the port's two adders differ (R174). -/
def storeTwin (s : State) (v size : Nat) : Option Nat :=
  if v != bits s.core.regs.twinS.toNat 0 (8 * size) then some 0
  else if s.codes.flaws.contains (.adder s.self) then some 1
  else none

/-- The address adders have been compared: an upset in one has had its effect (R174; log 49). -/
def State.adderUsed (s : State) : State :=
  { s with codes := { s.codes with flaws := s.codes.flaws.filter (· != .adder s.self) } }

/-- A store of the low size bytes of sD; checked compares them with the scalar twin latch first (R173, R174). -/
def storeOp (i : Instr) (o : OpSNgdai) (size : Nat) (checked : Bool) (s : State) : Out :=
  let ea := scalarEa s o.a o.i size
  let x := access s i ea size (allBytes size) false true
  let v := bits (s.core.sreg o.d).toNat 0 (8 * size)
  let r : Req := { x.req .st ea size with data := v, enb := allBytes size, pois := s.core.poisS o.d }
  issue i
    { trap := x.trap, wchk := x.wchk, wait := x.wait,
      twin := if checked then storeTwin s v size else none,
      compared := State.adderUsed,
      run := fun s => s.eff (.store r) } s

/-- StB: a store of 1 byte (R173). -/
def execStB (o : OpSNgdai) (s : State) : Out := storeOp (.stB o) o 1 false s

/-- StH: a store of 2 bytes (R173). -/
def execStH (o : OpSNgdai) (s : State) : Out := storeOp (.stH o) o 2 false s

/-- StW: a store of 4 bytes (R173). -/
def execStW (o : OpSNgdai) (s : State) : Out := storeOp (.stW o) o 4 false s

/-- StD: a store of 8 bytes (R173). -/
def execStD (o : OpSNgdai) (s : State) : Out := storeOp (.stD o) o 8 false s

/-- StGB: a store of 1 byte, checked against the twin latch (R174). -/
def execStGB (o : OpSNgdai) (s : State) : Out := storeOp (.stGB o) o 1 true s

/-- StGH: a store of 2 bytes, checked against the twin latch (R174). -/
def execStGH (o : OpSNgdai) (s : State) : Out := storeOp (.stGH o) o 2 true s

/-- StGW: a store of 4 bytes, checked against the twin latch (R174). -/
def execStGW (o : OpSNgdai) (s : State) : Out := storeOp (.stGW o) o 4 true s

/-- StGD: a store of 8 bytes, checked against the twin latch (R174). -/
def execStGD (o : OpSNgdai) (s : State) : Out := storeOp (.stGD o) o 8 true s

/-- PREF disp(sA): asks for the L1 line of a global address of classes 0 to 2 where every check succeeds (R175); it is an access of
the tile core, which an AMO with a scope holds (R177, R293). -/
def execPref (o : OpSNgai) (s : State) : Out :=
  let ea := scalarEa s o.a o.i 64
  let req : Option Req :=
    match checkRegion s ea true false false with
    | .ok d =>
      if d.cls < 3 then
        some { Req.empty .pref with va := ea, size := 64, cls := d.cls, tgt := d.tgt, place := d.place / 64 * 64 }
      else none
    | .error _ => none
  issue (.pref o) { wait := s.core.scopedAmo, run := fun s => match req with | some r => s.eff (.req r) | none => s } s

/-! ## Atomic operations -/

/-- AMO.op sD, (sA), sB: relaxed without a scope, acquire-release with one (R176 to R178). -/
def amoOp (i : Instr) (o : OpSSdabw) (code : Nat) (s : State) : Out :=
  let t := s.core
  let size := if o.w.val = 0 then 4 else 8
  let ea := (t.sreg o.a).toNat
  let x := access s i ea size (allBytes size) true true
  let trap := x.trap.or (if x.dest.cls = 3 ∨ x.dest.cls = 4 then some (.perm, ea) else none)
  let r : Req :=
    { x.req .amo ea size with
      dst := physS t.spr.rotw o.d, sx := (code == 1 || code == 3) && o.w.val == 0, data := bits (t.sreg o.b).toNat 0 (8 * size),
      cmp := bits (t.sreg o.d).toNat 0 (8 * size), op := code, sco := o.s,
      pois := t.poisS o.b || (code == 9 && t.poisS o.d) }
  issue i
    { trap := trap, wchk := x.wchk,
      wait := x.wait || decide (8 ≤ (t.reqs.filter (fun q => q.kind == .amo)).length) ||
        (o.s.val != 0 && releaseWaits s.self t o.s),
      run := fun s => (if o.s.val = 0 then s else s.join).eff (.req r) } s

/-- AMO.add (R176). -/
def execAmoAdd (o : OpSSdabw) (s : State) : Out := amoOp (.amoAdd o) o 0 s

/-- AMO.min.i (R176). -/
def execAmoMinI (o : OpSSdabw) (s : State) : Out := amoOp (.amoMinI o) o 1 s

/-- AMO.min.n (R176). -/
def execAmoMinN (o : OpSSdabw) (s : State) : Out := amoOp (.amoMinN o) o 2 s

/-- AMO.max.i (R176). -/
def execAmoMaxI (o : OpSSdabw) (s : State) : Out := amoOp (.amoMaxI o) o 3 s

/-- AMO.max.n (R176). -/
def execAmoMaxN (o : OpSSdabw) (s : State) : Out := amoOp (.amoMaxN o) o 4 s

/-- AMO.and (R176). -/
def execAmoAnd (o : OpSSdabw) (s : State) : Out := amoOp (.amoAnd o) o 5 s

/-- AMO.or (R176). -/
def execAmoOr (o : OpSSdabw) (s : State) : Out := amoOp (.amoOr o) o 6 s

/-- AMO.xor (R176). -/
def execAmoXor (o : OpSSdabw) (s : State) : Out := amoOp (.amoXor o) o 7 s

/-- AMO.xchg (R176). -/
def execAmoXchg (o : OpSSdabw) (s : State) : Out := amoOp (.amoXchg o) o 8 s

/-- AMO.cas (R176). -/
def execAmoCas (o : OpSSdabw) (s : State) : Out := amoOp (.amoCas o) o 9 s

/-! ## Fences -/

/-- FENCE.kind.scope: K is 1 acq, 2 rel, 3 ar (R179 to R185). -/
def execFence (o : OpSNgks) (s : State) : Out :=
  let t := s.core
  let acq := o.k.val != 2
  let rel := o.k.val != 1
  let inval := acq && o.s.val != 1 && o.s.val != 12
  issue (.fence o)
    { wait := (rel && releaseWaits s.self t o.s) || (acq && acquireWaits t),
      run := fun s =>
        let s := if inval then s.onCore Tile.dropL1 else if acq then s.onCore Tile.dropPrefs else s
        if rel || o.s.val == 1 then s.join else s } s

/-! ## Vector accesses -/

/-- The address of a vector access: sext(E, I) x 128, sext(I) x 128 without a header (R93, R228). -/
def vectorEa (s : State) (a i : Nat) (h : Fin 2) (e : Fin 256) : Nat :=
  let off : Int := if h.val = 1 then sext (e.val * 64 + i) 14 else sext i 6
  wrap 64 (((s.core.sreg a).toNat : Int) + off * 128)

/-- VLD vD, disp(sA) (R229). -/
def execVld (o : OpVGdai) (s : State) : Out :=
  let ea := vectorEa s o.a o.i o.h o.e
  let x := access s (.vld o) ea 128 (allBytes 128) true false
  let r : Req := { x.req .vld ea 128 with dst := physV s.core.spr.rotw o.d }
  issue (.vld o) { trap := x.trap, wchk := x.wchk, wait := x.wait, run := fun s => s.eff (.load r) } s

/-- VLDB.bW vD, disp(sA): one element to every lane (R229). -/
def execVldb (o : OpVGdaif) (s : State) : Out :=
  let ea := vectorEa s o.a o.i o.h o.e
  let size := 2 ^ o.f.val
  let x := access s (.vldb o) ea size (allBytes size) true false
  let r : Req := { x.req .vldb ea size with dst := physV s.core.spr.rotw o.d, pw := o.f }
  issue (.vldb o) { trap := x.trap, wchk := x.wchk, wait := x.wait, run := fun s => s.eff (.load r) } s

/-- VST vD, disp(sA) (R230). -/
def execVst (o : OpVGdai) (s : State) : Out :=
  let ea := vectorEa s o.a o.i o.h o.e
  let x := access s (.vst o) ea 128 (allBytes 128) false true
  let r : Req := { x.req .st ea 128 with data := (s.core.vreg o.d).toNat, enb := allBytes 128, pois := s.core.poisV o.d }
  issue (.vst o) { trap := x.trap, wchk := x.wchk, wait := x.wait, run := fun s => s.eff (.store r) } s

/-- The bytes that a mask enables: bit k names bytes 2k and 2k + 1 (R230). -/
def maskBytes (m : Word) : Nat := packFields 2 (fun k => if bit m.toNat k then 3 else 0) 64

/-- VST.M vD, disp(sA), mF (R230). -/
def execVstM (o : OpVGdaim) (s : State) : Out :=
  let ea := vectorEa s o.a o.i o.h o.e
  let enb := maskBytes (s.core.mask o.m)
  let x := access s (.vstM o) ea 128 enb false true
  let r : Req := { x.req .st ea 128 with data := (s.core.vreg o.d).toNat, enb := enb, pois := s.core.poisV o.d }
  issue (.vstM o) { trap := x.trap, wchk := x.wchk, wait := x.wait, run := fun s => s.eff (.store r) } s

end Sys2Proof.Machine
end

