-- ==== Sys2Proof/Machine/Control.lean ====
section
/-! DEFINITION. Control transfers, loops, waiting and ending, traps and return, special registers, checks, the header and
unassigned words (R86, R99, R149 to R165). -/

namespace Sys2Proof.Machine

/-! ## Transfers -/

/-- The address of the bundle in issue. -/
def State.pcNat (s : State) : Nat := s.core.spr.pc.toNat

/-- A relative target: P + 16 x sext(O, w) (R149). -/
def relTarget (s : State) (o w : Nat) : Int := (s.pcNat : Int) + 16 * sext o w

/-- A transfer: an address outside 0 to 2^56 - 1, or a register target off a bundle boundary, traps as ILLEGAL (R149). -/
def transfer (taken : Bool) (target : Int) (also : State → State) : Op :=
  { trap := if taken && (decide (target < 0) || decide ((2 ^ 56 : Int) ≤ target) || target % 16 != 0)
      then some (.illegal, wrap 64 target) else none,
    run := fun s => if taken then (also s).goto target.toNat else s }

/-- BR label (R150). -/
def execBr (o : OpSNgo) (s : State) : Out := issue (.br o) (transfer true (relTarget s o.o 20) id) s

/-- JMP sA (R150). -/
def execJmp (o : OpSNga) (s : State) : Out := issue (.jmp o) (transfer true ((s.core.sreg o.a).toNat : Nat) id) s

/-- RET sA (R150). -/
def execRet (o : OpSNga) (s : State) : Out := issue (.ret o) (transfer true ((s.core.sreg o.a).toNat : Nat) id) s

/-- CALL sD, label: the link is the next bundle in memory (R150). -/
def execCall (o : OpSNgdo) (s : State) : Out :=
  issue (.call o) (transfer true (relTarget s o.o 14) (fun s => s.landS 1 o.d (s.pcNat + 16))) s

/-- BRC qQ, label: taken, it clears LC (R151). -/
def execBrc (o : OpSNgxqo) (s : State) : Out :=
  issue (.brc o) (transfer (s.core.pred o.q != (o.x.val == 1)) (relTarget s o.o 15) (fun s => s.eff (.lc 0))) s

/-- BR.G label: the predicate is checked against the scalar twin latch, N gives the direction (R152). -/
def execBrG (o : OpSNgo) (s : State) : Out :=
  let c := s.core.pred o.g
  issue (.brG o)
    { transfer (c != (o.n.val == 1)) (relTarget s o.o 20) id with
      twin := if c != (s.core.regs.twinS != 0) then some 0 else none } s

/-! ## Counted and rotating loops -/

/-- SETLC sA (R153). -/
def execSetlc (o : OpSNga) (s : State) : Out := issue (.setlc o) { run := fun s => s.eff (.lc (s.core.sreg o.a)) } s

/-- LOOP label (R153). -/
def execLoop (o : OpSNgo) (s : State) : Out :=
  let lc := s.core.spr.lc
  issue (.loop o) (transfer (lc != 0) (relTarget s o.o 20) (fun s => s.eff (.lc (lc - 1)))) s

/-- The wheel one pass on (R154). -/
def wheelNext (r : Word) : Word :=
  setFld (setFld (setFld r 0 4 (fld r 0 4 + 1)) 8 3 (fld r 8 3 + 1)) 16 5 (fld r 16 5 + 1)

/-- LOOPR label, S: LC counts down, the wheel advances, the stage predicate of stage 0 is written and the branch is taken
while an iteration is left (R154, R155). -/
def execLoopr (o : OpSNgso) (s : State) : Out :=
  let t := s.core
  let lc := t.spr.lc
  let w := (List.range o.s.val).any (fun k => t.pred (8 + k))
  let more := lc != 0
  let taken := more || w
  let target := relTarget s o.o 17
  let wheel := wheelNext t.spr.rotw
  issue (.loopr o)
    { transfer taken target id with
      run := fun s =>
        let s := ((s.eff (.lc (if more then lc - 1 else 0))).eff (.rotw wheel)).land 1 (.pred (physQ wheel 8) more)
        if taken then s.goto target.toNat else s } s

/-! ## Waiting and ending -/

/-- WAITC sA (R158). -/
def execWaitc (o : OpSNga) (s : State) : Out := issue (.waitc o) { wait := decide (s.hub.gtc < (s.core.sreg o.a).toNat) } s

/-- A scoreboarded value of the running context is pending. -/
def Tile.anyPending (t : Tile) : Bool := t.reqs.any (fun r => !r.late && (isLoadReq r || r.kind == .amo || r.kind == .xget || r.kind == .xstat))

/-- HALT: at supervisor level it first waits until nothing of the monitor is in flight, and what is in flight lands while it
waits (R159; log A21). -/
def execHalt (o : OpSNg) (s : State) : Out :=
  let t := s.core
  let hold := t.sup && (t.flight != [] || t.anyPending)
  let s' := if legal (.halt o) && (guardOf (.halt o)).on t && hold then s.onCore Tile.advance else s
  issue (.halt o) { wait := hold, run := fun s => s.eff .halt } s'

/-- RETIRE (R160). -/
def execRetire (o : OpSNg) (s : State) : Out := issue (.retire o) { run := fun s => s.eff .retire } s

/-! ## Traps and return -/

/-- TRAP code (R161). -/
def execTrap (o : OpSNgi) (s : State) : Out := issue (.trap o) { run := fun s => s.eff (.softTrap o.i) } s

/-- The first queue record of the image that would trap at decode, as its image offset (R407). -/
def badQueueRecord (s : State) : Option Nat :=
  ((List.range (bits (imageWord s 0) 32 8)).map (fun i => 0x5C0 + 32 * i)).find? (fun off =>
    let w := imageWord s off
    match decodeSlot { space := .t, word := bits w 0 32, hdr := 1, ext := Fin.ofNat 256 (bits w 32 8) } with
    | some i => !(legal i && extOk i && featOk s.hub.featacc i)
    | none => true)

/-- The TPC that an ERET returns to (R162). -/
def eretPc (s : State) : Nat := if fld s.core.spr.tstat 1 1 = 1 then s.core.spr.tpc.toNat else imageWord s 8

/-- What ERET finds at issue (R162, R407). DESIGN CHOICE: an image with a poisoned word that the tile has no mark for traps as POISON with its
address, before the other checks of the image (R328; log 67). -/
def eretTrap (o : OpSNg) (s : State) : Option (Cause × Nat) :=
  let t := s.core
  let img := fld t.spr.tstat 1 1 == 0
  if !t.sup then some (.priv, slotWordOf (.eret o))
  else if img && (imageBad s).isSome then some (.poison, saveArea s s.self % 4194304 + (imageBad s).getD 0)
  else if img && !bit (imageWord s 0) 63 then some (.illegal, 0)
  else if eretPc s % 16 ≠ 0 ∨ 2 ^ 56 ≤ eretPc s then some (.illegal, eretPc s)
  else if img then (badQueueRecord s).map (fun off => (.illegal, off))
  else none

/-- A task that HALT stopped may not go back to its image: a poisoned word, its TPC or a queue record there would make ERET trap (R407, R408;
logs 53, 67). -/
def haltBad (s : State) : Bool := (imageBad s).isSome || decide (imageWord s 8 % 16 ≠ 0) || decide (2 ^ 56 ≤ imageWord s 8) || (badQueueRecord s).isSome

/-- A halted task's image still lacks an AMO value (R408, R522). -/
def haltLacks (s : State) : Bool := haltImage s && (imageSnaps s).any (fun w => bit w 63 && bits w 59 4 == 12 && bit w 52)

/-- The image of a halted task read, its codes checked (R319). -/
def haltReads (s : State) : State :=
  if s.core.task.run = .halted ∧ fld s.core.spr.mcsb 6 1 = 1 then s.reads (saveArea s s.self) 16384 else s

/-- TILECTL's restart of the tile in focus (R159, R407, R408). -/
def restartCore (s : State) : State :=
  if s.core.task.run = .halted ∧ haltImage s ∧ haltBad s then s else restartTile s

/-- A restart that waited for its image's values is made (R408, R522). -/
def restartWaiting (s : State) : State :=
  if s.core.task.rst.isSome && s.core.task.run == .halted then
    let s := haltReads s
    if haltLacks s then s else restartCore (serveRestart s)
  else s

/-- ERET waits for the monitor's values, and for every AMO value that the image, or a live SNAP entry, still lacks (R162,
R522). -/
def eretWaits (s : State) : Bool :=
  let ws := if fld s.core.spr.tstat 1 1 = 1 then s.core.spr.snap.toList.map (·.toNat) else imageSnaps s
  s.core.anyPending || ws.any (fun w => bit w 63 && bits w 59 4 == 12 && bit w 52)

/-- ERET: from an image it reads that whole, its codes checked (R162, R319, R407). -/
def execEret (o : OpSNg) (s : State) : Out :=
  let s := if reaches (.eret o) s && s.core.sup && fld s.core.spr.tstat 1 1 == 0 then s.reads (saveArea s s.self) 16384 else s
  issue (.eret o) { trap := eretTrap o s, wait := eretWaits s, run := fun s => s.eff .eret } s

/-! ## Special registers and format -/

/-- The value of a special register (R25, R163). -/
def readSpec (s : State) (i : Nat) : Word :=
  let p := s.core.spr
  match i with
  | 0x00 => p.pc
  | 0x01 => p.tstat
  | 0x02 => p.fmt
  | 0x03 => p.lc
  | 0x05 => p.rotw
  | 0x08 => p.tcause
  | 0x09 => p.tpc
  | 0x0A => p.tval
  | 0x0B => p.cyc
  | 0x0C => BitVec.ofNat 64 s.hub.gtc
  | 0x0D => p.taskid
  | 0x0E => p.bown
  | 0x0F => s.core.rng.rbqs
  | 0x10 => p.wchk
  | 0x11 => p.stage
  | i => if 0x20 ≤ i ∧ i ≤ 0x27 then p.rg.getD (i - 0x20) 0 else p.snap.getD (i - 0x40) 0

/-- The special registers that task level may not read (R25). -/
def specHidden (i : Nat) : Bool := (0x08 ≤ i && i ≤ 0x0A) || (0x20 ≤ i && i ≤ 0x27) || 0x40 ≤ i

/-- The special registers that task level may write (R25). -/
def specOpen (i : Nat) : Bool := i == 0x02 || i == 0x03 || i == 0x05

/-- The reserved bits of a special register (R28 to R37, R399). -/
def specReserved (i : Nat) : Nat :=
  match i with
  | 0x01 => 2 ^ 64 - 32
  | 0x05 => 2 ^ 64 - 2 ^ 21 + 0xF800 + 0xF0
  | 0x08 => 2 ^ 64 - 2 ^ 13
  | 0x0D => 2 ^ 64 - 2 ^ 40
  | 0x0E => 2 ^ 64 - 2 ^ 48
  | 0x0F => 0xC0
  | 0x10 => 2 ^ 64 - 4
  | 0x11 => 2 ^ 64 - 2 ^ 16
  | i => if 0x40 ≤ i then 0x000F00FFFE000000 else 0

/-- A range register that may not be written (R336). -/
def rgBad (v : Word) : Bool :=
  let sz := fld v 11 5
  let vb := fld v 38 26
  let cls := fld v 8 3
  let tgt := fld v 4 4
  fld v 0 1 == 1 &&
    (decide (22 < sz) || vb % 2 ^ sz != 0 || fld v 16 22 % 2 ^ sz != 0 || vb / 2 ^ 14 == 0 || decide (5 ≤ cls) ||
      (match cls with | 1 => false | 3 => decide (2 ≤ tgt) | 4 => decide (2 ≤ tgt) | _ => tgt != 0))

/-- MFS sD, NAME (R25, R163). -/
def execMfs (o : OpSNgdi) (s : State) : Out :=
  issue (.mfs o)
    { trap := if !s.core.sup && specHidden o.i then some (.priv, o.i) else none,
      run := fun s => s.landS 1 o.d (readSpec s o.i).toNat } s

/-- What MTS finds at issue (R25, R67, R336, R472). -/
def mtsTrap (s : State) (i : Nat) (v : Word) : Option (Cause × Nat) :=
  if !s.core.sup && !specOpen i then some (.priv, i)
  else if (v.toNat &&& specReserved i) ≠ 0 then some (.illegal, i)
  else if i = 2 ∧ (fmtOk v.toNat && fmtFeat s.hub.featacc v.toNat) = false then some (.illegal, 2)
  else if 0x20 ≤ i ∧ i ≤ 0x27 ∧ rgBad v then some (.illegal, i)
  else if i = 0x10 ∧ bit v.toNat 0 ∧ bit s.hub.featacc 10 = false then some (.illegal, i)
  else none

/-- MTS NAME, sA (R25, R26, R163): a write of FMT lands four bundles on (R68), any other takes effect at commit. -/
def execMts (o : OpSNgai) (s : State) : Out :=
  let v := s.core.sreg o.a
  issue (.mts o)
    { trap := mtsTrap s o.i v,
      run := fun s => if o.i.val = 2 then s.land 4 (.fmt v) else s.eff (.spec o.i v) } s

/-- SETFMT imm (R164). -/
def execSetfmt (o : OpSI) (s : State) : Out := issue (.setfmt o) { run := fun s => s.land 4 (.fmt (BitVec.ofNat 64 o.i)) } s

/-! ## Checks, header, unassigned words -/

/-- CHK.S sA (R165). -/
def execChkS (o : OpSNga) (s : State) : Out :=
  issue (.chkS o) { twin := if s.core.sreg o.a != s.core.regs.twinS then some 0 else none } s

/-- What VJ waits for: earlier writes of the tile's scratchpad performed, earlier loads of it returned (R185). -/
def joinWaits (s : State) : Bool :=
  s.core.reqs.any (fun r => ownPlace s.self r && (isLoadReq r || ((r.kind == .amo || r.kind == .barUpd) && r.open)))

/-- The header's attributes: RB, RE, VJ and TW govern its bundle (R86, R87, R118, R185). -/
def execHeader (o : OpHeader) (s : State) : Out :=
  let w := slotWordOf (.header o)
  let inr := s.core.inreg
  if (o.rb.val == 1 && inr) || (o.re.val == 1 && !(inr || o.rb.val == 1)) then trapOut s .illegal 15 (w + 8 * 2 ^ 32) .trapDecode
  else
    issue (.header o)
      { wait := o.vj.val == 1 && joinWaits s,
        run := fun s =>
          let s := s.onCore (fun t => t.onIss (fun i =>
            { i with rb := o.rb.val == 1, re := o.re.val == 1, vj := o.vj.val == 1, tw := o.tw.val == 1, hdr := w }))
          if o.vj.val = 1 then s.join else s } s

/-- A word of no opcode, or with a nonzero reserved field, traps as ILLEGAL (R10, R99). -/
def execUnassignedOpcode (o : OpUnassigned) (s : State) : Out := issue (.unassignedOpcode o) {} s

end Sys2Proof.Machine
end

