-- ==== Sys2Proof/Machine/Bundle.lean ====
section
/-! DEFINITION. A bundle: fetch, the decode checks of R99, the boundary causes of R393, and the issue of its operations. -/

namespace Sys2Proof.Machine

/-! ## Boundary causes -/

/-- A pre-emption request is taken on the tile in focus (R118, R406): outside a region, and at once if frozen. -/
def preemptCore (s : State) : State :=
  let t := s.core
  let frz := t.task.run == .frozen
  takeTrap s .preempt 15 (b2n frz) t.spr.pc

/-- The region of the tile in focus has outlasted its limit (R119). -/
def regionExpired (s : State) : Bool := s.core.inreg && decide (s.core.task.regionStart + Config.regionTicks ≤ s.hub.gtc)

/-- REGION is taken on the tile in focus (R119). -/
def regionCore (s : State) : State :=
  takeTrap s .region 15 (s.core.task.regionStart + Config.regionTicks) s.core.spr.pc

/-- Whether a request has failed and its failure is a return cause (R404, R405). -/
def Req.failing (r : Req) : Bool :=
  !r.late && (match r.st with | .poisoned => true | .page => true | .perm => true | .discarded => true | .barErr => true | _ => false)

/-- The cause and TVAL of a failed request (R391, R193, R241). -/
def Req.cause (r : Req) : Cause × Nat :=
  match r.st with
  | .poisoned => (.poison, r.data)
  | .page => (.page, r.va)
  | .barErr => (.barrier, r.data)
  | .discarded => (.facet, r.sco % 8 + 512)
  | _ => (.perm, r.va)

/-- Whether the access of a return cause goes into the image with its ST: a load or an AMO of a task that a monitor serves (R401,
R404, R522; log 66). -/
def recordedCause (t : Tile) (r : Req) : Bool :=
  !t.sup && fld t.spr.mcsb 6 1 == 1 && (isLoadReq r || r.kind == .amo)

/-- The return cause of the earliest failed request is taken (R393, R404, R405). -/
def returnCore (s : State) : State :=
  match oldestOf (fun r : Req => r.failing && r.kind != .fetch) s.core.reqs with
  | some i =>
    let r := lget (Req.empty .ld) s.core.reqs i
    let (c, v) := r.cause
    takeTrap (s.onCore (fun t => { t with reqs := if recordedCause t r then t.reqs else ldel t.reqs i })) c 15 v s.core.spr.pc
  | none => s.onCore (fun t => t.onTask (fun k => { k with pend := none }))

/-! ## Fetch -/

/-- How the fetch of the bundle at PC ends. -/
inductive Fetch where
  | bytes (b : List Nat)
  | trap (c : Cause) (v : Nat)
  | wait (r : Option Req)
  deriving DecidableEq, Repr

/-- The fetch of the bundle at PC through the range registers and the instruction cache (R149, R321, R337, R339). -/
def fetch (s : State) : Fetch :=
  let t := s.core
  let a := t.spr.pc.toNat
  let rs := if t.fetchRg = [] then t.ranges else t.fetchRg
  if !isGlobal a then .trap .range a
  else
    match rs.find? (rgMatch a) with
    | none => .trap .range a
    | some r =>
      if fld r 3 1 = 0 then .trap .perm a
      else
        let cls := fld r 8 3
        let tgt := rgTgt r
        let dia := rgDia a r
        match findLine t.icache (lineKey cls tgt dia) with
        | some l => .bytes (toBytes 16 (l.data / 2 ^ (8 * (dia % 64))))
        | none =>
          match t.reqs.find? (fun q => q.kind == .fetch && q.va == a) with
          | some q =>
            if q.failing then (let (c, v) := q.cause; .trap c v)
            else if q.st = .done then .bytes (toBytes 16 q.data)
            else .wait none
          | none => .wait (some { Req.empty .fetch with va := a, size := 16, cls := cls, tgt := tgt, place := dia })

/-! ## Decode -/

/-- The instruction of a slot word, or the marker of a word that the opcode maps leave unassigned (R99). -/
def slotInstr (pos : Fin 4) (word : Nat) (h : Fin 2) (e : Nat) : Instr :=
  let space : Space := match pos.val with | 0 => .s | 3 => .t | _ => .v
  match decodeSlot { space := space, word := word, hdr := h, ext := Fin.ofNat 256 e } with
  | some i => i
  | none => .unassignedOpcode { slot := pos, word := Fin.ofNat 4294967296 word, h := h, e := Fin.ofNat 256 e }

/-- The operation whose format a word of an assigned opcode has: the word itself, or one that its reserved bits do not spoil, for the header
checks, which come before those of the slot (R87, R99). -/
def slotKin (i : Instr) : Instr :=
  match i with
  | .unassignedOpcode o =>
    let space : Space := match o.slot.val with | 0 => .s | 3 => .t | _ => .v
    let kin (w : Nat) : Option Instr := decodeSlot { space := space, word := w, hdr := o.h, ext := o.e }
    ([o.word.val / 2 * 2, o.word.val / 8192 * 8192, o.word.val / 33554432 * 33554432].findSome? kin).getD i
  | i => i

/-- A decoded bundle: its header if it has one, and its four operations, NOP in S under a header (R84, R86). -/
structure Bundle where
  hdr : Option OpHeader
  hw : Nat
  s : Instr
  v0 : Instr
  v1 : Instr
  t : Instr
  deriving DecidableEq, Repr

/-- The decode of 16 bytes (R84 to R88). -/
def decodeBundle (b : List Nat) : Bundle :=
  let w0 := bundleWord b 0
  let isH := w0 / 268435456 = 15
  let h : Fin 2 := if isH then 1 else 0
  let x (lo : Nat) : Nat := if isH then bits w0 lo 8 else 0
  { hdr := if isH then some (OpHeader.ofWord w0) else none, hw := if isH then w0 else 0,
    s := if isH then .nop else slotInstr 0 w0 0 0, v0 := slotInstr 1 (bundleWord b 1) h (x 16),
    v1 := slotInstr 2 (bundleWord b 2) h (x 8), t := slotInstr 3 (bundleWord b 3) h (x 0) }

/-- The operations of a bundle with their slots, NOPs left out. -/
def Bundle.ops (b : Bundle) : List (Nat × Instr) :=
  (match b.hdr with | some o => [(0, Instr.header o)] | none => []) ++
    [(0, b.s), (1, b.v0), (2, b.v1), (3, b.t)].filter (fun x => x.2 != .nop)

/-- A header bit. -/
def Bundle.flag (b : Bundle) (f : OpHeader → Fin 2) : Bool := match b.hdr with | some o => (f o).val == 1 | none => false

/-- TW of a bundle (R86). -/
def Bundle.tw (b : Bundle) : Bool := b.flag (·.tw)

/-- The header checks of R87, in their order: the reason of the first failure (R99). -/
def headerFault (b : Bundle) (inreg : Bool) : Option Nat :=
  match b.hdr with
  | none => none
  | some o =>
    let sameOp := slotWordOf b.v0 == slotWordOf b.v1 && o.e0 == o.e1
    if b.tw && !twCapable (slotKin b.v1) then some 1
    else if b.tw && isRandom (slotKin b.v0) && isRandom (slotKin b.v1) && !sameOp then some 1
    else if (b.v0 == .nop && o.e0.val != 0) || (b.v1 == .nop && o.e1.val != 0) || (b.t == .nop && o.et.val != 0) then some 2
    else if !(extOk (slotKin b.v0) && extOk (slotKin b.v1) && extOk (slotKin b.t)) then some 2
    else if b.flag (·.rb) && inreg then some 8
    else if b.flag (·.re) && !(inreg || b.flag (·.rb)) then some 8
    else none

/-- An ERET whose bundle holds another operation (R162). -/
def eretCrowded (b : Bundle) : Bool :=
  match b.s with | .eret _ => !(b.v0 == .nop && b.v1 == .nop && b.t == .nop) | _ => false

/-- The first slot whose word fails decode, with its TVAL (R99). -/
def slotFault (feat : Nat) (b : Bundle) : Option (Nat × Nat) :=
  let bad (i : Instr) : Bool := !(legal i && featOk feat i)
  if bad b.s || eretCrowded b then some (0, illegalTval b.s)
  else if bad b.v0 then some (1, illegalTval b.v0)
  else if bad b.v1 then some (2, illegalTval b.v1)
  else if bad b.t then some (3, illegalTval b.t)
  else none

/-- Whether an operation is VTRN (R110). -/
def isVtrn (i : Instr) : Bool := match i with | .vtrn _ => true | _ => false

/-- The vector read ports that an operation takes: VTRN takes all six (R107, R219). -/
def vPorts (i : Instr) : Nat := if isVtrn i then 6 else (srcOf i).v.length

/-- The file whose read ports a bundle exceeds (R107, R108). DESIGN CHOICE: where it exceeds those of several, the lowest file code (R99; log
73). -/
def portFault (b : Bundle) : Option Nat :=
  let nz (l : List Nat) : Nat := (l.filter (· != 0)).length
  let all := [b.s, b.v0, b.v1, b.t]
  if nz (srcOf b.s).s + nz (srcOf b.v0).s + nz (srcOf b.v1).s > 3 then some 1
  else if (all.map (fun i => nz (srcOf i).q)).sum > 4 then some 2
  else if (all.map vPorts).sum > 6 then some 3
  else if (all.map (fun i => (srcOf i).m.length)).sum > 3 then some 4
  else none

/-- The landings that a bundle begins, guarded-off ones included, by slot (R90, R109). -/
def bundleLands (t : Tile) (b : Bundle) : List Landing :=
  deadLand t b.s false ++ deadLand t b.v0 false ++ deadLand t b.v1 b.tw ++ deadLand t b.t false

/-- The file whose exposed write ports a future bundle would exceed (R107, R109). DESIGN CHOICE: of several, the lowest file code (R99; log
73). -/
def landFault (fl : List Landing) : Option Nat :=
  let ov (file lim : Nat) : Bool := (List.range 15).any (fun d => decide (portLoad fl file d > lim))
  if ov 1 2 then some 1 else if ov 2 2 then some 2 else if ov 3 3 then some 3 else if ov 4 2 then some 4 else none

/-- Two landings of one bundle reach one target at one bundle (R51). DESIGN CHOICE: special registers written at commit are no landings, so
MTS BOWN in S beside BANK.ACQ or BANK.REL in T is accepted, and T's value, made from BOWN before the bundle, stands (R51, R52; log 70). -/
def anySame : List Landing → Bool
  | [] => false
  | x :: xs => xs.any (sameTarget x) || anySame xs

/-- T names a vector register (R110). -/
def tVector (i : Instr) : Bool := match i with | .mxrd _ => true | .mxwr _ => true | .xget _ => true | _ => false

/-- The bundle-wide checks of R99 in their order: reason and file code of the first failure. -/
def bundleFault (t : Tile) (b : Bundle) : Option (Nat × Nat) :=
  let ls := bundleLands t b
  let amos := (t.reqs.filter (fun r => r.kind == .amo && !r.late && (r.open || r.st == .done))).length + b2n (isAmo b.s)
  match portFault b with
  | some f => some (3, f)
  | none =>
    match landFault (t.flight ++ ls) with
    | some f => some (4, f)
    | none =>
      if anySame ls then some (5, 0)
      else if isRandom b.v0 && isRandom b.v1 && !b.tw then some (6, 0)
      else if isVtrn b.v1 || (isVtrn b.v0 && (b.v1 != .nop || tVector b.t)) then some (7, 0)
      else if ((t.flight ++ ls).map (fun x => payloadBytes x.what)).sum + 8 * amos > 3840 then some (9, 0)
      else none

/-- The first decode failure of a bundle: SLOT and TVAL (R99). -/
def decodeFault (s : State) (b : Bundle) : Option (Nat × Nat) :=
  match headerFault b s.core.inreg with
  | some r => some (15, b.hw + r * 2 ^ 32)
  | none =>
    match slotFault s.hub.featacc b with
    | some x => some x
    | none => (bundleFault s.core b).map (fun x => (15, x.1 * 2 ^ 32 + x.2 * 2 ^ 40))

/-! ## Issue of a bundle -/

/-- The state in which the operation x of a slot is issued. -/
def atSlot (s : State) (b : Bundle) (slot : Nat) (x : Instr) (last : Bool) : State :=
  s.onCore (fun t => t.onIss (fun i => { i with slot := slot, tnt := taints t x, last := last, tw := b.tw, rb := b.flag (·.rb),
                                                 re := b.flag (·.re), vj := b.flag (·.vj), hdr := b.hw, out := .done }))

/-- The operations of a bundle, one after another; the last one commits. -/
def runOps (exec : Instr → State → Out) (b : Bundle) : List (Nat × Instr) → State → Out
  | [], s => .next s
  | [(p, i)], s => exec i (atSlot s b p i true)
  | (p, i) :: rest, s =>
    match exec i (atSlot s b p i false) with
    | .next s' => runOps exec b rest s'
    | x => x

/-- How an operation issued alone, without a commit, ends. -/
def tryOp (exec : Instr → State → Out) (b : Bundle) (s : State) (x : Nat × Instr) : Tag × Out :=
  let o := exec x.2 (atSlot s b x.1 x.2 false)
  (match o with | .next s' => s'.core.iss.out | _ => .trapDecode, o)

/-- The outcome that a bundle of several operations takes among those of its operations: the scoreboard first, then the causes of
R392 at the lowest slot, then any other wait. -/
def pick (l : List (Tag × Out)) : Option (Tag × Out) :=
  let f (g : Tag) : Option (Tag × Out) := l.find? (fun x => x.1 == g)
  ((((f .trapDecode).or (f .stallSb)).or (f .trapIssue)).or (f .trapWchk)).or (((f .trapTwin).or (f .stallRecv)).or (f .stall))

/-- The loads that a bundle would add (R401). -/
def newLoads (t : Tile) (ops : List (Nat × Instr)) : Nat := (ops.filter (fun x => isLoad x.2 && (guardOf x.2).on t)).length

/-- The issue of a decoded bundle (R102, R111, R392, R401). -/
def issueBundle (exec : Instr → State → Out) (b : Bundle) (s : State) : Out :=
  let t := s.core
  let first : Instr := match b.ops with | (_, i) :: _ => i | [] => .nop
  if t.chkWait ≠ 0 then stallOut s first .stall
  else if (t.reqs.filter isLoadReq).length + newLoads t b.ops > 16 ∧ newLoads t b.ops ≠ 0 then stallOut s first .stall
  else
    match b.ops with
    | [] => exec .nop (atSlot s b 0 .nop true)
    | [(p, i)] => exec i (atSlot s b p i true)
    | ops =>
      match pick (ops.map (tryOp exec b s)) with
      | some (_, o) => o
      | none => runOps exec b ops s

/-- Whether an issue ended in a trap. -/
def trapped (o : Out) : Bool :=
  match o with
  | .next s => (match s.core.iss.out with | .trapDecode => true | .trapIssue => true | .trapWchk => true | .trapTwin => true | _ => false)
  | _ => true

/-- What the bundle at PC does, before the causes of the boundary are weighed. -/
def attempt (exec : Instr → State → Out) (s : State) : Out :=
  match fetch s with
  | .trap c v => trapOut s c 15 v .trapIssue
  | .wait (some r) => stallOut (s.onCore (fun t => { t with reqs := t.reqs ++ [r] })) .nop .stall
  | .wait none => stallOut s .nop .stall
  | .bytes bs =>
    let b := decodeBundle bs
    match decodeFault s b with
    | some (slot, v) => trapOut s .illegal slot v .trapDecode
    | none => issueBundle exec b s

/-- One cycle of a running tile at its boundary: a return cause first, then the bundle's own cause, then PREEMPT and REGION, else
the bundle (R393); a refill of a staging buffer holds the first bundle after a return (R23). -/
def issueWith (exec : Instr → State → Out) (s : State) : Out :=
  let s := s.onCore (fun t => { t with iss := Iss.reset })
  if s.core.task.pend.isSome then .next (returnCore s)
  else
    let o := if s.core.osb.toList.any (·.refill) then stallOut s .nop .stall else attempt exec s
    if trapped o then o
    else if s.core.task.preq && !s.core.inreg then .next (preemptCore s)
    else if regionExpired s then .next (regionCore s)
    else o

end Sys2Proof.Machine
end

