-- ==== Sys2Proof/Machine/FacetOps.lean ====
section
/-! DEFINITION. Facet instructions as the T slot issues them: their checks and the push of a command (R235 to R251). -/

namespace Sys2Proof.Machine

/-- What a facet instruction needs: its facet, an operand value that R236 refuses, its scratchpad operands (address, bytes,
whether the command writes them), whether those read are pulse vectors, and the facet states that it does not accept. -/
structure FacetUse where
  f : Nat
  bad : Bool := false
  rs : List (Nat × Nat × Bool) := []
  pulse : Bool := false
  ready : Bool := true
  noErr : Bool := true

/-- A facet of a tile. -/
def Tile.facet (t : Tile) (f : Nat) : Facet := t.facets.getD f Facet.reset

/-- The tile with a facet replaced. -/
def Tile.setFacet (t : Tile) (f : Nat) (x : Facet) : Tile := { t with facets := t.facets.setIfInBounds f x }

/-- The first byte of an operand outside the linear view (R236). -/
def outsideView (a n : Nat) : Option Nat :=
  if Config.scratchBytes ≤ a then some a else if Config.scratchBytes < a + n then some Config.scratchBytes else none

/-- The first byte of an operand in a bank that the task does not own (R236). -/
def unownedByte (bown : Word) (a n : Nat) : Option Nat :=
  ((List.range ((a + n - 1) / 65536 + 1 - a / 65536)).map (a / 65536 + ·)).findSome? (fun b =>
    if bit bown.toNat b then none else some (Nat.max a (b * 65536)))

/-- The checks of R236 in their order. DESIGN CHOICE: where more than one operand fails check 3 or 4, TVAL names a byte of the first of A, B,
for XUPD.D of A, COL, DST (log 72). -/
def facetTrap (s : State) (i : Instr) (u : FacetUse) : Option (Cause × Nat) :=
  let t := s.core
  let x := t.facet u.f
  if u.bad then some (.illegal, slotWordOf i)
  else if !bit t.spr.taskid.toNat (32 + u.f) then some (.facet, u.f)
  else if u.ready && !x.ready then some (.facet, u.f + 256)
  else if u.noErr && x.err then some (.facet, u.f + 512)
  else
    match u.rs.findSome? (fun r => outsideView r.1 r.2.1) with
    | some a => some (.range, a)
    | none => if t.sup then none else (u.rs.findSome? (fun r => unownedByte t.spr.bown r.1 r.2.1)).map (fun a => (.perm, a))

/-- The notes of checking mode for a command's operands (R409). -/
def notesOf (rs : List (Nat × Nat × Bool)) (who stamp : Nat) : List Note :=
  rs.map (fun r => { lo := r.1, hi := r.1 + r.2.1, wr := r.2.2, who := who, stamp := stamp })

/-- The bytes of a pulse vector that are read: 72 of each chunk of 128 (R237). -/
def pulseChunks (a : Nat) : List (Nat × Nat) := (List.range 16).map (fun m => (a + 128 * m, 72))

/-- The ranges of bytes that a facet command reads or writes (R237, R409). -/
def FacetUse.ranges (u : FacetUse) : List (Nat × Nat × Bool) :=
  u.rs.flatMap (fun r => if u.pulse && !r.2.2 then (pulseChunks r.1).map (fun p => (p.1, p.2, false)) else [r])

/-- The push of a facet command (R238), with its notes in checking mode (R409). -/
def Tile.pushFacet (t : Tile) (u : FacetUse) (op k et a b : Nat) : Tile :=
  let x := t.facet u.f
  let c : FCmd := { op := op, k := k, et := et, a := a, b := b, stamp := t.stamp }
  { t.setFacet u.f { x with queue := x.queue ++ [c], busy := true } with
    stamp := t.stamp + 1, notes := if t.checking then t.notes ++ notesOf u.ranges (16 + u.f) t.stamp else t.notes }

/-- A push to a facet waits while its queue holds four entries, and behind atomics at a scratchpad and an AMO with a scope (R42,
R177, R305). -/
def facetWaits (t : Tile) (f : Nat) : Bool := t.scopedAmo || t.openAtomic || decide (4 ≤ (t.facet f).queue.length)

/-- A facet instruction that pushes one command (R236, R238). -/
def facetOpOf (i : Instr) (u : FacetUse) (op k et a b : Nat) (s : State) : Out :=
  issue i
    { trap := facetTrap s i u, wait := facetWaits s.core u.f,
      run := fun s => s.onCore (fun t => t.pushFacet u op k et a b) } s

/-- A product: the input vector of 1,024 bytes and the scale (R237, R245). -/
def productOp (i : Instr) (o : OpTNgfkab) (op : Nat) (s : State) : Out :=
  let a := (s.core.sreg o.a).toNat
  facetOpOf i { f := o.f, bad := a % 64 != 0, rs := [(a, 1024, false)] } op o.k 0 a (s.core.sreg o.b).toNat s

/-- XMVM (R245). -/
def execXmvm (o : OpTNgfkab) (s : State) : Out := productOp (.xmvm o) o 1 s

/-- XMVT (R245). -/
def execXmvt (o : OpTNgfkab) (s : State) : Out := productOp (.xmvt o) o 2 s

/-- An update of array k: row and column pulse vectors (R253). -/
def updateOp (i : Instr) (o : OpTNgfab) (k : Nat) (s : State) : Out :=
  let a := (s.core.sreg o.a).toNat
  let b := (s.core.sreg o.b).toNat
  facetOpOf i { f := o.f, bad := a % 128 != 0 || b % 128 != 0, rs := [(a, 2048, false), (b, 2048, false)], pulse := true } 3 k o.e a b s

/-- XUPD.a (R253). -/
def execXupdA (o : OpTNgfab) (s : State) : Out := updateOp (.xupdA o) o 0 s

/-- XUPD.c (R253). -/
def execXupdC (o : OpTNgfab) (s : State) : Out := updateOp (.xupdC o) o 1 s

/-- XUPD.D: the packed operand holds the column vector, the dry-run window and the block (R255). -/
def execXupdD (o : OpTNgfab) (s : State) : Out :=
  let a := (s.core.sreg o.a).toNat
  let b := (s.core.sreg o.b).toNat
  let col := bits b 0 22
  let dst := bits b 22 22
  facetOpOf (.xupdD o)
    { f := o.f, bad := bits b 52 12 != 0 || a % 128 != 0 || col % 128 != 0 || dst % 64 != 0,
      rs := [(a, 2048, false), (col, 2048, false), (dst, 4096, true)], pulse := true } 4 0 o.e a b s

/-- A command on one column: bits 63 to 10 of the operand must be zero (R236). -/
def columnOp (i : Instr) (o : OpTNgfa) (op k : Nat) (noErr : Bool) (s : State) : Out :=
  let a := (s.core.sreg o.a).toNat
  facetOpOf i { f := o.f, bad := decide (1024 ≤ a), noErr := noErr } op k o.e a 0 s

/-- XFER (R256). -/
def execXfer (o : OpTNgfa) (s : State) : Out := columnOp (.xfer o) o 5 0 true s

/-- XFER.r (R256). -/
def execXferR (o : OpTNgfa) (s : State) : Out := columnOp (.xferR o) o 5 1 true s

/-- XRST of a column (R257). -/
def execXrst (o : OpTNgfa) (s : State) : Out := columnOp (.xrst o) o 6 0 false s

/-- XRST.all (R257). -/
def execXrstAll (o : OpTNgf) (s : State) : Out := facetOpOf (.xrstAll o) { f := o.f, noErr := false } 6 1 0 0 0 s

/-- XSYM.CAL (R258). -/
def execXsymCal (o : OpTNgf) (s : State) : Out := facetOpOf (.xsymCal o) { f := o.f, noErr := false } 7 0 0 0 0 s

/-- A command with one image in the scratchpad (R237). -/
def imageOp (i : Instr) (o : OpTNgfa) (op k n al : Nat) (wr : Bool) (s : State) : Out :=
  let a := (s.core.sreg o.a).toNat
  facetOpOf i { f := o.f, bad := a % al != 0, rs := [(a, n, wr)] } op k 0 a 0 s

/-- XSYM.LD (R258). -/
def execXsymLd (o : OpTNgfa) (s : State) : Out := imageOp (.xsymLd o) o 8 0 2048 64 false s

/-- XSYM.ST (R258). -/
def execXsymSt (o : OpTNgfa) (s : State) : Out := imageOp (.xsymSt o) o 9 0 2048 64 true s

/-- XCFG.w (R259). -/
def execXcfgW (o : OpTNgfa) (s : State) : Out := imageOp (.xcfgW o) o 11 0 32 32 false s

/-- XCFG.r (R259). -/
def execXcfgR (o : OpTNgfa) (s : State) : Out := imageOp (.xcfgR o) o 11 1 32 32 true s

/-- XCFG.wa (R259). -/
def execXcfgWa (o : OpTNgfa) (s : State) : Out := imageOp (.xcfgWa o) o 11 2 4096 64 false s

/-- XCFG.ra (R259). -/
def execXcfgRa (o : OpTNgfa) (s : State) : Out := imageOp (.xcfgRa o) o 11 3 4096 64 true s

/-- XCFG.wc (R259). -/
def execXcfgWc (o : OpTNgfa) (s : State) : Out := imageOp (.xcfgWc o) o 11 4 4096 64 false s

/-- XCFG.rc (R259). -/
def execXcfgRc (o : OpTNgfa) (s : State) : Out := imageOp (.xcfgRc o) o 11 5 4096 64 true s

/-- XMODE.n, and the words of mode codes 0b10 and 0b11, which decode alike (R235, R260). -/
def execXmodeN (o : OpTNgfrsv) (s : State) : Out :=
  facetOpOf (.xmodeN o) { f := o.f } 12 (if o.rsv.val = 0 then 0 else o.rsv.val + 1) 0 0 0 s

/-- XMODE.r (R260). -/
def execXmodeR (o : OpTNgf) (s : State) : Out := facetOpOf (.xmodeR o) { f := o.f } 12 1 0 0 0 s

/-- A facet instruction that pushes a command and marks its destination pending (R238). -/
def facetGet (i : Instr) (u : FacetUse) (op k dst : Nat) (s : State) : Out :=
  let r : Req := { Req.empty .xget with op := op, dst := dst, sco := u.f, seq := s.core.stamp }
  issue i
    { trap := facetTrap s i u, wait := facetWaits s.core u.f,
      run := fun s => (s.onCore (fun t => t.pushFacet u op k 0 0 0)).eff (.req r) } s

/-- XGET vB, Ff, k (R249). -/
def execXget (o : OpTNgfkb) (s : State) : Out :=
  facetGet (.xget o) { f := o.f } 10 o.k (physV s.core.spr.rotw o.b) s

/-- XSTAT.pc sB, Ff (R250). -/
def execXstatPc (o : OpTNgfb) (s : State) : Out :=
  facetGet (.xstatPc o) { f := o.f, ready := false, noErr := false } 13 1 (physS s.core.spr.rotw o.b) s

/-- The status word of a facet (R41). -/
def Facet.status (x : Facet) : Nat :=
  x.ecode * 256 + x.queue.length % 8 * 16 + b2n x.mode * 8 + b2n x.err * 4 + b2n x.busy * 2 + b2n x.ready

/-- XSTAT sB, Ff: the status word at the commit of its bundle (R250). -/
def execXstat (o : OpTNgfb) (s : State) : Out :=
  let u : FacetUse := { f := o.f, ready := false, noErr := false }
  let r : Req :=
    { Req.empty .xstat with st := .done, op := 13, dst := physS s.core.spr.rotw o.b, sco := o.f, size := 8,
                            data := (s.core.facet o.f).status }
  issue (.xstat o) { trap := facetTrap s (.xstat o) u, run := fun s => s.eff (.req r) } s

/-- XWAIT Ff: waits until the facet is idle; a facet then in error traps (R241, R251). -/
def execXwait (o : OpTNgf) (s : State) : Out :=
  let x := s.core.facet o.f
  issue (.xwait o)
    { trap := if x.busy then facetTrap s (.xwait o) { f := o.f, noErr := false } else facetTrap s (.xwait o) { f := o.f },
      wait := x.busy } s

end Sys2Proof.Machine
end

