-- ==== Sys2Proof/Machine/Matrix.lean ====
section
/-! DEFINITION. The matrix unit as the T slot issues it: MXLD, the MMA class, accumulator reads and writes (R261 to R272), and
what every push to the tensor command queue shares (R105, R275). -/

namespace Sys2Proof.Machine

/-! ## Pushes -/

/-- The opcode of a queue entry. -/
def Tcq.op (c : Tcq) : Nat := bits c.word 25 7

/-- The channel of a queue entry. -/
def Tcq.ch (c : Tcq) : Nat := bits c.word 14 3

/-- A push waits for a free entry, and behind atomics at a scratchpad and an AMO with a scope (R105, R177, R305). -/
def pushWaits (t : Tile) : Bool := t.scopedAmo || t.openAtomic || decide (16 ≤ t.tcq.length)

/-- The entry of a push at its commit (R275, R339). DESIGN CHOICE: of a push at supervisor level it keeps RG0 to RG7 alone, not MRNG, which the
monitor's own accesses match (R394; log 72). -/
def Tile.entry (t : Tile) (word et a b bead : Nat) : Tcq :=
  { word := word, et := et, a := a, b := b, beadRec := bead, rg := t.spr.rg.toList, bown := t.spr.bown.toNat,
    task := fld t.spr.taskid 0 32, stage := t.spr.stage.toNat, stamp := t.stamp }

/-- A push to the tensor command queue, with the notes of checking mode (R105, R409). -/
def Tile.push (t : Tile) (e : Tcq) (rs : List (Nat × Nat × Bool)) (who : Nat) : Tile :=
  { t with tcq := t.tcq ++ [e], stamp := t.stamp + 1,
           notes := if t.checking then t.notes ++ notesOf (rs.filter (fun r => r.2.1 != 0)) who t.stamp else t.notes }

/-- The linear view's own place of an address in the linear view or the tile's own cluster window (R168). -/
def ownOffset (self a : Nat) : Option Nat :=
  match sortLocal self a with
  | some d => if d.own && !d.swz then some (d.place % 4194304) else none
  | none => none

/-! ## MXLD -/

/-- Scale bytes of a row by format code: none, 3, 4, 6 (R262). -/
def scaleBytes (f : Nat) : Nat := match f with | 0 => 0 | 1 => 3 | 2 => 4 | _ => 6

/-- The fields of an MXLD descriptor: MCAST, RSTR, SADR, SSTR (R262). -/
structure MxDesc where
  mcast : Nat
  rstr : Nat
  sadr : Nat
  sstr : Nat
  deriving DecidableEq, Repr

/-- A descriptor's fields (R262). -/
def mxDesc (b : Nat) : MxDesc := { mcast := bits b 0 16, rstr := bits b 16 16, sadr := bits b 32 22, sstr := bits b 54 10 }

/-- The tile whose scratchpad holds an MXLD source, and the offset there; the linear view or a cluster window (R263). -/
def mxSource (self a : Nat) : Option (Nat × Nat) :=
  match sortLocal self a with
  | some d => if d.swz then none else some (d.place / 4194304, d.place % 4194304)
  | none => none

/-- The byte spans of a fill in the scratchpad that holds it: each row, then its scales (R262). -/
def mxSpans (off f : Nat) (d : MxDesc) : List (Nat × Nat) :=
  ((List.range 8).map (fun r =>
    (off + r * d.rstr, 96) :: (if f = 0 then [] else [(d.sadr + r * d.sstr, scaleBytes f)]))).flatten

/-- What the first form of MXLD finds at issue (R263). -/
def mxldTrap (s : State) (i : Instr) (a b f : Nat) : Option (Cause × Nat) :=
  let t := s.core
  let d := mxDesc b
  if a % 16 != 0 || d.rstr % 16 != 0 || (f == 0 && (d.sadr != 0 || d.sstr != 0)) then some (.illegal, slotWordOf i)
  else
    match mxSource s.self a with
    | none => some (.range, a)
    | some (tile, off) =>
      let base := a - off
      let sp := mxSpans off f d
      match sp.findSome? (fun x => outsideView x.1 x.2) with
      | some o => some (.range, base + o)
      | none =>
        if t.sup || tile != s.self then none
        else (sp.findSome? (fun x => unownedByte t.spr.bown x.1 x.2)).map (fun o => (.perm, base + o))

/-- Buffer d FILLING for a new fill; an earlier one is abandoned (R261). -/
def Tile.arm (t : Tile) (d f : Nat) (recv : Bool) (src desc : Nat) : Tile :=
  { t with osb := t.osb.setIfInBounds d { Osb.reset with st := 1, fmt := f, recv := recv, src := src, desc := desc } }

/-- A tile's own place among the MCAST bits. -/
def ownBit (self mcast : Nat) : Bool := mcast == 0 || bit mcast (self % 16)

/-- MXLD.fmt osbD, sA, sB (R262 to R265). -/
def execMxld (o : OpTNgdabf) (s : State) : Out :=
  let i : Instr := .mxld o
  let a := (s.core.sreg o.a).toNat
  let b := (s.core.sreg o.b).toNat
  let d := mxDesc b
  let rs := match mxSource s.self a with
    | some (tile, off) => if tile = s.self then (mxSpans off o.f d).map (fun x => (x.1, x.2, false)) else []
    | none => []
  issue i
    { trap := mxldTrap s i a b o.f, wait := pushWaits s.core,
      run := fun s => s.onCore (fun t =>
        let t := if ownBit s.self d.mcast then t.arm o.d o.f false a b else t
        t.push (t.entry (slotWordOf i) 0 a b 0) rs 8) } s

/-- MXLD.r osbD, sB: arms the buffer for a delivery from tile sreg(B)[3:0] of the cluster (R262, R265). -/
def execMxldR (o : OpTNgdb) (s : State) : Out :=
  let i : Instr := .mxldR o
  let b := (s.core.sreg o.b).toNat
  issue i
    { trap := if 16 ≤ b then some (.illegal, slotWordOf i) else none, wait := pushWaits s.core,
      run := fun s => s.onCore (fun t => (t.arm o.d 0 true (b % 16) b).push (t.entry (slotWordOf i) 1 0 b 0) [] 8) } s

/-! ## Multiply and accumulate -/

/-- The element bits of a format: BF16, MXINT8, MXINT6, MXINT4. -/
def mmaBits (f : Nat) : Nat := match f with | 1 => 8 | 2 => 6 | _ => 4

/-- A rounded sum, any NaN the default one (R78, R79). -/
def accRound (mode : Rm) (sat : Bool) (v : FVal) : FVal :=
  if v.isNan then FVal.dnan else fval (roundF mode sat v)

/-- The exact sum of a group of products; any NaN or invalid product makes the default NaN (R78). -/
def groupSum : List FVal → FVal
  | [] => .fin false 0 0
  | [x] => if x.isNan then FVal.dnan else x
  | x :: xs => let y := fadd x (groupSum xs); if y.isNan then FVal.dnan else y

/-- One element of a BF16 MMA (R78). -/
def mmaBf (mode : Rm) (sat : Bool) (ra rb : Nat) (acc : FVal) : FVal :=
  let prod (k : Nat) : FVal := fmul (fvalBf (bits ra (16 * k) 16)) (fvalBf (bits rb (16 * k) 16))
  (List.range 3).foldl (fun acc g =>
    accRound mode sat (fadd acc (accRound mode sat (groupSum ((List.range 16).map (fun k => prod (16 * g + k))))))) acc

/-- The exact integer dot product of block b (R79). -/
def blockDot (k ra rb b : Nat) : Int :=
  ((List.range 32).map (fun i => sext (bits ra (k * (32 * b + i)) k) k * sext (bits rb (k * (32 * b + i)) k) k)).foldl (· + ·) 0

/-- One element of an MXINT MMA (R79). -/
def mmaMx (f : Nat) (mode : Rm) (sat : Bool) (ra sa rb sb : Nat) (acc : FVal) : FVal :=
  let k := mmaBits f
  let nb := scaleBytes f
  let blocks := List.range nb
  if blocks.any (fun b => bits sa (8 * b) 8 == 255 || bits sb (8 * b) 8 == 255) then FVal.dnan
  else
    let tot : Int := (blocks.map (fun b => blockDot k ra rb b * 2 ^ (bits sa (8 * b) 8 + bits sb (8 * b) 8))).foldl (· + ·) 0
    accRound mode sat (fadd acc (.fin (decide (tot < 0)) tot.natAbs (-254 - 2 * ((k : Int) - 2))))

/-- One element of an MMA in format f (R267). -/
def mmaElem (f : Nat) (mode : Rm) (sat : Bool) (x y : Osb) (r c : Nat) (acc : FVal) : FVal :=
  let ra := x.rows.getD r 0
  let rb := y.rows.getD c 0
  if f = 0 then mmaBf mode sat ra rb acc else mmaMx f mode sat ra (x.scales.getD r 0) rb (y.scales.getD c 0) acc

/-- A buffer of the tile. -/
def Tile.buf (t : Tile) (b : Nat) : Osb := t.osb.getD (b % 4) Osb.reset

/-- The groups of an MMA-class operation: first row, row count, right buffer (R266, R269). -/
def mmaGroups (counts : List Nat) (ob : Nat) : List (Nat × Nat × Nat) :=
  (List.range counts.length).map (fun g => ((counts.take g).sum, counts.getD g 0, (ob + g) % 4))

/-- The buffers that an MMA-class operation uses (R269). -/
def mmaUsed (oa : Nat) (gs : List (Nat × Nat × Nat)) : List Nat :=
  let right := (gs.filter (fun g => g.2.1 != 0)).map (·.2.2)
  if right = [] then [] else oa :: right

/-- What an MMA-class operation shares: accumulator, buffers, format field, groups, start from zero, and its descriptor's
causes. -/
structure Mma where
  c : Nat
  oa : Nat
  gs : List (Nat × Nat × Nat)
  mf : Fin 8
  zero : Bool
  late : Option (Cause × Nat)

/-- The causes of an MMA-class operation in the order of R268; the format's own first (R69). DESIGN CHOICE: where several buffers fail one
check, TVAL names OA, or else the first right-hand buffer in group order (R268; log 70). -/
def Mma.trap (m : Mma) (t : Tile) : Option (Cause × Nat) :=
  let f := mmaFmt m.mf t.spr.fmt
  let used := mmaUsed m.oa m.gs
  let notFull := used.any (fun b => (t.buf b).st != 2)
  if m.mf.val = 0 ∧ fld t.spr.fmt 0 3 ≠ fld t.spr.fmt 3 3 then some (.illegal, t.spr.fmt.toNat)
  else
    match used.find? (fun b => (t.buf b).st == 0) with
    | some b => some (.mxuBound, 16 + b)
    | none =>
      m.late.or
        (if notFull then none
         else
           match used.find? (fun b => (t.buf b).fmt != f) with
           | some b => some (.mxuBound, 32 + b)
           | none => (used.findSome? (fun b => (t.buf b).poison)).map (fun a => (.poison, a)))

/-- The new value of accumulator element n of an MMA-class operation, from unit order (R103, R267). -/
def Mma.value (m : Mma) (t : Tile) (n : Nat) : BitVec 32 :=
  let f := mmaFmt m.mf t.spr.fmt
  let r := n / 8
  let old := t.regs.accU.getD (64 * m.c + n) 0
  match m.gs.find? (fun g => decide (g.1 ≤ r) && decide (r < g.1 + g.2.1)) with
  | none => old
  | some g =>
    let acc : FVal := if m.zero then .fin false 0 0 else fval old.toNat
    BitVec.ofNat 32 (roundF .rne false (mmaElem f (rmOf t.spr.fmt) (satOf t.spr.fmt) (t.buf m.oa) (t.buf g.2.2) r (n % 8) acc))

/-- The rows that an MMA-class operation covers. -/
def Mma.rows (m : Mma) : Nat := packFields 1 (fun r => b2n (m.gs.any (fun g => decide (g.1 ≤ r) && decide (r < g.1 + g.2.1)))) 8

/-- The initiation interval of a format (R103). -/
def mmaII (f : Nat) : Nat := match f with | 0 => 2 | 1 => 4 | 2 => 3 | _ => 2

/-- Accumulator values written in unit order at once and landing k bundles on (R103, R267). -/
def State.landAcc (s : State) (k c rows kind : Nat) (vs : List (BitVec 32)) : State :=
  (s.onCore (fun t => t.onRegs (fun r => { r with accU := setAccRows r.accU c rows vs }))).land k (.acc c rows vs kind)

/-- The issue of an MMA-class operation: it waits for FILLING buffers and for the unit (R103, R267). -/
def mmaOp (i : Instr) (m : Mma) (s : State) : Out :=
  let t := s.core
  let f := mmaFmt m.mf t.spr.fmt
  issue i
    { trap := m.trap t, waitSb := (mmaUsed m.oa m.gs).any (fun b => (t.buf b).st == 1), wait := t.mxWait != 0,
      run := fun s =>
        (s.onCore (fun t => { t with mxWait := mmaII f * m.gs.length })).landAcc (mmaLat f) m.c m.rows 6
          ((List.range 64).map (m.value t)) } s

/-- MMA accN, osbA, osbB (R266). -/
def execMma (o : OpTNgcxym) (s : State) : Out :=
  mmaOp (.mma o) { c := o.c, oa := o.x, gs := [(0, 8, o.y)], mf := o.m, zero := false, late := none } s

/-- MMAZ accN, osbA, osbB (R266). -/
def execMmaz (o : OpTNgcxym) (s : State) : Out :=
  mmaOp (.mmaz o) { c := o.c, oa := o.x, gs := [(0, 8, o.y)], mf := o.m, zero := true, late := none } s

/-- The causes of an MMAG descriptor with G groups: its form, then its sum (R268). -/
def mmagTrap (d g : Nat) : Option (Cause × Nat) :=
  if d / 65536 ≠ 0 ∨ bits d (4 * g) 16 % 2 ^ (16 - 4 * g) ≠ 0 then some (.mxuBound, 64)
  else if 8 < ((List.range 4).map (fun k => bits d (4 * k) 4)).sum then some (.mxuBound, 48)
  else none

/-- MMAG accN, osbA, osbB, sA, G (R269). -/
def execMmag (o : OpTNgcxymak) (s : State) : Out :=
  let d := (s.core.sreg o.a).toNat
  let g := o.k.val + 1
  mmaOp (.mmag o)
    { c := o.c, oa := o.x, gs := mmaGroups ((List.range g).map (fun k => bits d (4 * k) 4)) o.y, mf := o.m, zero := false,
      late := mmagTrap d g } s

/-! ## Accumulator reads and writes -/

/-- MXRD vA, accN, k: the landed values (R270). -/
def execMxrd (o : OpTNgcak) (s : State) : Out :=
  let t := s.core
  let e (n : Nat) : Nat := (t.regs.acc.getD (64 * o.c + n) 0).toNat
  let v : VWord :=
    if o.k.val = 2 then ofLanes 16 (fun n => roundBf (rmOf t.spr.fmt) (satOf t.spr.fmt) (fval (e n)))
    else ofLanes 32 (fun n => e (32 * o.k.val + n))
  issue (.mxrd o) { run := fun s => s.landV 4 o.a (BitVec.allOnes 64) v } s

/-- MXWR accN, vA, k (R271). -/
def execMxwr (o : OpTNgcak) (s : State) : Out :=
  let v := s.core.vreg o.a
  issue (.mxwr o)
    { run := fun s =>
        if o.k.val = 2 then
          s.landAcc 2 o.c 255 6 ((List.range 64).map (fun n => BitVec.ofNat 32 (roundF .rne false (fvalBf (lane v n 16)))))
        else
          s.landAcc 2 o.c (if o.k.val = 0 then 15 else 240) (7 + o.k.val)
            ((List.range 64).map (fun n => BitVec.ofNat 32 (lane v (n % 32) 32))) } s

/-- MXCLR accN (R272). -/
def execMxclr (o : OpTNgc) (s : State) : Out :=
  issue (.mxclr o) { run := fun s => s.landAcc 1 o.c 255 6 (List.replicate 64 0) } s

end Sys2Proof.Machine
end

