-- ==== Sys2Proof/Machine/Scalar.lean ====
section
/-! DEFINITION. Scalar arithmetic, constants, selection, comparison, predicate logic and cross-file copies (R142 to R148, R166,
R167). -/

namespace Sys2Proof.Machine

/-! ## Register arithmetic -/

/-- ADD (R142). -/
def aluAdd (a b : Nat) : Nat := a + b
/-- SUB (R142). -/
def aluSub (a b : Nat) : Nat := a + 2 ^ 64 - b
/-- AND (R142). -/
def aluAnd (a b : Nat) : Nat := a &&& b
/-- OR (R142). -/
def aluOr (a b : Nat) : Nat := a ||| b
/-- XOR (R142). -/
def aluXor (a b : Nat) : Nat := a ^^^ b
/-- ANDN: a and not b (R142). -/
def aluAndn (a b : Nat) : Nat := a ^^^ (a &&& b)
/-- SHL by b[5:0] (R142). -/
def aluShl (a b : Nat) : Nat := a * 2 ^ (b % 64)
/-- SHR by b[5:0] (R142). -/
def aluShr (a b : Nat) : Nat := a / 2 ^ (b % 64)
/-- SRA by b[5:0] (R142). -/
def aluSra (a b : Nat) : Nat := wrap 64 (sext a 64 / 2 ^ (b % 64))
/-- MUL (R142). -/
def aluMul (a b : Nat) : Nat := a * b
/-- MULH.i (R142). -/
def aluMulhI (a b : Nat) : Nat := wrap 64 (sext a 64 * sext b 64 / 2 ^ 64)
/-- MULH.n (R142). -/
def aluMulhN (a b : Nat) : Nat := a * b / 2 ^ 64
/-- MIN.i (R142). -/
def aluMinI (a b : Nat) : Nat := if sext b 64 < sext a 64 then b else a
/-- MIN.n (R142). -/
def aluMinN (a b : Nat) : Nat := Nat.min a b
/-- MAX.i (R142). -/
def aluMaxI (a b : Nat) : Nat := if sext a 64 < sext b 64 then b else a
/-- MAX.n (R142). -/
def aluMaxN (a b : Nat) : Nat := Nat.max a b
/-- CLZ (R142). -/
def aluClz (a : Nat) : Nat := if a = 0 then 64 else 63 - Nat.log2 a
/-- POPC (R142). -/
def aluPopc (a : Nat) : Nat := popc 64 a

/-- A scalar result of an operation, k bundles on (R142). -/
def scalarOut (i : Instr) (k d r : Nat) (s : State) : Out := issue i { run := fun s => s.landS k d r } s


/-- ADD sD, sA, sB (R142). -/
def execAdd (o : OpSNgdab) (s : State) : Out :=
  scalarOut (.add o) 1 o.d (aluAdd (s.core.sreg o.a).toNat (s.core.sreg o.b).toNat) s

/-- SUB sD, sA, sB (R142). -/
def execSub (o : OpSNgdab) (s : State) : Out :=
  scalarOut (.sub o) 1 o.d (aluSub (s.core.sreg o.a).toNat (s.core.sreg o.b).toNat) s

/-- AND sD, sA, sB (R142). -/
def execAnd (o : OpSNgdab) (s : State) : Out :=
  scalarOut (.and o) 1 o.d (aluAnd (s.core.sreg o.a).toNat (s.core.sreg o.b).toNat) s

/-- OR sD, sA, sB (R142). -/
def execOr (o : OpSNgdab) (s : State) : Out :=
  scalarOut (.or o) 1 o.d (aluOr (s.core.sreg o.a).toNat (s.core.sreg o.b).toNat) s

/-- XOR sD, sA, sB (R142). -/
def execXor (o : OpSNgdab) (s : State) : Out :=
  scalarOut (.xor o) 1 o.d (aluXor (s.core.sreg o.a).toNat (s.core.sreg o.b).toNat) s

/-- ANDN sD, sA, sB (R142). -/
def execAndn (o : OpSNgdab) (s : State) : Out :=
  scalarOut (.andn o) 1 o.d (aluAndn (s.core.sreg o.a).toNat (s.core.sreg o.b).toNat) s

/-- SHL sD, sA, sB (R142). -/
def execShl (o : OpSNgdab) (s : State) : Out :=
  scalarOut (.shl o) 1 o.d (aluShl (s.core.sreg o.a).toNat (s.core.sreg o.b).toNat) s

/-- SHR sD, sA, sB (R142). -/
def execShr (o : OpSNgdab) (s : State) : Out :=
  scalarOut (.shr o) 1 o.d (aluShr (s.core.sreg o.a).toNat (s.core.sreg o.b).toNat) s

/-- SRA sD, sA, sB (R142). -/
def execSra (o : OpSNgdab) (s : State) : Out :=
  scalarOut (.sra o) 1 o.d (aluSra (s.core.sreg o.a).toNat (s.core.sreg o.b).toNat) s

/-- MUL sD, sA, sB (R142). -/
def execMul (o : OpSNgdab) (s : State) : Out :=
  scalarOut (.mul o) 3 o.d (aluMul (s.core.sreg o.a).toNat (s.core.sreg o.b).toNat) s

/-- MULHI sD, sA, sB (R142). -/
def execMulhI (o : OpSNgdab) (s : State) : Out :=
  scalarOut (.mulhI o) 3 o.d (aluMulhI (s.core.sreg o.a).toNat (s.core.sreg o.b).toNat) s

/-- MULHN sD, sA, sB (R142). -/
def execMulhN (o : OpSNgdab) (s : State) : Out :=
  scalarOut (.mulhN o) 3 o.d (aluMulhN (s.core.sreg o.a).toNat (s.core.sreg o.b).toNat) s

/-- MINI sD, sA, sB (R142). -/
def execMinI (o : OpSNgdab) (s : State) : Out :=
  scalarOut (.minI o) 1 o.d (aluMinI (s.core.sreg o.a).toNat (s.core.sreg o.b).toNat) s

/-- MINN sD, sA, sB (R142). -/
def execMinN (o : OpSNgdab) (s : State) : Out :=
  scalarOut (.minN o) 1 o.d (aluMinN (s.core.sreg o.a).toNat (s.core.sreg o.b).toNat) s

/-- MAXI sD, sA, sB (R142). -/
def execMaxI (o : OpSNgdab) (s : State) : Out :=
  scalarOut (.maxI o) 1 o.d (aluMaxI (s.core.sreg o.a).toNat (s.core.sreg o.b).toNat) s

/-- MAXN sD, sA, sB (R142). -/
def execMaxN (o : OpSNgdab) (s : State) : Out :=
  scalarOut (.maxN o) 1 o.d (aluMaxN (s.core.sreg o.a).toNat (s.core.sreg o.b).toNat) s

/-- CLZ sD, sA (R142). -/
def execClz (o : OpSNgda) (s : State) : Out := scalarOut (.clz o) 1 o.d (aluClz (s.core.sreg o.a).toNat) s

/-- POPC sD, sA (R142). -/
def execPopc (o : OpSNgda) (s : State) : Out := scalarOut (.popc o) 1 o.d (aluPopc (s.core.sreg o.a).toNat) s

/-! ## Immediate forms -/

/-- ADDI sD, sA, imm (R144). -/
def execAddi (o : OpSNgdai) (s : State) : Out := scalarOut (.addi o) 1 o.d (aluAdd (s.core.sreg o.a).toNat (sx64 o.i 8)) s

/-- ANDI sD, sA, imm (R144). -/
def execAndi (o : OpSNgdai) (s : State) : Out := scalarOut (.andi o) 1 o.d (aluAnd (s.core.sreg o.a).toNat o.i) s

/-- ORI sD, sA, imm (R144). -/
def execOri (o : OpSNgdai) (s : State) : Out := scalarOut (.ori o) 1 o.d (aluOr (s.core.sreg o.a).toNat o.i) s

/-- XORI sD, sA, imm (R144). -/
def execXori (o : OpSNgdai) (s : State) : Out := scalarOut (.xori o) 1 o.d (aluXor (s.core.sreg o.a).toNat o.i) s

/-- MULI sD, sA, imm (R144). -/
def execMuli (o : OpSNgdai) (s : State) : Out := scalarOut (.muli o) 3 o.d (aluMul (s.core.sreg o.a).toNat (sx64 o.i 8)) s

/-- MINII sD, sA, imm (R144). -/
def execMiniI (o : OpSNgdai) (s : State) : Out := scalarOut (.miniI o) 1 o.d (aluMinI (s.core.sreg o.a).toNat (sx64 o.i 8)) s

/-- MININ sD, sA, imm (R144). -/
def execMiniN (o : OpSNgdai) (s : State) : Out := scalarOut (.miniN o) 1 o.d (aluMinN (s.core.sreg o.a).toNat o.i) s

/-- MAXII sD, sA, imm (R144). -/
def execMaxiI (o : OpSNgdai) (s : State) : Out := scalarOut (.maxiI o) 1 o.d (aluMaxI (s.core.sreg o.a).toNat (sx64 o.i 8)) s

/-- MAXIN sD, sA, imm (R144). -/
def execMaxiN (o : OpSNgdai) (s : State) : Out := scalarOut (.maxiN o) 1 o.d (aluMaxN (s.core.sreg o.a).toNat o.i) s

/-- SHLI sD, sA, imm (R144). -/
def execShli (o : OpSNgdai2) (s : State) : Out := scalarOut (.shli o) 1 o.d (aluShl (s.core.sreg o.a).toNat o.i) s

/-- SHRI sD, sA, imm (R144). -/
def execShri (o : OpSNgdai2) (s : State) : Out := scalarOut (.shri o) 1 o.d (aluShr (s.core.sreg o.a).toNat o.i) s

/-- SRAI sD, sA, imm (R144). -/
def execSrai (o : OpSNgdai2) (s : State) : Out := scalarOut (.srai o) 1 o.d (aluSra (s.core.sreg o.a).toNat o.i) s

/-- LDI sD, imm (R145). -/
def execLdi (o : OpSDi) (s : State) : Out := scalarOut (.ldi o) 1 o.d (wrap 64 (sext o.i 19)) s

/-- LDHI sD, imm16, h: one halfword of the register as read at issue replaced (R145). -/
def execLdhi (o : OpSDhi) (s : State) : Out :=
  scalarOut (.ldhi o) 1 o.d (setBits (s.core.sreg o.d).toNat (16 * o.h.val) 16 o.i) s

/-! ## Selection, comparison and predicate logic -/

/-- SEL sD, qS, sA, sB (R146). -/
def execSel (o : OpSNqdab) (s : State) : Out :=
  scalarOut (.sel o) 1 o.d (if s.core.pred o.q != (o.n.val == 1) then (s.core.sreg o.a).toNat else (s.core.sreg o.b).toNat) s

/-- A predicate result of an operation, one bundle on (R147, R148). -/
def predOut (i : Instr) (d : Nat) (v : Bool) (s : State) : Out := issue i { run := fun s => s.landQ 1 d v } s

/-- CMP.cond qD, sA, sB (R147). -/
def execCmp (o : OpSNgqabc) (s : State) : Out :=
  predOut (.cmp o) o.q (cmpCond o.c (s.core.sreg o.a).toNat (s.core.sreg o.b).toNat) s

/-- CMPI.cond qD, sA, imm (R147). -/
def execCmpi (o : OpSNgqaci) (s : State) : Out :=
  predOut (.cmpi o) o.q (cmpCond o.c (s.core.sreg o.a).toNat (cmpImm o.c o.i)) s

/-- A predicate source with its negation (R148). -/
def predSrc (t : Tile) (q : Fin 16) (n : Fin 2) : Bool := t.pred q != (n.val == 1)

/-- PAND qD, qA, qB (R148). -/
def execPand (o : OpSNgqxayb) (s : State) : Out := predOut (.pand o) o.q (predSrc s.core o.a o.x && predSrc s.core o.b o.y) s

/-- POR qD, qA, qB (R148). -/
def execPor (o : OpSNgqxayb) (s : State) : Out := predOut (.por o) o.q (predSrc s.core o.a o.x || predSrc s.core o.b o.y) s

/-- PXOR qD, qA, qB (R148). -/
def execPxor (o : OpSNgqxayb) (s : State) : Out := predOut (.pxor o) o.q (predSrc s.core o.a o.x != predSrc s.core o.b o.y) s

/-- PNOT qD, qA (R148). -/
def execPnot (o : OpSNgqxa) (s : State) : Out := predOut (.pnot o) o.q (!predSrc s.core o.a o.x) s

/-! ## Cross-file copies -/

/-- XV2S.n8 sD, vA, lane (R166). -/
def execXv2sN8 (o : OpSNgdai) (s : State) : Out := scalarOut (.xv2sN8 o) 3 o.d (lane (s.core.vreg o.a) o.i 8) s

/-- XV2S.i8 sD, vA, lane (R166). -/
def execXv2sI8 (o : OpSNgdai) (s : State) : Out := scalarOut (.xv2sI8 o) 3 o.d (sx64 (lane (s.core.vreg o.a) o.i 8) 8) s

/-- XV2S.n16 sD, vA, lane (R166). -/
def execXv2sN16 (o : OpSNgdai) (s : State) : Out := scalarOut (.xv2sN16 o) 3 o.d (lane (s.core.vreg o.a) o.i 16) s

/-- XV2S.i16 sD, vA, lane (R166). -/
def execXv2sI16 (o : OpSNgdai) (s : State) : Out := scalarOut (.xv2sI16 o) 3 o.d (sx64 (lane (s.core.vreg o.a) o.i 16) 16) s

/-- XV2S.n32 sD, vA, lane (R166). -/
def execXv2sN32 (o : OpSNgdai) (s : State) : Out := scalarOut (.xv2sN32 o) 3 o.d (lane (s.core.vreg o.a) o.i 32) s

/-- XV2S.i32 sD, vA, lane (R166). -/
def execXv2sI32 (o : OpSNgdai) (s : State) : Out := scalarOut (.xv2sI32 o) 3 o.d (sx64 (lane (s.core.vreg o.a) o.i 32) 32) s

/-- XV2S.n64 sD, vA, lane (R166). -/
def execXv2sN64 (o : OpSNgdai) (s : State) : Out := scalarOut (.xv2sN64 o) 3 o.d (lane (s.core.vreg o.a) o.i 64) s

/-- XQ2M mD, sA, qB (R167). -/
def execXq2m (o : OpSNgdab) (s : State) : Out :=
  let v : Word := if s.core.pred o.b then s.core.sreg o.a else 0
  issue (.xq2m o) { run := fun s => s.land 2 (.mask o.d (BitVec.allOnes 64) v) } s

/-- NOP has no effect (R85). -/
def execNop (s : State) : Out := issue .nop {} s

end Sys2Proof.Machine
end

