-- ==== Sys2Proof/Machine/EngineOps.lean ====
section
/-! DEFINITION. Copies, gathers, barriers, windows, banks, beads, RNG.SEED and DUP.S as the T slot issues them (R186 to R202,
R273 to R292). -/

namespace Sys2Proof.Machine

/-! ## Records and their ranges -/

/-- A copy record (R276). -/
structure CpyRec where
  src : Nat
  dst : Nat
  rows : Nat
  rowb : Nat
  sstr : Int
  dstr : Int
  xform : Nat
  res : Nat
  rsv : Bool

/-- A copy record's fields from its 64 bytes (R276). -/
def cpyRec (v : Nat) : CpyRec :=
  { src := bits v 0 64, dst := bits v 64 64, rows := bits v 160 32, rowb := bits v 128 32, sstr := sext (bits v 192 64) 64,
    dstr := sext (bits v 256 64) 64, xform := bits v 320 4, res := bits v 384 22,
    rsv := bits v 324 60 != 0 || bits v 406 42 != 0 || bits v 448 64 != 0 }

/-- Destination bytes of a source row (R278). -/
def CpyRec.drow (r : CpyRec) : Nat := if r.xform = 1 then r.rowb / 2 else r.rowb

/-- A gather record (R284). -/
structure GathRec where
  src : Nat
  dst : Nat
  ixa : Nat
  idx : Bool
  esz : Nat
  n : List Nat
  st : List Int
  rsv : Bool

/-- A gather record's fields from its 64 bytes (R284). -/
def gathRec (v : Nat) : GathRec :=
  { src := bits v 0 64, dst := bits v 64 22, ixa := bits v 160 22, idx := bit v 131, esz := 2 ^ bits v 128 3,
    n := (List.range 4).map (fun k => bits v (192 + 16 * k) 16), st := (List.range 4).map (fun k => sext (bits v (256 + 64 * k) 64) 64),
    rsv := bits v 86 42 != 0 || bits v 182 10 != 0 || bits v 132 28 != 0 || bits v 128 3 < 2 || 6 < bits v 128 3 }

/-- The elements of a gather (R284). -/
def GathRec.count (g : GathRec) : Nat := g.n.foldl (· * ·) 1

/-- An address moved by a signed amount (R50). -/
def moved (a : Nat) (d : Int) : Nat := wrap 64 ((a : Int) + d)

/-- The ranges of the tile's own scratchpad that n bytes from an address touch, by the linear view and its own cluster window; addresses
wrap (R50, R168). -/
def ownParts (self a n : Nat) (wr : Bool) : List (Nat × Nat × Bool) :=
  let w := 0x10000000 + self % 16 * 0x400000
  [0, w, 2 ^ 64, 2 ^ 64 + w].filterMap (fun b =>
    let lo := Nat.max a b
    let hi := Nat.min (a + n) (b + Config.scratchBytes)
    if lo < hi then some (lo - b, hi - lo, wr) else none)

/-- The ranges of the tile's own scratchpad that rows of bytes touch. -/
def rowRanges (self base rows n : Nat) (stride : Int) (wr : Bool) : List (Nat × Nat × Bool) :=
  if stride = n then ownParts self base (rows * n) wr
  else (List.range rows).flatMap (fun (r : Nat) => ownParts self (moved base (stride * r)) n wr)

/-- The ranges of the own scratchpad that a CPY, CPYW or FILL command touches, its record first, which the linear view or the own window
names (R274). -/
def cpyRanges (self op a v : Nat) : List (Nat × Nat × Bool) :=
  let r := cpyRec v
  (a % 4194304, 64, false) :: ((if op = 26 then [] else rowRanges self r.src r.rows r.rowb r.sstr false) ++
    rowRanges self r.dst r.rows r.drow r.dstr true ++
    (if r.xform = 1 then [(r.res, r.rows * r.rowb, false), (r.res, r.rows * r.rowb, true)] else []))

/-- The ranges of the own scratchpad that a GATH command touches. -/
def gathRanges (a v : Nat) : List (Nat × Nat × Bool) :=
  let g := gathRec v
  [(a % 4194304, 64, false), (g.dst, g.esz * g.count, true)] ++ (if g.idx then [(g.ixa, 4 * g.n.getD 0 0, false)] else [])

/-- The ranges of the own scratchpad that a queued copy or gather touches, with its record (R202, R409). -/
def cmdRanges (self op a v : Nat) : List (Nat × Nat × Bool) := if op = 27 then gathRanges a v else cpyRanges self op a v

/-! ## Copies and gathers -/

/-- A barrier object's place: 16-byte aligned, in the linear view or a cluster window; own limits it to the tile's own
scratchpad (R186, R189). -/
def barDest (s : State) (word a : Nat) (own : Bool) : Except (Cause × Nat) Dest :=
  if a % 16 ≠ 0 then .error (.illegal, word)
  else
    match sortLocal s.self a with
    | none => .error (.range, a)
    | some d =>
      if d.swz || (own && !d.own) then .error (.range, a)
      else if d.own && !s.core.sup && !bit s.core.spr.bown.toNat (bankOf d.place) then .error (.perm, a)
      else .ok d

/-- The checks of R274; bar is the barrier address, if one is named. -/
def recordTrap (s : State) (word a : Nat) (bar : Option Nat) (illegal : Bool) : Option (Cause × Nat) :=
  if a % 64 != 0 || (match bar with | some b => b % 16 != 0 | none => false) || illegal then some (.illegal, word)
  else
    match ownOffset s.self a with
    | none => some (.range, a)
    | some o =>
      let badBar : Option Nat := match bar with
        | some b => (match sortLocal s.self b with | some d => if d.swz then some b else none | none => some b)
        | none => none
      match badBar with
      | some b => some (.range, b)
      | none => if !s.core.sup && !bit s.core.spr.bown.toNat (o / 65536) then some (.perm, a) else none

/-- The 64 bytes at an own-scratchpad address have their codes checked (R319). -/
def recordRead (s : State) (a : Nat) : State :=
  match ownOffset s.self a with | some o => s.reads (scratchKey s.self o) 64 | none => s

/-- The 64 bytes at an own-scratchpad address. -/
def recordAt (s : State) (a : Nat) : Nat :=
  match ownOffset s.self a with
  | some o => beadAt s (scratchKey s.self o)
  | none => 0

/-- A channel of the tile. -/
def Tile.chan (t : Tile) (c : Nat) : Chan := t.chans.getD c Chan.reset

/-- The tile with a channel replaced. -/
def Tile.setChan (t : Tile) (c : Nat) (x : Chan) : Tile := { t with chans := t.chans.setIfInBounds c x }

/-- A watermarked copy runs on the channel or waits for it, a draining task's included (R48, R196, R280). -/
def chanBusy (t : Tile) (c : Nat) : Bool :=
  (t.chan c).act || (t.chan c).cmds.any (fun x => x.cmd.op == 25 && !x.ended) || t.tcq.any (fun e => e.op == 25 && e.ch == c)

/-- The push of a copy or gather command; in checking mode its record is read then too, for the ranges that it touches (R273 to R275,
R409). -/
def copyOp (i : Instr) (o : OpTNgdab) (op : Nat) (trap : Option (Cause × Nat)) (wait : Bool) (pre : Tile → Tile) (s : State) :
    Out :=
  let a := (s.core.sreg o.a).toNat
  let b := (s.core.sreg o.b).toNat
  issue i
    { trap := (recordTrap s (slotWordOf i) a (if o.b.val = 0 then none else some b) false).or trap,
      wait := wait || pushWaits s.core,
      run := fun s =>
        let s := if s.core.checking then recordRead s a else s
        s.onCore (fun t =>
        (pre t).push (t.entry (slotWordOf i) 0 a b (if op = 25 then (t.chan o.d).lo + (t.chan o.d).hi * 2 ^ 32 else 0)) (if t.checking then cmdRanges s.self op a (recordAt s a) else []) o.d) } s

/-- CPY chD, sA, sB (R273). -/
def execCpy (o : OpTNgdab) (s : State) : Out := copyOp (.cpy o) o 24 none false id s

/-- CPYW chD, sA, sB: waits while the channel's copy is active, then needs an open, empty window (R280). -/
def execCpyw (o : OpTNgdab) (s : State) : Out :=
  let c := s.core.chan o.d
  let busy := chanBusy s.core o.d
  copyOp (.cpyw o) o 25 (if !busy && (decide (c.hi ≤ c.lo) || c.wm != c.lo) then some (.illegal, slotWordOf (.cpyw o)) else none)
    busy (fun t => t.setChan o.d { t.chan o.d with act := true }) s

/-- FILL chD, sA, sB (R279). -/
def execFill (o : OpTNgdab) (s : State) : Out := copyOp (.fill o) o 26 none false id s

/-- GATH chD, sA, sB (R284). -/
def execGath (o : OpTNgdab) (s : State) : Out := copyOp (.gath o) o 27 none false id s

/-! ## Barriers -/

/-- Two ranges of places overlap. -/
def placesMeet (a n b m : Nat) : Bool := decide (a < b + m) && decide (b < a + n)

/-- A barrier instruction waits behind an AMO with a scope, and while an update or AMO of the tile at the object has not been
performed (R177, R296). -/
def barBlocked (t : Tile) (d : Dest) : Bool :=
  t.scopedAmo || t.reqs.any (fun r => (r.kind == .amo || r.kind == .barUpd) && r.open && r.cls == 8 && placesMeet r.place r.size d.place 16)

/-- BAR.INIT, BAR.EXP and BAR.ARR: an update sent at commit (R189). -/
def barUpdOp (i : Instr) (o : OpTNgab) (code : Nat) (own rel : Bool) (s : State) : Out :=
  let a := (s.core.sreg o.a).toNat
  match barDest s (slotWordOf i) a own with
  | .error e => issue i { trap := some e } s
  | .ok d =>
    let r : Req := { Req.empty .barUpd with va := a, size := 16, op := code, data := (s.core.sreg o.b).toNat, place := d.place }
    issue i { wait := s.core.scopedAmo || (rel && releaseWaits s.self s.core 3), run := fun s => s.eff (.req r) } s

/-- BAR.INIT (sA), sB (R189). -/
def execBarInit (o : OpTNgab) (s : State) : Out := barUpdOp (.barInit o) o 0 true false s

/-- BAR.EXP (sA), sB (R189). -/
def execBarExp (o : OpTNgab) (s : State) : Out := barUpdOp (.barExp o) o 1 false false s

/-- BAR.ARR (sA), sB: waits as FENCE.rel.die would (R189, R190). -/
def execBarArr (o : OpTNgab) (s : State) : Out := barUpdOp (.barArr o) o 2 false true s

/-- BAR.WAIT (sA), sB (R191, R194): it reads its object until PH says go; one with a poisoned byte traps as POISON at issue (R319, R328;
log 61). -/
def execBarWait (o : OpTNgab) (s : State) : Out :=
  let i : Instr := .barWait o
  let a := (s.core.sreg o.a).toNat
  match barDest s (slotWordOf i) a true with
  | .error e => issue i { trap := some e } s
  | .ok d =>
    let blocked := barBlocked s.core d
    let s := if reaches i s && !blocked then s.reads d.place 16 else s
    issue i
      { trap := if blocked then none
          else match poisonAt s d.place 16 with
            | some k => some (.poison, a + k)
            | none => if barErr s d.place then some (.barrier, barTval s d.place a) else none,
        wait := blocked || barPh s d.place == bits (s.core.sreg o.b).toNat 0 1, run := fun s => s.onCore Tile.dropL1 } s

/-- BAR.TEST sD, (sA), sB (R192). -/
def execBarTest (o : OpTNgdab) (s : State) : Out :=
  let i : Instr := .barTest o
  let a := (s.core.sreg o.a).toNat
  match barDest s (slotWordOf i) a true with
  | .error e => issue i { trap := some e } s
  | .ok d =>
    let r : Req := { Req.empty .barTest with va := a, size := 16, dst := physS s.core.spr.rotw o.d,
                                             pw := bits (s.core.sreg o.b).toNat 0 1, place := d.place }
    issue i { wait := barBlocked s.core d || s.core.loadsFull, run := fun s => s.eff (.load r) } s

/-! ## Windows and banks -/

/-- CHSET chD, sA, sB (R196). -/
def execChset (o : OpTNgdab) (s : State) : Out :=
  let lo := (s.core.sreg o.a).toNat
  let hi := (s.core.sreg o.b).toNat
  issue (.chset o)
    { trap := if lo % 64 != 0 || hi % 64 != 0 || decide (hi < lo) || decide (Config.scratchBytes < hi)
        then some (.illegal, slotWordOf (.chset o)) else none,
      wait := chanBusy s.core o.d,
      run := fun s => s.onCore (fun t => t.setChan o.d { t.chan o.d with lo := lo, hi := hi, wm := lo, act := false }) } s

/-- Every command that a draining task pushed has completed (R160, R265). -/
def commandsDone (x : Tile) (d : Drain) : Bool :=
  x.tcq.all (fun c => decide (d.stamp ≤ c.stamp)) && x.chans.toList.all (fun c => c.cmds.all (fun y => decide (d.stamp ≤ y.cmd.stamp))) &&
    x.facets.toList.all (fun f => f.queue.all (fun c => decide (d.stamp ≤ c.stamp))) &&
    x.beads.sends.all (fun y => decide (d.stamp ≤ y.stamp)) && x.beads.dones.all (fun y => decide (d.stamp ≤ y.stamp)) &&
    x.casts.all (fun c => decide (d.stamp ≤ c.stamp)) && (x.task.launch.isSome || !x.osb.toList.any (·.arr))

/-- The banks of tile t in which an atomic or barrier update of a retired task has not been performed. -/
def retiredBanks (x : Tile) (t : Nat) : Nat :=
  (x.reqs.filter (fun r => r.pw == 255 && (r.kind == .amo || r.kind == .barUpd) && r.open && r.cls == 8 &&
    r.place / 4194304 == scratchKey t 0 / 4194304)).foldl (fun b r => setBits b (bankOf r.place) 1 1) 0

/-- The banks that the draining tasks of tile t hold: until its commands have completed a task's own, then those where a write of it is still
to be performed (R160, R202, R360). -/
def drainBanks (x : Tile) (t : Nat) : Nat :=
  x.task.drains.foldl (fun b d => b ||| (if commandsDone x d then d.bown &&& retiredBanks x t else d.bown)) 0

/-- BANK.ACQ sA (R201, R360). -/
def execBankAcq (o : OpTNga) (s : State) : Out :=
  let t := s.core
  let m := (t.sreg o.a).toNat % 2 ^ 48
  let off := m ^^^ (m &&& t.task.claim)
  let held := drainBanks t s.self
  issue (.bankAcq o)
    { trap := if off ≠ 0 then some (.perm, off) else none, wait := (m &&& held) != 0,
      run := fun s =>
        (s.eff (.spec 0x0E (s.core.spr.bown ||| BitVec.ofNat 64 m))).onCore (fun t =>
          t.onTask (fun k => { k with rel := k.rel.filter (fun x => !bit m x.1) })) } s

/-- BANK.REL sA: from its commit the banks are not the task's; they become free later (R202). -/
def execBankRel (o : OpTNga) (s : State) : Out :=
  let t := s.core
  let m := (t.sreg o.a).toNat % 2 ^ 48 &&& t.spr.bown.toNat
  issue (.bankRel o)
    { run := fun s =>
        (s.eff (.spec 0x0E (s.core.spr.bown &&& ~~~(BitVec.ofNat 64 m)))).onCore (fun t =>
          t.onTask (fun k => { k with
            rel := k.rel ++ ((List.range 48).filter (fun b => bit m b)).map (fun b => (b, t.stamp)) })) } s

/-! ## Beads -/

/-- A bead instruction needs a stage (R286). -/
def beadTrap (s : State) (i : Instr) (bad : Bool) : Option (Cause × Nat) :=
  if fld s.core.spr.stage 15 1 = 0 ∨ bad then some (.illegal, slotWordOf i) else none

/-- BEAD.RECV: the oldest mailbox bead becomes current (R287). -/
def execBeadRecv (o : OpTNg) (s : State) : Out :=
  issue (.beadRecv o)
    { trap := beadTrap s (.beadRecv o) s.core.beads.cur.isSome, wait := s.core.beads.mailbox == [],
      run := fun s => s.onCore (fun t =>
        { t.dropL1 with beads := { t.beads with cur := t.beads.mailbox.head?, mailbox := t.beads.mailbox.drop 1 } }) } s

/-- BEAD.SEND sA, sB: waits as FENCE.rel.peer would, and copies its record at commit (R289). -/
def execBeadSend (o : OpTNgab) (s : State) : Out :=
  let i : Instr := .beadSend o
  let a := (s.core.sreg o.a).toNat
  let b := (s.core.sreg o.b).toNat
  issue i
    { trap := (beadTrap s i false).or
        (recordTrap s (slotWordOf i) a (if o.b.val = 0 then none else some (b / 16 * 16)) (o.b.val != 0 && bits b 1 3 != 0)),
      wait := pushWaits s.core || releaseWaits s.self s.core 10,
      run := fun s =>
        let s := recordRead s a
        s.onCore (fun t => t.push (t.entry (slotWordOf i) 0 a b (recordAt s a)) [] 9) } s

/-- BEAD.DONE sA: the current bead is cleared at commit (R290). -/
def execBeadDone (o : OpTNga) (s : State) : Out :=
  let i : Instr := .beadDone o
  let a := (s.core.sreg o.a).toNat
  issue i
    { trap := beadTrap s i (decide (256 ≤ a) || s.core.beads.cur.isNone), wait := pushWaits s.core,
      run := fun s => s.onCore (fun t =>
        { t.push (t.entry (slotWordOf i) 0 a 0 (t.beads.cur.getD 0)) [] 9 with beads := { t.beads with cur := none } }) } s

/-- BEAD.HDR sD, w: the word as it stands at issue (R288); a poisoned one returns poison, with the word's offset as TVAL (R328, R391;
log 67). -/
def execBeadHdr (o : OpTNgdb2) (s : State) : Out :=
  let t := s.core
  let r : Req := performLocal s { Req.empty .beadHdr with size := 8, dst := physS t.spr.rotw o.d, pw := o.b }
  issue (.beadHdr o)
    { trap := beadTrap s (.beadHdr o) t.beads.cur.isNone, wait := t.loadsFull, run := fun s => s.eff (.load r) } s

/-! ## Random bits and duplicated operations -/

/-- RNG.SEED sA (R291). -/
def execRngSeed (o : OpTNga) (s : State) : Out :=
  issue (.rngSeed o) { run := fun s => s.eff (.seed (s.core.sreg o.a)) } s

/-- The result of the scalar operation that DUP.S names: b is the second operand or the immediate byte (R116, R144). -/
def dupValue (fn a b : Nat) : Nat :=
  match fn with
  | 1 => aluAdd a b
  | 2 => aluSub a b
  | 3 => aluAnd a b
  | 4 => aluOr a b
  | 5 => aluXor a b
  | 6 => aluAndn a b
  | 7 => aluShl a b
  | 8 => aluShr a b
  | 9 => aluSra a b
  | 10 => aluMul a b
  | 11 => aluMulhI a b
  | 12 => aluMulhN a b
  | 13 => aluMinI a b
  | 14 => aluMinN a b
  | 15 => aluMaxI a b
  | 16 => aluMaxN a b
  | 17 => aluClz a
  | 18 => aluPopc a
  | 33 => aluAdd a (sx64 b 8)
  | 35 => aluAnd a b
  | 36 => aluOr a b
  | 37 => aluXor a b
  | 39 => aluShl a b
  | 40 => aluShr a b
  | 41 => aluSra a b
  | 42 => aluMul a (sx64 b 8)
  | 45 => aluMinI a (sx64 b 8)
  | 46 => aluMinN a b
  | 47 => aluMaxI a (sx64 b 8)
  | _ => aluMaxN a b

/-- DUP.S OPNAME: the result lands in the scalar twin latch (R116, R292). -/
def execDupS (o : OpTNgfab2) (s : State) : Out :=
  let a := (s.core.sreg o.a).toNat
  let b := if dupSa o.f.val then (s.core.sreg o.b).toNat else o.e.val
  issue (.dupS o) { run := fun s => s.land (saLat o.f.val) (.twinS (BitVec.ofNat 64 (dupValue o.f.val a b))) } s

end Sys2Proof.Machine
end

