-- ==== Sys2Proof/Machine/Units.lean ====
section
/-! DEFINITION. What the unit steps share: the tile in focus, requests by place in their list, barrier updates, fault records and
record errors (R187, R348, R355). -/

namespace Sys2Proof.Machine

/-! ## Steps on tiles and requests -/

/-- A unit step on the tile of operand 0. -/
def tileStep (s : State) (f : Nat → State) : Out :=
  if 1024 ≤ s.arg 0 then .fault (.noSuchAgent (s.arg 0)) else .next (f (s.arg 0))

/-- A unit step on the base die of operand 0. -/
def mbStep (s : State) (f : Nat → State) : Out :=
  if 16 ≤ s.arg 0 then .fault (.noSuchAgent (s.arg 0)) else .next (f (s.arg 0))

/-- A unit step on the compute die of operand 0. -/
def dieStep (s : State) (f : Nat → State) : Out :=
  if 16 ≤ s.arg 0 then .fault (.noSuchAgent (s.arg 0)) else .next (f (s.arg 0))

/-- A unit step on the queue of operand 0 (R464). -/
def queueStep (s : State) (f : Nat → State) : Out :=
  if 16384 ≤ s.arg 0 then .fault (.noSuchAgent (s.arg 0)) else .next (f (s.arg 0))

/-- The root of trust is up: the configuration and the images are verified, and the module has not tripped (R474, R479, R481). -/
def Hub.rot (h : Hub) : Bool := h.booted && !h.tripped

/-- The state with another tile in focus (log A4). -/
def State.focus (s : State) (t : Nat) : State :=
  if t = s.self then s else { s with core := s.tile t, self := t, others := mset (mdel s.others t) s.self s.core }

/-- A change made with a tile in focus, the focus then back where it was. -/
def State.atTile (s : State) (t : Nat) (f : State → State) : State := (f (s.focus t)).focus s.self

/-- Every tile changed by its number. -/
def State.mapTiles (s : State) (f : Nat → Tile → Tile) : State :=
  { s with core := f s.self s.core, others := s.others.map (fun p => (p.1, f p.1 p.2)) }

/-- The numbers of the tiles that differ from reset, the one in focus first. -/
def State.tileNums (s : State) : List Nat := s.self :: (s.others.map (·.1)).filter (· != s.self)

/-- A request of a tile replaced. -/
def State.setReq (s : State) (t k : Nat) (r : Req) : State := s.onTile t (fun x => { x with reqs := lset x.reqs k r })

/-- A request of a tile removed. -/
def State.delReq (s : State) (t k : Nat) : State := s.onTile t (fun x => { x with reqs := ldel x.reqs k })

/-- Request k of a tile. -/
def reqOf (x : Tile) (k : Nat) : Option Req := x.reqs[k]?

/-- Two requests touch a common 64-byte line. -/
def lineMeet (a b : Req) : Bool :=
  sameHome a b && decide (a.place / 64 ≤ (b.place + b.size - 1) / 64) &&
    decide (b.place / 64 ≤ (a.place + a.size - 1) / 64)

/-- An earlier request of the tile to the same line has not been performed: program order holds there (R296). -/
def behind (x : Tile) (k : Nat) (r : Req) : Bool := (x.reqs.take k).any (fun q => q.open && q.kind != .pref && q.kind != .fetch && lineMeet q r)

/-- Poisoned or good bytes written at a place; a host marks poisoned bytes or not (R328). -/
def writeFar (s : State) (k n data enb : Nat) (pois : Bool) : State :=
  if pois ∧ 48 * 2 ^ 56 ≤ k ∧ k < 50 * 2 ^ 56 then
    let (b, s) := s.freeBit
    writeEnb s k n data enb b
  else writeEnb s k n data enb pois

/-! ## Barrier updates -/

/-- ERR set with a code; the first code stays (R187). -/
def barFault (w1 code : Nat) : Nat := if bit w1 17 then w1 else setBits (setBits w1 17 1 1) 24 8 code

/-- The bits of word 1 that are reserved (R186). -/
def barRsv (w1 : Nat) : Bool := bits w1 32 32 != 0 || bits w1 18 6 != 0

/-- One update of a barrier object: bytes added (expected) or taken (credited), an arrival or not, an engine's error code or 0
(R187, R189). DESIGN CHOICE: only the resulting PB is tested, so that an operand above 2^47 - 1 over a negative PB is no error by itself
(R189; log 70). -/
def barApply (w0 w1 : Nat) (add : Int) (arrive : Bool) (err : Nat) : Nat × Nat :=
  if barRsv w1 then (w0, barFault w1 3)
  else
    let w1 := if err = 0 then w1 else barFault w1 err
    let pa := bits w0 48 16
    let pb := sext w0 48
    if arrive && pa == 0 then (w0, barFault w1 1)
    else
      let pa' := if arrive then pa - 1 else pa
      let ok := decide (-(2 ^ 47 : Int) ≤ pb + add) && decide (pb + add < 2 ^ 47)
      let pb' := if ok then pb + add else pb
      let w1 := if ok then w1 else barFault w1 2
      if (pa' != pa || pb' != pb) && pa' == 0 && pb' == 0 then (bits w1 0 16 * 2 ^ 48, setBits w1 16 1 (1 - bits w1 16 1))
      else (pa' * 2 ^ 48 + wrap 48 pb', w1)

/-- An update of the barrier object at a place; one with a poisoned byte stays as it is (R328; log 61). -/
def barUpdate (s : State) (k : Nat) (add : Int) (arrive : Bool) (err : Nat) : State :=
  let s := s.reads k 16
  if (poisonAt s k 16).isSome then s
  else
    let (w0, w1) := barApply (readN s k 8) (readN s (k + 8) 8) add arrive err
    writeN s k 16 (w0 + 2 ^ 64 * w1)

/-- BAR.INIT at the object: PA and INIT the count, everything else 0, no flip (R189). -/
def barInit (s : State) (k n : Nat) : State := writeN s k 16 (n % 65536 * 2 ^ 48 + 2 ^ 64 * (n % 65536))

/-- A tile core's update of the barrier object at a place has not been performed yet; a credit of a later command, and the bead
port's reading of PH, come after it (R306). -/
def updPending (x : Tile) (k : Nat) : Bool := x.reqs.any (fun r => r.kind == .barUpd && r.place == k)

/-- BARRIER_UPDATE: the update of a BAR.INIT, BAR.EXP or BAR.ARR (R187, R189). -/
def execBarrierUpdate (s : State) : Out :=
  tileStep s (fun t =>
    match reqOf (s.tile t) (s.arg 1) with
    | some r =>
      if r.kind = .barUpd ∧ behind (s.tile t) (s.arg 1) r = false then
        let s' := s.delReq t (s.arg 1)
        match r.op with
        | 0 => barInit s' r.place r.data
        | 1 => barUpdate s' r.place r.data false 0
        | _ => barUpdate s' r.place r.data true 0
      else s
    | none => s)

/-! ## Records that fail -/

/-- The record at the head of a queue fails with a code: it has no effect, the queue enters ERROR with QRC at the record; one in OVERRUN
leaves that only through QRST (R355, R366, R367). -/
def failQueue (s : State) (q code : Nat) : State :=
  let x := s.queue q
  (s.setQueue q { x with state := if x.state = 2 then 2 else 3, ecode := code, head := none, placed := 0, image := none, held := false }).postQueue
    q 2 0 x.rc code

/-- A started record of a queue fails with a code: the queue enters ERROR with QRC at that record, but in OVERRUN QRC stays (R355, R366,
R368). -/
def failRunning (s : State) (q : Nat) (r : RunRec) (code : Nat) : State :=
  let x := s.queue q
  failQueue (s.setQueue q { x with rc := if x.state = 2 then x.rc else r.n, running := x.running.filter (fun y => y.id != r.id) }) q code

end Sys2Proof.Machine
end

