-- ==== Sys2Proof/Machine/Requests.lean ====
section
/-! DEFINITION. The steps of a tile core's outstanding requests: translation, performance at the home, return, and fault records
(R102, R176, R323, R342 to R352, R404, R405, R522). -/

namespace Sys2Proof.Machine

/-! ## Return -/

/-- The ST code of a finished AMO (R522). -/
def snapSt (r : Req) : Nat := match r.st with | .poisoned => 1 | .page => 2 | .perm => 3 | _ => 0

/-- An AMO of an away task that has ended: its value or failure goes into its SNAP entry, in the image or live, while that is in use
(R522); of a retired task nothing is kept (R160). -/
def settleAmo (s : State) (t k : Nat) (r : Req) : State :=
  let x := s.tile t
  let v := if snapSt r = 0 then r.value else r.va
  let live (w : Nat) : Bool := bit w 63 && bits w 59 4 == 12 && bit w 52
  let fix (w : Nat) : Nat := setBits (setBits w 53 2 (snapSt r)) 52 1 0
  let s := s.delReq t k
  if r.pw = 255 then s
  else if r.pw = 254 then
    let w := (x.spr.snap.getD r.snap 0).toNat
    if live w then
      s.onTile t (fun y => { y with spr := { y.spr with snap := y.spr.snap.setIfInBounds r.snap (BitVec.ofNat 64 (fix w)) },
                                    snapPay := mset y.snapPay (bits w 8 9) v })
    else s
  else
    let base := saveArea s t
    let e := base + 0x4C0 + 8 * r.snap
    let s := s.reads e 8
    let w := readN s e 8
    if decide (r.snap < 32) && live w && (poisonAt s e 8).isNone then writeWords (writeWords s e [fix w]) (base + 0x3100 + 8 * bits w 8 9) [v] else s

/-- An AMO that has been performed or has failed. -/
def endAmo (s : State) (t k : Nat) (r : Req) : State := if r.late then settleAmo s t k r else s.setReq t k r

/-- A return cause stands at the tile: it is taken at the next boundary (R393, R405). -/
def raise (s : State) (t : Nat) (r : Req) : State := s.onTile t (fun x => x.onTask (fun k => { k with pend := some r.cause }))

/-- A value arrives in its register; an acquire that ends there invalidates the L1 if its scope is wider than .tile, and discards the
prefetches still outstanding (R102, R123, R177, R194). -/
def arrive (s : State) (t k : Nat) (r : Req) (acq wide : Bool) : State :=
  (s.delReq t k).onTile t (fun x => let x := r.deliver x; if wide then x.dropL1 else if acq then x.dropPrefs else x)

/-- BAR.TEST has read its object: its result arrives, and a 1 is an observation, or a failure stands as a cause (R192 to R194). -/
def returnTest (s : State) (t k : Nat) (r : Req) : State :=
  if r.st = .done then arrive s t k r (r.data == 1) (r.data == 1) else raise (s.setReq t k r) t r

/-- Whether two requests deliver to one register. -/
def sameDst (a b : Req) : Bool := a.dst == b.dst && pendVector a == pendVector b && (pendVector a || pendScalar a)

/-- A waiting load of the scratchpad space is performed (R172, R185). -/
def performOwn (s : State) (t k : Nat) (r : Req) : State :=
  s.atTile t (fun s =>
    let s := s.reads r.place r.size
    let r' := performLocal s r
    if r'.st = .done ∧ ownPlace s.self r then
      let (v, s) := viewRead s r r'.data
      s.setReq t k { r' with data := v }
    else s.setReq t k r')

/-- SCOREBOARD_RETURN: a value that has been performed arrives, a local read is made, a failure stands as a cause (R102, R405;
log A8). -/
def execScoreboardReturn (s : State) : Out :=
  tileStep s (fun t =>
    let k := s.arg 1
    let x := s.tile t
    match reqOf x k with
    | some r =>
      if r.late || (x.reqs.take k).any (sameDst r) then s
      else if r.failing then (if r.kind == .fetch then s else raise s t r)
      else if r.kind == .barTest && r.st == .waiting then 
        (if behind x k r then s else let s := s.reads r.place 16; returnTest s t k (testAt s r))
      else if r.kind == .barTest && r.st == .done then returnTest s t k r
      else if isLoadReq r && r.cls == 8 && r.st == .waiting then
        (if behind x k r then s else performOwn s t k r)
      else if r.st == .done && (isLoadReq r || r.kind == .xget || r.kind == .xstat || r.kind == .amo) then
        arrive s t k r (r.kind == .amo && r.sco != 0) (r.kind == .amo && decide (2 ≤ r.sco))
      else s
    | none => s)

/-! ## Translation -/

/-- The permissions that a request needs at the MTU (R338). -/
def reqNeeds (k : ReqKind) : Bool × Bool := match k with | .st => (false, true) | .amo => (true, true) | _ => (true, false)

/-- The ACC code of a request (R348). -/
def reqAcc (k : ReqKind) : Nat := match k with | .st => 1 | .amo => 2 | .fetch => 3 | _ => 0

/-- A tile that froze on fault records issues again once each access that froze it is granted (R404). -/
def thaw (x : Tile) : Tile :=
  if x.task.run = .frozen ∧ x.reqs.any (fun r => !r.late && r.frz) = false then x.onTask (fun k => { k with run := .running }) else x

/-- MTU_LOOKUP: at a ready home to which a route leads, a TLB hit that grants translates the request, else a walk starts, on a denying hit
too, or one that is under way is joined; 64 walks run at once (R346, R347, R461, R475). -/
def execMtuLookup (s : State) : Out :=
  tileStep s (fun t =>
    match reqOf (s.tile t) (s.arg 1) with
    | some r =>
      if r.st = .waiting ∧ r.cls < 3 ∧ routeOk s (tileDie t) r.cls r.tgt r.place then
        let m := homeOf r.cls r.tgt r.place
        let (nr, nw) := reqNeeds r.kind
        let miss := if (walksAt s m).contains (r.cls, r.place / 65536) || decide ((walksAt s m).length < 64) then
          s.setReq t (s.arg 1) { r with st := .walking, mb := m } else s
        match tlbHit s m r.cls r.place with
        | some e =>
          if grants nr nw e.r e.w then
            ((s.corrects (.tlb m r.cls e.page)).setReq t (s.arg 1)
              { r with st := .ready, frz := false, mb := m, phys := homeKey r.cls m (leafByte r.cls e.base e.size r.place) }).onTile t thaw
          else miss
        | none => miss
      else s
    | none => s)

/-- A request that faults waits on its record and freezes its running tile; a prefetch is dropped (R175, R348, R404). -/
def holdReq (s : State) (t k m reason : Nat) (r : Req) : State :=
  if r.kind = .pref then s.delReq t k
  else
    let (seq, s) := faultRec s m
      { cls := r.cls, tgt := r.tgt, dia := r.place, va := r.va, reason := reason, acc := reqAcc r.kind, agent := 0, ch := 0,
        tile := t % 64, die := tileDie t }
    (s.setReq t k { r with st := .held, mb := m, seq := seq, frz := !r.late }).onTile t (fun x =>
      if r.late = false ∧ x.task.run = .running then x.onTask (fun j => { j with run := .frozen }) else x)

/-- What a walk's end gives one request that waits on it, once a route leads to its die: its place, or a fault with its record (R343, R346,
R348, R461). -/
def endWalk (s : State) (t k m : Nat) (r : Req) (e : WalkEnd) : State :=
  let (nr, nw) := reqNeeds r.kind
  if ringOk s m (tileDie t) = false then s else
  match e with
  | .leaf b z rd wr =>
    if grants nr nw rd wr then
      (s.setReq t k { r with st := .ready, frz := false, mb := m, phys := homeKey r.cls m (leafByte r.cls b z r.place) }).onTile t thaw
    else holdReq s t k m 2 r
  | .err n => holdReq s t k m n r
  | .wait => s

/-- The requests that a walk for one of them answers, those of its page that walk too, as tile and request (R346). -/
def walkers (s : State) (m : Nat) (r : Req) (size : Nat) : List (Nat × Req) :=
  (s.tileNums.map (fun t => ((s.tile t).reqs.filter (fun q => q.st == .walking && q.mb == m && q.cls == r.cls && q.tgt == r.tgt &&
    q.place / size == r.place / size)).map (fun q => (t, q)))).flatten

/-- PAGE_WALK_END: the walk fills the TLB and translates the requests that wait on it, or ends in a fault (R342, R345 to R348). -/
def execPageWalkEnd (s : State) : Out :=
  tileStep s (fun t =>
    match reqOf (s.tile t) (s.arg 1) with
    | some r =>
      let m := homeOf r.cls r.tgt r.place
      if r.st = .walking ∧ s.claspUp (64 + m) then
        match walk s m r.cls r.place with
        | (.wait, _, s) => s
        | (e, path, s) =>
          let z := match e with | .leaf _ z _ _ => z | _ => 65536
          let l := walkers s m r z
          let s := match e with
            | .leaf b z rd wr => leafIn s m r.cls r.place b z rd wr (l.any (fun p => grants (reqNeeds p.2.kind).1 (reqNeeds p.2.kind).2 rd wr)) path
            | _ => s
          l.foldl (fun s p =>
            match lfind (fun q => q == p.2) (s.tile p.1).reqs with | some k => endWalk s p.1 k m p.2 e | none => s) s
      else s
    | none => s)

/-! ## Performance -/

/-- The storage that a translated request needs is awake: that of whole lines for what fills a cache, of its own bytes for a store and an
atomic (R320, R321, R478). -/
def awake (s : State) (r : Req) : Bool :=
  match r.kind with
  | .st => backedWrite s (writeEnb s r.phys r.size r.data r.enb r.pois) r.phys r.size
  | .amo => backed s r.phys r.size && backedWrite s (amoAt s r r.phys).2 r.phys r.size
  | _ => backed s (r.phys - r.place % 64) ((r.place % 64 + r.size + 63) / 64 * 64)

/-- The place at which a request is performed, once it may be: translated, or of a class that no MTU translates, and with storage that can
be reached (R478). -/
def performPlace (s : State) (t : Nat) (r : Req) : Option Nat :=
  if !routeOk s (tileDie t) r.cls r.tgt r.place then none
  else if r.st = .ready then (if awake s r then some r.phys else none)
  else if r.st = .waiting ∧ (r.cls = 3 ∨ r.cls = 4) then some (homeKey r.cls r.tgt r.place)
  else none

/-- The destination refuses an access: a class-4 DIA of a class out of range, or operand 2 is 1, a fault at a host or a peer (R340). -/
def refused (s : State) (r : Req) : Bool :=
  (r.cls == 4 && decide (2 < bits r.place 44 3)) || ((r.cls == 3 || r.cls == 4) && s.arg 2 == 1)

/-- Operand 2 is 2: the host marks a completion poisoned or returns it with an error (R328). -/
def hostPoison (s : State) (r : Req) : Bool := r.cls == 3 && s.arg 2 == 2

/-- Another load of the tile that has not been performed lies in a line: the line stays out of the L1, so that no later load takes older
bytes from it (R296). -/
def lineAwaited (x : Tile) (k : Nat) (r : Req) (key : Nat) : Bool :=
  let meets (q : Req) : Bool := isLoadReq q && q.open && decide (q.cls < 3) &&
    (lineKey q.cls q.tgt q.place == key || (decide (64 < q.size) && lineKey q.cls q.tgt (q.place + 64) == key))
  ((List.range x.reqs.length).zip x.reqs).any (fun p => p.1 != k && meets p.2) || (r.kind == .pref && x.reqs.any meets)

/-- An L1 line filled from a place: none that is held, has poison, that another load awaits, or that an open AMO of the tile will write;
later stores of the tile stay visible (R184, R296, R303, R320). -/
def fillLine (s : State) (t k : Nat) (r : Req) (dia key : Nat) : State :=
  let x := s.tile t
  let n := lineKey r.cls r.tgt dia
  if (findLine x.l1 n).isSome || lineAwaited x k r n then s
  else
    let s := s.reads key 64
    if (poisonAt s key 64).isSome || x.reqs.any (fun q => q.kind == .amo && q.open && lineKey q.cls q.tgt q.place == n) then s
    else
      let l : List Line := [{ key := n, data := readN s key 64 }]
      let l := (x.reqs.filter (fun q => q.kind == .st && q.open)).foldl l1Store l
      let s := s.onTile t (fun x => match l with | y :: _ => { x with l1 := putL1 x.l1 n y.data } | [] => x)
      { s with codes := { s.codes with flaws := s.codes.flaws.filter (· != .l1 t n) } }

/-- The L1 lines of a load or prefetch of classes 0 to 2 (R320). -/
def fillL1 (s : State) (t k : Nat) (r : Req) (key : Nat) : State :=
  if 3 ≤ r.cls then s
  else
    let base := key - r.place % 64
    let s := fillLine s t k r r.place base
    if 64 < r.size then fillLine s t k r (r.place + 64) (base + 64) else s

/-- The bytes of a load that are read at the home: all, or the half that the L1 did not hold, as offset and size (R320). -/
def homePart (r : Req) : Nat × Nat := match r.kind, r.op with | .vld, 1 => (64, 64) | .vld, 2 => (0, 64) | _, _ => (0, r.size)

/-- A load performed at its home (R294, R328). -/
def performLoad (s : State) (t k : Nat) (r : Req) (key : Nat) : State :=
  let (o, n) := homePart r
  let s := s.reads (key + o) n
  match poisonAt s (key + o) n with
  | some i => s.setReq t k { r with st := .poisoned, data := r.va + o + i }
  | none =>
    let v := if n = r.size then readN s key n else setBits r.data (8 * o) 512 (readN s (key + o) 64)
    (fillL1 s t k r key).setReq t k { r with st := .done, data := v }

/-- A code line read at its home: it enters the instruction cache unless it holds poison (R321). -/
def performFetch (s : State) (t k : Nat) (r : Req) (key : Nat) : State :=
  let base := key - r.place % 64
  let s := s.reads base 64
  match poisonAt s key 16 with
  | some i => s.setReq t k { r with st := .poisoned, data := r.va + i }
  | none =>
  if (poisonAt s base 64).isSome then s.setReq t k { r with st := .done, data := readN s key 16 }
  else (s.delReq t k).onTile t (fun x => { x with icache := putCode x.icache (lineKey r.cls r.tgt r.place) (readN s base 64) })

/-- A store performed at its home (R294, R328). -/
def performStore (s : State) (t k : Nat) (r : Req) (key : Nat) : State :=
  writeFar (s.delReq t k) key r.size r.data r.enb r.pois

/-- The failure of a store while its task is away: the first in program order goes into SFLT and header word 7 (R522). -/
def storeFailed (s : State) (t code : Nat) (r : Req) : State :=
  let base := saveArea s t
  let s := s.reads base 8
  let h := readN s base 8
  let o := (s.tile t).task.sfltOrd
  if (poisonAt s base 8).isSome then s
  else if bits h 59 2 = 0 ∨ r.before { r with j := o.1, slot := o.2 } then
    (writeWords (writeWords s base [setBits h 59 2 code]) (base + 56) [r.va]).onTile t (fun x =>
      x.onTask (fun k => { k with sfltOrd := (r.j, r.slot) }))
  else s

/-- A store that fails for good: of a retired task it is forgotten, of one that is away it is recorded, else it stands as a cause (R340,
R522). -/
def failStore (s : State) (t k code : Nat) (r : Req) : State :=
  if !r.late then s.setReq t k { r with st := if code = 3 then .perm else .page }
  else if r.pw = 255 then s.delReq t k
  else storeFailed (s.delReq t k) t code r

/-- SLICE_ACCESS: a load, store, fetch or prefetch is performed at its home, in the tile's program order for its line (R294,
R296, R323); operand 2 tells what a host or a peer makes of it. -/
def execSliceAccess (s : State) : Out :=
  tileStep s (fun t =>
    let k := s.arg 1
    let x := s.tile t
    match reqOf x k with
    | some r =>
      match performPlace s t r with
      | none => s
      | some key =>
        if behind x k r then s
        else if refused s r then (if r.kind = .st then failStore s t k 3 r else s.setReq t k { r with st := .perm })
        else if hostPoison s r ∧ r.kind ≠ .st then s.setReq t k { r with st := .poisoned, data := r.va }
        else
          match r.kind with
          | .st => performStore s t k r key
          | .fetch => performFetch s t k r key
          | .pref => (fillL1 s t k r key).delReq t k
          | .amo => s
          | .barUpd => s
          | _ => performLoad s t k r key
    | none => s)

/-- AMO_PERFORM: the read and write at the one place where the word lives; a poisoned word stays (R176, R178). -/
def execAmoPerform (s : State) : Out :=
  tileStep s (fun t =>
    let k := s.arg 1
    let x := s.tile t
    match reqOf x k with
    | some r =>
      let place : Option Nat := if r.cls = 8 then (if r.st = .waiting then some r.place else none) else performPlace s t r
      match place with
      | none => s
      | some key =>
        if r.kind != .amo || behind x k r then s
        else
          s.atTile t (fun s => let (r', s) := amoAt s r key; endAmo s t k r')
    | none => s)

/-! ## Resolution of fault records -/

/-- A channel's commands with those that wait on a record released, or ended with a code (R283, R349). -/
def freeChan (m seq : Nat) (stop : Bool) (c : Chan) : Chan :=
  { c with cmds := c.cmds.map (fun x =>
      if x.held ∧ x.mb = m ∧ x.seq = seq then (if stop then { x with held := false, ended := true, ecode := 0x14 } else { x with held := false }) else x) }

/-- A tile's units that wait on a record ask for translation again (R349). -/
def retryTile (m seq : Nat) (x : Tile) : Tile :=
  { x with reqs := x.reqs.map (fun r => if r.st = .held ∧ r.mb = m ∧ r.seq = seq then { r with st := .waiting } else r),
           chans := x.chans.map (freeChan m seq false) }

/-- The queues that wait on a fault record, on the dies of a choice. -/
def heldQueues (s : State) (m seq : Nat) (go : Nat → Bool) : List Nat :=
  ((s.dies.filter (fun p => go p.1)).map (fun p => (p.2.queues.filter (fun q => q.2.held && q.2.mb == m && q.2.seq == seq)).map (fun q => 1024 * p.1 + q.1))).flatten

/-- The started SIGNAL records that wait on a fault record, with their queues. -/
def heldSignals (s : State) (m seq : Nat) (go : Nat → Bool) : List (Nat × RunRec) :=
  ((s.dies.filter (fun p => go p.1)).map (fun p => (p.2.queues.map (fun q =>
    (q.2.running.filter (fun r => r.held == some (m, seq))).map (fun r => (1024 * p.1 + q.1, r)))).flatten)).flatten

/-- The Pendants and Lockets that wait on a record go on, or their access fails (R349, R445, R456). -/
def freeUnits (s : State) (m seq : Nat) (stop : Bool) (go : Nat → Bool) : State :=
  { s with dies := s.dies.map (fun p =>
      if !go p.1 then p else
      let x := p.2
      let closed (l : List (Nat × Nat × Nat)) (a : Nat × Nat × Nat) := if stop then l ++ [a] else l
      let x := if x.pend.held = some (m, seq) then { x with pend := { x.pend with held := none, ended := closed x.pend.ended x.pend.fault } } else x
      (p.1, if x.lock.held = some (m, seq) then { x with lock := { x.lock with held := none, ended := closed x.lock.ended x.lock.fault } } else x)) }

/-- The accesses of other modules that wait on a record are due to be made again, or to reach their requester as PERM, once a route leads
there (R340, R349, R461, R470; log 17). -/
def freePeers (s : State) (m seq : Nat) (stop : Bool) : State :=
  s.onHub (fun h =>
    let mine := h.peers.filter (fun p => p.1 == m && p.2.1 == seq)
    { h with peers := h.peers.filter (fun p => !(p.1 == m && p.2.1 == seq)), peerDue := h.peerDue ++ mine.map (fun p => (m, stop, p.2.2)) })

/-- The event queues whose next event waits on a record write it again, or lose it, which OVF shows (R349, R467; log 27). -/
def freeEvqs (s : State) (m seq : Nat) (stop : Bool) (go : Nat → Bool) : State :=
  let mine (q : EvQ) : Bool := q.held == some (m, seq)
  let free (q : EvQ) : EvQ := if mine q then { q with held := none, cfg := if stop then setFld q.cfg 6 1 1 else q.cfg } else q
  let s := { s with dies := s.dies.map (fun p =>
    let x := p.2
    let lost := if stop then (x.evqs.filter (fun q => mine q.2)).map (·.1) else []
    if go p.1 && x.evqs.any (fun q => mine q.2) then
      (p.1, { x with evqs := x.evqs.map (fun q => (q.1, free q.2)), hold := lost.foldl (fun l e => l.eraseP (fun h => h.1 == e)) x.hold })
    else p) }
  if mine s.hub.mgmt then
    s.onHub (fun h => { h with mgmt := free h.mgmt, mgmtWait := if stop then h.mgmtWait.drop 1 else h.mgmtWait })
  else s

/-- What waits on a record outside the tiles: queues, Pendants, Lockets, events and other modules go on, or their access fails, on the dies
of a choice (R349, R355, R356). -/
def freeQueues (s : State) (m seq : Nat) (stop : Bool) (go : Nat → Bool) : State :=
  let s := freeEvqs (freePeers s m seq stop) m seq stop go
  let s := (heldQueues s m seq go).foldl (fun s q =>
    if stop then failQueue s q 4 else s.setQueue q { s.queue q with held := false }) (freeUnits s m seq stop go)
  (heldSignals s m seq go).foldl (fun s p =>
    if stop then failRunning s p.1 p.2 4
    else s.setQueue p.1 { s.queue p.1 with running := (s.queue p.1).running.map (fun r => if r.id = p.2.id then { r with held := none } else r) }) s

/-- The record numbered seq at a base die. -/
def Mb.rec? (x : Mb) (seq : Nat) : Option FRec := x.recs.find? (fun r => r.seq == seq)

/-- The base die without a record. -/
def Mb.drop (x : Mb) (seq : Nat) : Mb := { x with recs := x.recs.filter (fun r => r.seq != seq) }

/-- A base die that ignores a write of FRES. DESIGN CHOICE: R349 counts it in telemetry, of whose words R479 names none for it; the count
stands here and no read shows it (log 73). -/
def fresIgnored (s : State) (m : Nat) : State := s.setMb m { s.mb m with badFres := (s.mb m).badFres + 1 }

/-- FRES_RETRY: every requester of the record walks again (R349), the writes of events too (R467). The register is not offered while ROT is 0
(R481). -/
def execFresRetry (s : State) : Out :=
  mbStep s (fun m =>
    let seq := s.arg 1
    match if s.hub.rot then (s.mb m).rec? seq else none with
    | none => if s.hub.rot then fresIgnored s m else s
    | some _ => pumpAll (freeQueues ((s.setMb m ((s.mb m).drop seq)).mapTiles (fun _ x => retryTile m seq x)) m seq false (fun _ => true)))

/-- One request of a tile that FRES ends (R349, R404, R522). -/
def endReq (s : State) (t : Nat) (reason : Nat) (r : Req) : State :=
  let x := s.tile t
  match lfind (fun q => q == r) x.reqs with
  | none => s
  | some k =>
    let st : ReqSt := if reason = 2 then .perm else .page
    let r' := { r with st := st, frz := false }
    if r.kind = .amo ∧ r.late then settleAmo s t k r'
    else if r.late then failStore s t k (if reason = 2 then 3 else 2) r
    else
      let s := s.setReq t k r'
      let s := if r.kind = .fetch then s else raise s t r'
      s.onTile t (fun y => if y.task.run = .frozen then y.onTask (fun j => { j with run := .running }) else y)

/-- Something of a die still waits on a record. -/
def waitsOn (s : State) (m seq : Nat) : Bool :=
  s.tileNums.any (fun t => (s.tile t).reqs.any (fun r => r.st == .held && r.mb == m && r.seq == seq) ||
    (s.tile t).chans.toList.any (fun c => c.cmds.any (fun x => x.held && x.mb == m && x.seq == seq))) ||
  s.dies.any (fun p => p.2.pend.held == some (m, seq) || p.2.lock.held == some (m, seq) || p.2.evqs.any (fun q => q.2.held == some (m, seq))) ||
  !(heldQueues s m seq (fun _ => true)).isEmpty || !(heldSignals s m seq (fun _ => true)).isEmpty

/-- The requesters of an ended record fail, those to whose die a route leads; the answer to the others waits (R349, R461). -/
def endRecord (s : State) (m seq reason : Nat) : State :=
  let go (d : Nat) : Bool := ringOk s m d
  let s := s.setMb m { s.mb m with answers := (s.mb m).answers.filter (fun p => p.1 != seq) }
  let s := s.mapTiles (fun t x => if go (tileDie t) then { x with chans := x.chans.map (freeChan m seq true) } else x)
  let s := freeQueues s m seq true go
  let s := (s.tileNums.filter (fun t => go (tileDie t))).foldl (fun s t =>
    ((s.tile t).reqs.filter (fun r => r.st == .held && r.mb == m && r.seq == seq)).foldl (fun s r => endReq s t reason r) s) s
  if waitsOn s m seq then s.setMb m { s.mb m with answers := (s.mb m).answers ++ [(seq, reason)] } else s

/-- The answers that wait for a route sent again (R461). -/
def pumpAnswers (s : State) : State :=
  s.mbs.foldl (fun s p => p.2.answers.foldl (fun s a => endRecord s p.1 a.1 a.2) s) s

/-- FRES_END: every requester of the record fails (R349). The register is not offered while ROT is 0 (R481). -/
def execFresEnd (s : State) : Out :=
  mbStep s (fun m =>
    let seq := s.arg 1
    match if s.hub.rot then (s.mb m).rec? seq else none with
    | none => if s.hub.rot then fresIgnored s m else s
    | some q => pumpAll (endRecord (s.setMb m ((s.mb m).drop seq)) m seq q.reason))

/-! ## Invalidation -/

/-- The TLB and walk cache after an invalidation command; the walk cache is discarded whole (R351, R352). -/
def invalidate (x : Mb) (keep : TlbEnt → Bool) : Mb :=
  { x with tlb := x.tlb.filter keep, walk := [], invBusy := true, inv := setFld x.inv 1 1 0 }

/-- The offset of a base die's INVC in BAR0 (R341, R351, R473). -/
def invcOff (m : Nat) : Nat := 0x1200020 + 4096 * m

/-- An invalidation at one base die, or at all of them for number 16, the broadcast copy in HD0: to those that no spine leads to its write
waits. A command whose fields are not what R351 allows changes nothing, and the register is not offered while ROT is 0 (R351, R462,
R481). -/
def invStep (s : State) (ok : Bool) (word : Nat) (keep : TlbEnt → Bool) : Out :=
  let m := s.arg 0
  let inval (s : State) (k : Nat) : State := s.setMb k (invalidate (s.mb k) keep)
  if 16 < m then .fault (.noSuchAgent m)
  else if !(ok && s.hub.rot) then .next s
  else if m = 16 then
    .next (((List.range 16).filter (fun k => spineOk s k 0)).foldl inval
      ((inval s 16).onHub (fun h => { h with
        writes := h.writes ++ ((List.range 16).filter (fun k => !spineOk s k 0)).map (fun k => [invcOff k, word, 0]) })))
  else .next (inval s m)

/-- INVC_ALL (R351). -/
def execInvcAll (s : State) : Out := invStep s true 1 (fun _ => false)

/-- INVC_SPACE: one space (R351). -/
def execInvcSpace (s : State) : Out := invStep s (decide (s.arg 1 < 3)) (17 + 4 * s.arg 1) (fun e => e.spc != s.arg 1)

/-- INVC_RANGE: units of 64 KiB from a page of one space (R351). -/
def execInvcRange (s : State) : Out :=
  let lo := s.arg 2 * 4096
  let hi := lo + s.arg 3 * 65536
  invStep s (decide (s.arg 1 < 3) && decide (1 ≤ s.arg 3) && decide (s.arg 3 ≤ 16))
    (33 + 4 * s.arg 1 + 256 * (s.arg 3 - 1) + 4096 * s.arg 2) (fun e => e.spc != s.arg 1 || decide (hi ≤ e.page) || decide (e.page + e.size ≤ lo))

/-- An access translated at a base die has not been performed (R352). -/
def translatedOpen (s : State) (m : Nat) : Bool :=
  s.tileNums.any (fun t => (s.tile t).reqs.any (fun r => r.st == .ready && r.mb == m))

/-- INVALIDATION_DONE: DONE returns to 1 once every access translated before has been performed; the broadcast copy's once every
MTU's has (R351, R352, R462). -/
def execInvalidationDone (s : State) : Out :=
  let m := s.arg 0
  if 16 < m then .fault (.noSuchAgent m)
  else
    let ready := if m = 16 then (List.range 16).all (fun k => !(s.mb k).invBusy && !s.hub.writes.any (fun w => w.headD 0 == invcOff k))
      else !translatedOpen s m
    if (s.mb m).invBusy ∧ ready then .next (s.setMb m { s.mb m with invBusy := false, inv := setFld (s.mb m).inv 1 1 1 })
    else .next s

/-! ## Base die housekeeping -/

/-- SCRUB_READ: sector p of the stack, or with operand 3 = 1 of the second-tier channel, read with n symbols newly in error: 1 or 2 are
corrected and counted, more make a poison record or decode to other data without a mark; storage in self-refresh or gated is not scrubbed,
and a scrub that would write back to such storage waits (R326, R329, R478). -/
def execScrubRead (s : State) : Out :=
  mbStep s (fun m =>
    let p := s.arg 1
    let n := s.arg 2
    let k := homeKey (if s.arg 3 = 1 then 2 else 1) m (32 * p)
    if asleep s k || !backed s k 32 then s
    else
      let s := s.setMb m { s.mb m with scrub := p + 1 }
      let hit (s : State) (f : FlawKind) : State := { s with codes := { s.codes with flaws := .unit k f :: s.codes.flaws } }
      let s :=
        if n = 0 then s
        else if n ≤ 2 then hit s .corrected
        else let (b, s) := s.freeBit; hit s (if b then .misread else .uncorrectable)
      s.reads k 32)

/-- ACTIVATION_ALERT: a row, numbered with its bank, has reached 2,048 activations in the refresh window: its bank is throttled for
gathers for 50,000 ns and a telemetry record is written, once in the window; a row that has had its alert counts 2^32 more (R331,
R479; log 14). -/
def execActivationAlert (s : State) : Out :=
  mbStep s (fun m =>
    let x := s.mb m
    let row := s.arg 1
    let n := mget 0 s.codes.rows (m * 2 ^ 64 + row)
    if n < 2048 ∨ 2 ^ 32 ≤ n then s
    else
      let s := { s with codes := { s.codes with rows := mset s.codes.rows (m * 2 ^ 64 + row) (n + 2 ^ 32) } }
      let log := x.log ++ [(row, s.hub.gtc)]
      s.setMb m { x with alerts := x.alerts + 1, throttle := mset x.throttle (row / 2 ^ 32) (s.hub.gtc + 50000),
                         log := log.drop (log.length - 64) })

/-- GATHER_THROTTLE_END: 50,000 ns after the bank's last alert (R331). -/
def execGatherThrottleEnd (s : State) : Out :=
  mbStep s (fun m =>
    let x := s.mb m
    if mget 0 x.throttle (s.arg 1) ≤ s.hub.gtc then s.setMb m { x with throttle := mdel x.throttle (s.arg 1) } else s)

/-- REFRESH_WINDOW_END: the activation counts of the 32 ms window start again (R331; log 14). -/
def execRefreshWindowEnd (s : State) : Out :=
  mbStep s (fun m =>
    { s.setMb m { s.mb m with window := s.hub.gtc } with
      codes := { s.codes with rows := s.codes.rows.filter (fun p => p.1 / 2 ^ 64 != m) } })

/-! ## Running ahead -/

/-- An operation at whose bundle the sequencer stops running ahead (R123). -/
def stopsAhead (i : Instr) : Bool :=
  isAmo i || (match i with | .fence _ => true | .barWait _ => true | .barTest _ => true | .beadRecv _ => true | _ => false)

/-- The bundle at an address, if the instruction cache holds it. -/
def cached (s : State) (pc : Nat) : Option Bundle :=
  match fetch (s.onCore (fun t => t.onSpr (fun p => { p with pc := BitVec.ofNat 64 pc }))) with
  | .bytes b => some (decodeBundle b)
  | _ => none

/-- The sequencer may run on past a bundle (R123). -/
def passable (b : Bundle) : Bool :=
  !([b.s, b.v0, b.v1, b.t].any stopsAhead || b.flag (·.vj) || b.flag (·.rb) || b.flag (·.re))

/-- Where an operation of the bundle at an address may lead (R149 to R154). -/
def targetsOf (t : Tile) (pc : Nat) (i : Instr) : List Int :=
  let rel (o w : Nat) : List Int := [(pc : Int) + 16 * sext o w]
  match i with
  | .br o => rel o.o 20
  | .call o => rel o.o 14
  | .brc o => rel o.o 15
  | .brG o => rel o.o 20
  | .loop o => rel o.o 20
  | .loopr o => rel o.o 17
  | .jmp o => [((t.sreg o.a).toNat : Int)]
  | .ret o => [((t.sreg o.a).toNat : Int)]
  | _ => []

/-- The bundle at one address may be followed by that at another: the next one, or one to which it transfers (R106). -/
def follows (s : State) (p q : Nat) : Bool :=
  q == (p + 16) % 2 ^ 56 || (match cached s p with | some b => (targetsOf s.core p b.s).contains (q : Int) | none => false)

/-- The scalar registers, by logical name, that an operation writes at any time (R101, R102). -/
def scalarDsts (i : Instr) : List Nat :=
  match i with
  | .ldBI o | .ldBN o | .ldHI o | .ldHN o | .ldWI o | .ldWN o | .ldD o => [o.d]
  | .amoAdd o | .amoMinI o | .amoMinN o | .amoMaxI o | .amoMaxN o | .amoAnd o | .amoOr o | .amoXor o | .amoXchg o | .amoCas o => [o.d]
  | .barTest o => [o.d]
  | .beadHdr o => [o.d]
  | .xstat o | .xstatPc o => [o.b]
  | i => match (dstOf i 0).1 with | .s n => [n] | _ => []

/-- What running ahead knows of the tile past a bundle: results in flight land as bundles go by, registers that it has not computed are not
known, and the wheel moves with an unguarded LOOPR; where it may have moved otherwise, no rotating register is known (R18, R51, R123). -/
def aheadPast (x : Tile × List Nat) (b : Bundle) : Tile × List Nat :=
  let t := x.1.advance
  let l := ([b.s, b.v0, b.v1, b.t].flatMap scalarDsts).map (physS t.spr.rotw) ++ x.2
  let turned : List Nat := (List.range 16).map (48 + ·)
  match b.s with
  | .loopr o => if guardOf (.loopr o) = .always then (t.onSpr (fun p => { p with rotw := wheelNext p.rotw }), l) else (t, turned ++ l)
  | .mts o => if o.i.val = 5 then (t, turned ++ l) else (t, l)
  | _ => (t, l)

/-- The last bundle of a path from the bundle at an address, whose every bundle is in the instruction cache, follows the one before and does
not stop the sequencer, the first one included, with what running ahead knows there (R123). -/
def aheadTo (s : State) : Nat → Tile × List Nat → List Nat → Option (Bundle × Tile × List Nat)
  | _, _, [] => none
  | p, x, q :: l =>
    match cached s p, cached s q with
    | some b, some c =>
      if passable b && passable c && follows s p q then
        (if l = [] then some (c, aheadPast x b) else aheadTo s q (aheadPast x b) l)
      else none
    | _, _ => none

/-- The address of a load whose address register is known at its bundle (R123, R172, R228). -/
def aheadEa (s : State) (x : Tile × List Nat) (i : Instr) : Option Nat :=
  let s := { s with core := x.1 }
  let go (n a : Nat) : Option Nat :=
    if readsPending x.1 i || (n != 0 && x.2.contains (physS x.1.spr.rotw n)) then none else some a
  match i with
  | .ldBI o => go o.a (scalarEa s o.a o.i 1)
  | .ldBN o => go o.a (scalarEa s o.a o.i 1)
  | .ldHI o => go o.a (scalarEa s o.a o.i 2)
  | .ldHN o => go o.a (scalarEa s o.a o.i 2)
  | .ldWI o => go o.a (scalarEa s o.a o.i 4)
  | .ldWN o => go o.a (scalarEa s o.a o.i 4)
  | .ldD o => go o.a (scalarEa s o.a o.i 8)
  | .vld o => go o.a (vectorEa s o.a o.i o.h o.e)
  | .vldb o => go o.a (vectorEa s o.a o.i o.h o.e)
  | _ => none

/-- The addresses that the loads of a bundle at the end of a predicted path, of at most 32 bundles after the stalled one, can already
compute (R123). -/
def aheadLoads (s : State) (path : List Nat) : List Nat :=
  if 32 < path.length then []
  else
    match aheadTo s s.core.spr.pc.toNat (s.core, []) path with
    | some (b, x) => [b.s, b.v0, b.v1].filterMap (aheadEa s x)
    | none => []

/-- RUN_AHEAD_PREFETCH: on a tile stalled on the scoreboard, a prefetch of a global address of classes 0 to 2 that its range registers let
it read, that of a load of the last bundle of a predicted path, which operands 2 on give (R123; log 13). -/
def execRunAheadPrefetch (s : State) : Out :=
  tileStep s (fun t =>
    let va := s.arg 1
    let x := s.tile t
    match checkRegion (s.focus t) va true false false with
    | .ok d =>
      if decide (d.cls < 3) && x.task.run == .running && x.iss.out == .stallSb && (aheadLoads (s.focus t) (s.args.drop 2)).contains va then
        s.onTile t (fun x => { x with reqs := x.reqs ++
          [{ Req.empty .pref with va := va, size := 64, cls := d.cls, tgt := d.tgt, place := d.place / 64 * 64 }] })
      else s
    | .error _ => s)

/-! ## Tile events -/

/-- What a stalled or frozen tile takes at its boundary: a return cause, a pre-emption request, or an expired region (R118, R119, R393,
R406). -/
def boundary (s : State) : State :=
  if s.core.task.pend.isSome then returnCore s
  else if s.core.task.preq && !s.core.inreg then preemptCore s else if regionExpired s then regionCore s else s

/-- The tile's task runs or stands frozen. -/
def Tile.live (x : Tile) : Bool := x.task.run == .running || x.task.run == .frozen

/-- PREEMPT: a pre-emption request is taken outside a region; a return cause at the same boundary wins and serves it (R118, R393,
R406). -/
def execPreempt (s : State) : Out :=
  tileStep s (fun t =>
    let x := s.tile t
    if x.task.preq && !x.inreg && x.live then s.atTile t boundary else s)

/-- REGION_TIMEOUT; a return cause at the same boundary wins (R119, R393). -/
def execRegionTimeout (s : State) : Out :=
  tileStep s (fun t => if (s.tile t).live ∧ regionExpired (s.focus t) then s.atTile t (fun s => if s.core.task.pend.isSome then returnCore s else regionCore s) else s)

/-- RANDOM_BIT_APPEND: the generator appends the next entry while fewer than 16 wait and the tile is not stopped by a trap, for the
monitor's queue too (R45, R46). -/
def execRandomBitAppend (s : State) : Out :=
  tileStep s (fun t => s.onTile t (fun x =>
    if x.rng.run ∧ x.rng.count < 16 ∧ x.live then
      { x with rng := { x.rng with gen := x.rng.gen + 1, count := x.rng.count + 1 } }
    else x))

/-- TILE_CYCLE: a cycle in which the tile, now in focus, issues nothing; a frozen or stalled tile takes what stands at its
boundary (R32, R100, R389). -/
def execTileCycle (s : State) : Out :=
  tileStep s (fun t =>
    let s := s.focus t
    let s := cyclePass s (s.core.iss.out.atRecv && s.core.live)
    let s := if s.core.live then boundary s else restartWaiting s
    s.tag s.core.iss.out.rest)

end Sys2Proof.Machine
end

