-- ==== Sys2Proof/Machine/Copy.lean ====
section
/-! DEFINITION. The steps of the copy engines, the gather path, the operand loader and the bead port's queue (R23, R105, R202,
R261 to R285). Each runs a command as far as it goes in one step (log A24). -/

namespace Sys2Proof.Machine

/-! ## Acceptance -/

/-- A queue entry names a barrier: its B field is not s0 (R273, R289). -/
def Tcq.hasBar (c : Tcq) : Bool := bits c.word 2 6 != 0

/-- The engine of a queue entry: 0 and 1 the copy engines, 2 the operand loader, 3 the bead port (R43, R105). -/
def Tcq.engine (c : Tcq) : Nat := if c.op = 16 then 2 else if 24 ≤ c.op ∧ c.op ≤ 27 then c.ch / 4 else 3

/-- A command as a channel takes it. -/
def ChCmd.ofTcq (c : Tcq) : ChCmd :=
  { cmd := c, record := 0, started := false, pos := 0, owed := 0, ecode := 0, ended := false, held := false, mb := 0, seq := 0, saved := [] }

/-- ENGINE_ACCEPT: an engine takes its next entry: a channel that holds fewer than 4 commands, the bead port while fewer than 8
sends are unreleased (R105, R275, R289). -/
def execEngineAccept (s : State) : Out :=
  tileStep s (fun t =>
    let k := s.arg 1
    let x := s.tile t
    match x.tcq[k]? with
    | none => s
    | some c =>
      if (x.tcq.take k).any (fun q => q.engine == c.engine) || c.engine == 2 then s
      else
        let y := { x with tcq := ldel x.tcq k }
        if c.engine < 2 then
          (if (x.chan c.ch).cmds.length < 4 then
            s.setTile t (y.setChan c.ch { x.chan c.ch with cmds := (x.chan c.ch).cmds ++ [ChCmd.ofTcq c] })
           else s)
        else if c.op = 41 then
          (if x.beads.sends.length < 8 then
            s.setTile t { y with beads := { x.beads with
              sends := x.beads.sends ++ [{ bead := c.beadRec, bar := c.b, hasBar := c.hasBar, stage := c.stage, stamp := c.stamp }] } }
           else s)
        else
          s.setTile t { y with beads := { x.beads with
            dones := x.beads.dones ++ [{ bead := c.beadRec, status := c.a % 256, waits := x.beads.sends.length, stage := c.stage,
                                         stamp := c.stamp }] } })

/-! ## Addresses of engines -/

/-- Where an engine's byte leads: a place, an error code, or a fault at a base die (R276, R282, R283). -/
inductive EngAcc where
  | at (key : Nat)
  | fail (code : Nat)
  | page (m : Nat) (r : FReq)
  | wait

/-- An own-scratchpad byte lies in an open window of the tile, other than the one that this channel's CPYW fills (R277). -/
def inWindow (x : Tile) (skip : Option Nat) (o : Nat) : Bool :=
  (List.range 8).any (fun c => some c != skip && decide ((x.chan c).lo < (x.chan c).hi) && decide ((x.chan c).lo ≤ o) &&
    decide (o < (x.chan c).hi))

/-- An engine's access to n bytes of one line, under the range registers and BOWN of its push (R275 to R277, R282, R338, R339). A fault at
a host or peer, which operand 2 = 1 tells of, denies it (R340; log 70). DESIGN CHOICE: a SRC or DST in the swizzled view, which R276 does not
allow, gives 0x11 or 0x12 (log 72). Whether storage that a write needs sleeps is asked where its data is known (R478). -/
def engAccess (s : State) (t : Nat) (e : Tcq) (agent : Nat) (a n : Nat) (wr : Bool) : EngAcc × State :=
  match sortLocal t a with
  | some d =>
    if d.swz then (.fail (if wr then 0x12 else 0x11), s)
    else if d.own && !bit e.bown (bankOf d.place) then (.fail 0x13, s)
    else if wr && d.own && inWindow (s.tile t) (if e.op = 25 then some e.ch else none) (d.place % 4194304) then (.fail 0x17, s)
    else (.at d.place, s)
  | none =>
    if !isGlobal a then (.fail (if wr then 0x12 else 0x11), s)
    else
      match e.rg.find? (rgMatch a) with
      | none => (.fail (if wr then 0x12 else 0x11), s)
      | some r =>
        let cls := fld r 8 3
        let dia := rgDia a r
        if fld r (if wr then 2 else 1) 1 = 0 then (.fail 0x13, s)
        else if !routeOk s (tileDie t) cls (rgTgt r) dia then (.wait, s)
        else if 3 ≤ cls then
          (if (cls = 4 ∧ 2 < bits dia 44 3) ∨ s.arg 2 = 1 then (.fail 0x13, s) else (.at (homeKey cls (rgTgt r) dia), s))
        else
          match xlate s cls (rgTgt r) dia (!wr) wr with
          | (.ok k, s') => (if wr || (if agent = 2 then backedPass s' k n else backed s' k n) then .at k else .wait, s')
          | (.wait, s') => (.wait, s')
          | (.fault why, s') =>
            (.page (homeOf cls (rgTgt r) dia)
              { cls := cls, tgt := rgTgt r, dia := dia, va := a, reason := why, acc := b2n wr, agent := agent,
                ch := if agent = 1 then e.ch else 0, tile := t % 64, die := tileDie t }, s')

/-! ## Copies -/

/-- How a run of a command ends: at a position, with an error code kept (0 or 0x15), an error, a page fault, or where no route
leads (R461). -/
inductive RunEnd where
  | done (pos code : Nat)
  | fail (pos code : Nat)
  | page (pos code m : Nat) (r : FReq)
  | wait (pos code : Nat)

/-- Eight bytes of a fill pattern repeated over n bytes, from byte k of its row (R279). -/
def fillData (pat k n : Nat) : Nat := packFields 8 (fun i => bits pat (8 * ((k + i) % 8)) 8) n

/-- The bytes of a row order from a position on, as addresses and lengths of runs within a row and a 64-byte line of the source. -/
def srcSegs (r : CpyRec) : Nat → Nat → Nat → List (Nat × Nat)
  | 0, _, _ => []
  | f + 1, pos, n =>
    if n = 0 then []
    else
      let a := moved r.src (r.sstr * (pos / r.rowb : Nat) + (pos % r.rowb : Nat))
      let m := Nat.min n (Nat.min (r.rowb - pos % r.rowb) (64 - a % 64))
      (a, m) :: srcSegs r f (pos + m) (n - m)

/-- The bytes of n from a place that are poisoned; operand 2 = 2 is a host's completion marked poisoned or in error (R328). -/
def poisMask (s : State) (k n : Nat) : Nat :=
  if s.arg 2 = 2 ∧ 48 * 2 ^ 56 ≤ k ∧ k < 50 * 2 ^ 56 then 2 ^ n - 1
  else if s.poison = [] then 0 else packFields 1 (fun i => b2n (s.poison.contains (poisonUnit (k + i)))) n

/-- Read bytes, their values or their poison marks as w bits each, with those that the command has overwritten as they stood before it; the
oldest values count (R277, R282). -/
def asBefore (saved : List (Nat × Nat × Nat)) (w k n v : Nat) : Nat :=
  saved.foldr (fun c v =>
    if c.1 + c.2.1 ≤ k ∨ k + n ≤ c.1 then v
    else (List.range n).foldl (fun v i =>
      if c.1 ≤ k + i ∧ k + i < c.1 + c.2.1 then setBits v (w * i) w (bits c.2.2 (w * (k + i - c.1)) w) else v) v) v

/-- What a command has saved, as values. -/
def savedVals (l : List (Nat × Nat × Nat × Nat)) : List (Nat × Nat × Nat) := l.map (fun c => (c.1, c.2.1, c.2.2.1))

/-- What a command has saved, as poison marks. -/
def savedPois (l : List (Nat × Nat × Nat × Nat)) : List (Nat × Nat × Nat) := l.map (fun c => (c.1, c.2.1, c.2.2.2))

/-- Two places lie in one scratchpad, or both outside the scratchpads, so that a copy from one to the other may overlap itself. -/
def mayOverlap (a b : Nat) : Bool := (decide (2 ^ 56 ≤ a) && decide (2 ^ 56 ≤ b)) || a / 4194304 == b / 4194304

/-- What reading runs of the source gives: the access that ends it early, the bytes read, their value and poison, and a place of the
source. -/
structure Got where
  err : Option EngAcc
  n : Nat
  v : Nat
  pois : Nat
  key : Nat

/-- Runs of the source read, up to one that cannot be. -/
def readSegs (t : Nat) (e : Tcq) (saved : List (Nat × Nat × Nat × Nat)) : List (Nat × Nat) → State → Got → Got × State
  | [], s, g => (g, s)
  | (a, m) :: l, s, g =>
    match engAccess s t e 1 a m false with
    | (.at k, s) =>
      let s := s.reads k m
      readSegs t e saved l s { g with n := g.n + m, v := g.v + 2 ^ (8 * g.n) * asBefore (savedVals saved) 8 k m (readN s k m),
                                      pois := g.pois + 2 ^ g.n * asBefore (savedPois saved) 1 k m (poisMask s k m), key := k }
    | (x, s) => ({ g with err := some x }, s)

/-- An access that is not granted ends a run at a position. -/
def EngAcc.stop (x : EngAcc) (pos : Nat) : RunEnd :=
  match x with
  | .at _ => .done pos 0
  | .fail c => .fail pos c
  | .page m q => .page pos 0 m q
  | .wait => .wait pos 0

/-- A piece of a copy in progress: how it ends, what the command has saved, and the state. -/
abbrev Piece := RunEnd × List (Nat × Nat × Nat × Nat) × State

/-- A copied piece: up to the next 64-byte boundary of the destination, over following rows that adjoin there; pos counts source bytes in
row order. Where part of the source cannot be read, the aligned destination words before it are written, so that none is written in part
(R277, R279, R295, R328). -/
def copyPiece (s : State) (t : Nat) (e : Tcq) (r : CpyRec) (saved : List (Nat × Nat × Nat × Nat)) (pos : Nat) : Piece :=
  let k := pos % r.rowb
  let da := moved r.dst (r.dstr * (pos / r.rowb : Nat) + k)
  let n1 := Nat.min (if r.dstr = r.rowb then r.rows * r.rowb - pos else r.rowb - k) (64 - da % 64)
  let none' : Got := { err := none, n := 0, v := 0, pois := 0, key := 0 }
  let (g, s) := if e.op = 26 then ({ none' with n := n1, v := fillData r.src k n1 }, s) else readSegs t e saved (srcSegs r n1 pos n1) s none'
  let n := if g.err.isNone then g.n else g.n - Nat.min g.n ((da + g.n) % 4)
  match g.err, n with
  | some x, 0 => (x.stop pos, saved, s)
  | _, _ =>
    match engAccess s t e 1 da n true with
    | (.at dk, s) =>
      let pm := g.pois % 2 ^ n
      let save := e.op != 26 && mayOverlap g.key dk
      let s1 := if save then s.reads dk n else s
      let saved' := if save then saved ++ [(dk, n, readN s1 dk n, poisMask s1 dk n)] else saved
      let s2 := writeFar s1 dk n g.v ((2 ^ n - 1) ^^^ pm) false
      let s3 := if pm = 0 then s2 else writeFar s2 dk n g.v pm true
      if (!save || backed s dk n) && backedWrite s s3 dk n then (.done (pos + n) (if pm = 0 then 0 else 0x15), saved', s3)
      else (.wait pos 0, saved, s)
    | (x, s) => (x.stop pos, saved, s)

/-- The source element at a position of an XFORM 1 copy, whose residual's bank must be held. -/
def elemSrc (s : State) (t : Nat) (e : Tcq) (r : CpyRec) (pos : Nat) : EngAcc × State :=
  if !bit e.bown (bankOf (scratchKey t (r.res + pos))) then (.fail 0x13, s)
  else engAccess s t e 1 (moved r.src (r.sstr * (pos / r.rowb : Nat) + (pos % r.rowb : Nat))) 4 false

/-- The source elements of an XFORM 1 copy read with their codes checked, and their residuals. -/
def elemReads (s : State) (l : List (Nat × Nat)) : State := l.foldl (fun s p => (s.reads p.1 4).reads p.2 4) s

/-- One element of an XFORM 1 copy at a place, with its residual at another: payload and residual, each formed once, and whether they are
poisoned (R278). -/
def elemOf (s : State) (sk rk : Nat) : Nat × Nat × Bool :=
  let v := rn (fadd (fval (readN s sk 4)) (fval (readN s rk 4)))
  let y := roundBf .rne false v
  (y, roundF .rne false (fsub v (fvalBf y)), poisMask s sk 4 != 0 || (poisonAt s rk 4).isSome)

/-- One element of an XFORM 1 copy, or the two of an aligned destination word, both read before either is written (R278, R295). DESIGN
CHOICE: each element is a write of its own, so that no unit of poison is written whole (R327; log 73). -/
def copyElem (s : State) (t : Nat) (e : Tcq) (r : CpyRec) (pos : Nat) : RunEnd × State :=
  let dst (p : Nat) : Nat := moved r.dst (r.dstr * (p / r.rowb : Nat) + (p % r.rowb / 2 : Nat))
  let da := dst pos
  let pair := da % 4 == 0 && decide (pos + 4 < r.rows * r.rowb) && dst (pos + 4) == da + 2
  let rk (p : Nat) : Nat := scratchKey t (r.res + p)
  match elemSrc s t e r pos with
  | (.at sk, s) =>
    match (if pair then elemSrc s t e r (pos + 4) else (.at 0, s)) with
    | (.at sk', s) =>
      match engAccess s t e 1 da (if pair then 4 else 2) true with
      | (.at dk, s) =>
        let s1 := elemReads s ((sk, rk pos) :: if pair then [(sk', rk (pos + 4))] else [])
        let (y, res, p) := elemOf s1 sk (rk pos)
        let (y', res', p') := if pair then elemOf s1 sk' (rk (pos + 4)) else (0, 0, false)
        let s2 := writeFar (writeEnb s1 (rk pos) 4 res 15 p) dk 2 y 3 p
        let s3 := if pair then writeFar (writeEnb s2 (rk (pos + 4)) 4 res' 15 p') (dk + 2) 2 y' 3 p' else s2
        if backedWrite s s3 dk (if pair then 4 else 2) then (.done (pos + if pair then 8 else 4) (if p || p' then 0x15 else 0), s3)
        else (.wait pos 0, s)
      | (x, s) => (x.stop pos, s)
    | (x, s) => (x.stop pos, s)
  | (x, s) => (x.stop pos, s)

/-- A copy run from a position to its end, an error or a page fault; code is the error code kept so far. -/
def copyRun (t : Nat) (e : Tcq) (r : CpyRec) (total : Nat) : Nat → State → List (Nat × Nat × Nat × Nat) → Nat → Nat → Piece
  | 0, s, saved, pos, code => (.done pos code, saved, s)
  | n + 1, s, saved, pos, code =>
    if total ≤ pos then (.done pos code, saved, s)
    else
      match (if r.xform = 1 then (let (x, s) := copyElem s t e r pos; (x, saved, s)) else copyPiece s t e r saved pos) with
      | (.done p c, saved, s') => copyRun t e r total n s' saved p (if code = 0 then c else code)
      | (.page p _ m q, saved, s') => (.page p code m q, saved, s')
      | (.wait p _, saved, s') => (.wait p code, saved, s')
      | x => x

/-- The rows before row k share no aligned destination word with those from row k on (R277, R295). -/
def CpyRec.apart (r : CpyRec) (k : Nat) : Bool :=
  let lo (i : Nat) : Int := (r.dst : Int) + r.dstr * i
  let hi (i : Nat) : Int := lo i + r.drow - 1
  k == 0 || (decide (0 < r.dstr) && decide (hi (k - 1) / 4 < lo k / 4)) || (decide (r.dstr < 0) && decide (hi k / 4 < lo (k - 1) / 4))

/-- The last row up to row k before which rows stand apart. -/
def CpyRec.lastApart (r : CpyRec) : Nat → Nat
  | 0 => 0
  | k + 1 => if r.apart (k + 1) then k + 1 else r.lastApart k

/-- The last position up to one at which a copy may stop with every destination word written whole or not at all (R277, R295, R308): any
at which its pieces end where rows adjoin or stand apart, else the start of a row. -/
def CpyRec.safe (r : CpyRec) (p : Nat) : Nat :=
  let k := p / r.rowb
  if r.dstr = r.drow ∨ r.rows = 1 ∨ (r.apart k ∧ (p % r.rowb = 0 ∨ r.apart (k + 1))) then p else r.lastApart k * r.rowb

/-- A copy run as far as it goes; one that stops in the middle of a word that rows share has stopped before it (R277, R295). -/
def wholeRun (s : State) (t : Nat) (e : Tcq) (r : CpyRec) (x : ChCmd) : Piece :=
  let total := r.rows * r.rowb
  let run (lim : Nat) : Piece := copyRun t e r lim total s x.saved x.pos x.ecode
  let back (z : Piece) (p code : Nat) (stop : Nat → Nat → RunEnd) : Piece :=
    let q := Nat.max x.pos (r.safe p)
    if q = p then z else match run q with | (.done _ c, saved, s) => (stop q (if code = 0 then c else code), saved, s) | y => y
  match run total with
  | (.done p c, l, s) => (.done p c, l, s)
  | (.fail p c, l, s) => back (.fail p c, l, s) p c .fail
  | (.page p c m q, l, s) => back (.page p c m q, l, s) p 0 (fun p c => .page p c m q)
  | (.wait p c, l, s) => back (.wait p c, l, s) p 0 .wait

/-- The record checks of a copy or fill: counts, sizes, alignments, transform operands (R276, R278, R279, R282). -/
def cpyBad (op : Nat) (r : CpyRec) : Bool :=
  r.rsv || r.rows == 0 || r.rowb == 0 || decide (2 ^ 40 < r.rows * r.rowb) || decide (1 < r.xform) ||
    (r.xform == 0 && r.res != 0) ||
    (r.xform == 1 && (r.src % 4 != 0 || r.rowb % 4 != 0 || r.sstr % 4 != 0 || r.dst % 2 != 0 || r.dstr % 2 != 0 || r.res % 4 != 0 ||
      decide (Config.scratchBytes < r.res + r.rows * r.rowb))) ||
    (op == 26 && (r.dst % 8 != 0 || r.rowb % 8 != 0 || r.dstr % 8 != 0 || r.sstr != 0 || r.xform != 0 || r.res != 0))

/-- A CPYW record that does not match its window (R280). -/
def cpywBad (r : CpyRec) (lo hi : Nat) : Bool :=
  r.dst != lo || r.rows * r.drow != hi - lo || (r.rows != 1 && r.dstr != r.drow)

/-- The destination bytes that a position stands for. -/
def CpyRec.written (r : CpyRec) (pos : Nat) : Nat := if r.xform = 1 then pos / 2 else pos

/-- The window of a channel while it is still that of a CPYW command. -/
def ownWindow (c : Chan) (e : Tcq) : Bool := c.act && c.lo == e.beadRec % 2 ^ 32 && c.hi == e.beadRec / 2 ^ 32

/-- The channel after its watermarked copy has written w bytes: WM over whole lines, ACT 0 at HI (R197, R280). -/
def waterMark (c : Chan) (e : Tcq) (w : Nat) : Chan :=
  if ownWindow c e then
    let wm := c.lo + w / 64 * 64
    { c with wm := wm, act := wm != c.hi }
  else c

/-- The head command of a channel. -/
def Chan.head (c : Chan) : Option ChCmd := match c.cmds with | x :: _ => some x | [] => none

/-- A channel with its head command replaced. -/
def Chan.setHead (c : Chan) (x : ChCmd) : Chan := { c with cmds := x :: c.cmds.drop 1 }

/-- The head command of a channel of a tile replaced. -/
def setCmd (s : State) (t c : Nat) (x : ChCmd) : State := s.onTile t (fun y => y.setChan c ((y.chan c).setHead x))

/-- The command with the outcome of a run: w0 destination bytes had been written before, w now. -/
def ChCmd.ran (x : ChCmd) (pos w0 w code : Nat) : ChCmd := { x with started := true, pos := pos, owed := x.owed + (w - w0), ecode := code }

/-- A command waits on a page fault (R283). -/
def holdCmd (s : State) (t c m : Nat) (r : FReq) (x : ChCmd) : State :=
  let (seq, s) := faultRec s m r
  setCmd s t c { x with held := true, mb := m, seq := seq }

/-- A row of n bytes at an address meets the offsets lo to hi of a tile's own scratchpad, in the linear view or its own cluster
window (R198, R277). -/
def rowMeets (t a n lo hi : Nat) : Bool :=
  [0, 0x10000000 + t % 16 * 0x400000].any (fun b =>
    (decide (a < b + hi) && decide (b + lo < a + n)) || decide (2 ^ 64 + b + lo < a + n))

/-- A destination row meets an open window of the tile, other than the one that a CPYW fills (R277, R282). -/
def cpyWindow (x : Tile) (t : Nat) (skip : Option Nat) (r : CpyRec) : Bool :=
  (List.range 8).any (fun c =>
    some c != skip && decide ((x.chan c).lo < (x.chan c).hi) &&
      (List.range r.rows).any (fun k => rowMeets t (moved r.dst (r.dstr * k)) r.drow (x.chan c).lo (x.chan c).hi))

/-- A copy, watermarked copy or fill at the head of its channel, from where it stands (R275 to R283). DESIGN CHOICE: one whose record reads
poison ends with 0x15 and writes and credits nothing (log 72). -/
def runCopy (s : State) (t c : Nat) (x : ChCmd) : State :=
  let e := x.cmd
  let s := if x.started then s else s.reads (scratchKey t (e.a % 4194304)) 64
  let rec0 := if x.started then x.record else readN s (scratchKey t (e.a % 4194304)) 64
  let r := cpyRec rec0
  let x := { x with record := rec0 }
  let (lo, hi) := (e.beadRec % 2 ^ 32, e.beadRec / 2 ^ 32)
  if !x.started && (poisonAt s (scratchKey t (e.a % 4194304)) 64).isSome then
    setCmd s t c { x with record := 0, started := true, ended := true, ecode := 0x15 }
  else if !x.started && cpyBad e.op r then setCmd s t c { x with started := true, ended := true, ecode := 0x10 }
  else if !x.started && e.op == 25 && cpywBad r lo hi then setCmd s t c { x with started := true, ended := true, ecode := 0x16 }
  else if !x.started && cpyWindow (s.tile t) t (if e.op = 25 then some e.ch else none) r then
    setCmd s t c { x with started := true, ended := true, ecode := 0x17 }
  else
    let w0 := r.written x.pos
    let mark (s : State) (p : Nat) : State :=
      if e.op = 25 then s.onTile t (fun y => y.setChan c (waterMark (y.chan c) e (r.written p))) else s
    let (y, saved, s) := wholeRun s t e r x
    let x := { x with saved := saved }
    match y with
    | .done p code =>
      let s := mark (setCmd s t c { x.ran p w0 (r.written p) code with ended := true }) p
      if e.op = 25 ∧ code ≠ 0 then
        s.onTile t (fun y => if (y.chan c).wm = hi ∧ (y.chan c).lo = lo then y.setChan c { y.chan c with lo := hi } else y)
      else s
    | .fail p code => mark (setCmd s t c { x.ran p w0 (r.written p) code with ended := true }) p
    | .page p code m q => mark (holdCmd s t c m q (x.ran p w0 (r.written p) code)) p
    | .wait p code => mark (setCmd s t c (x.ran p w0 (r.written p) code)) p

/-- The head command of channel operand 1, if it has the opcode and can run. -/
def runnable (s : State) (t c op : Nat) : Option ChCmd :=
  match ((s.tile t).chan c).head with
  | some x => if x.cmd.op = op ∧ x.ended = false ∧ x.held = false then some x else none
  | none => none

/-- A step on a channel of a tile. -/
def chanStep (s : State) (op : Nat) (f : State → Nat → Nat → ChCmd → State) : Out :=
  if 8 ≤ s.arg 1 then .fault (.noSuchAgent (s.arg 1))
  else tileStep s (fun t => match runnable s t (s.arg 1) op with | some x => f s t (s.arg 1) x | none => s)

/-- CPY_COPY (R277). -/
def execCpyCopy (s : State) : Out := chanStep s 24 runCopy

/-- CPYW_COPY (R280). -/
def execCpywCopy (s : State) : Out := chanStep s 25 runCopy

/-- FILL_WRITE (R279). -/
def execFillWrite (s : State) : Out := chanStep s 26 runCopy

/-! ## Gathers -/

/-- The banks of a range are held at the push. -/
def banksHeld (bown a n : Nat) : Bool := (unownedByte (BitVec.ofNat 64 bown) a n).isNone

/-- The code with which a gather's record fails, 0 if it does not (R282, R284). -/
def gathBad (e : Tcq) (g : GathRec) : Nat :=
  let n := g.esz * g.count
  let ix := 4 * g.n.getD 0 0
  if g.rsv || g.dst % 64 != 0 || g.ixa % 4 != 0 || (!g.idx && g.ixa != 0) || g.n.any (· == 0) ||
      decide (Config.scratchBytes < g.dst + n) || (g.idx && decide (Config.scratchBytes < g.ixa + ix)) then 0x10
  else if !banksHeld e.bown g.dst n || (g.idx && !banksHeld e.bown g.ixa ix) then 0x13
  else 0

/-- GATHER: the command starts: its record and index list are read and checked (R275, R284); above the list stand the poison marks of its
words. DESIGN CHOICE: a poisoned record ends it with 0x15, and it writes and credits nothing (log 72). -/
def execGather (s : State) : Out :=
  chanStep s 27 (fun s t c x =>
    if x.started then s
    else
      let s := s.reads (scratchKey t (x.cmd.a % 4194304)) 64
      let rec0 := readN s (scratchKey t (x.cmd.a % 4194304)) 64
      let g := gathRec rec0
      if (poisonAt s (scratchKey t (x.cmd.a % 4194304)) 64).isSome then
        setCmd s t c { x with record := 0, started := true, ended := true, ecode := 0x15 }
      else
        let code := gathBad x.cmd g
        let n := if code = 0 ∧ g.idx then g.n.getD 0 0 else 0
        let k := scratchKey t g.ixa
        let s := if n = 0 then s else s.reads k (4 * n)
        let bad := if s.poison = [] then 0 else packFields 1 (fun i => b2n (poisonAt s (k + 4 * i) 4).isSome) n
        setCmd s t c { x with started := true, record := rec0 + 2 ^ 512 * (readN s k (4 * n) + 2 ^ (32 * n) * bad), ended := code != 0, ecode := code })

/-- The source address of element e (R285). -/
def gathSrc (record : Nat) (g : GathRec) (e : Nat) : Nat :=
  let n (k : Nat) := Nat.max 1 (g.n.getD k 1)
  let st (k : Nat) := g.st.getD k 0
  let i0 := e % n 0
  let i1 := e / n 0 % n 1
  let i2 := e / (n 0 * n 1) % n 2
  let i3 := e / (n 0 * n 1 * n 2)
  let j0 := if g.idx then bits record (512 + 32 * i0) 32 else i0
  moved g.src (st 0 * j0 + st 1 * i1 + st 2 * i2 + st 3 * i3)

/-- The index of element e was read poisoned (R284, R328). -/
def gathPoison (record : Nat) (g : GathRec) (e : Nat) : Bool :=
  let n := Nat.max 1 (g.n.getD 0 1)
  g.idx && bit record (512 + 32 * n + e % n)

/-- One element of a gather (R285, R282), with the bytes that poisoned sectors or a poisoned index feed written poisoned (R328; log 72).
DESIGN CHOICE: an address in a tile-local region gives 0x21, since it has no home class 0 or 1, and
an element that is misaligned too gives 0x20 first (R282, R285; log 70). -/
def gathElem (s : State) (t : Nat) (x : ChCmd) (g : GathRec) (e : Nat) : RunEnd × State :=
  let a := gathSrc x.record g e
  let dk := scratchKey t (g.dst + e * g.esz)
  if gathPoison x.record g e then (.done (e + 1) 0x15, writeEnb s dk g.esz (readN s dk g.esz) (2 ^ g.esz - 1) true)
  else if a % g.esz ≠ 0 then (.fail e 0x20, s)
  else if (sortLocal t a).isSome then (.fail e 0x21, s)
  else
    match x.cmd.rg.find? (rgMatch a) with
    | some r =>
      if isGlobal a ∧ 2 ≤ fld r 8 3 then (.fail e 0x21, s)
      else
        match engAccess s t x.cmd 2 a g.esz false with
        | (.fail c, s) => (.fail e c, s)
        | (.page m q, s) => (.page e 0 m q, s)
        | (.wait, s) => (.wait e 0, s)
        | (.at k, s) =>
          let s := s.passes k g.esz
          let pm := poisMask s k g.esz
          let v := readN s k g.esz
          let s := writeEnb s dk g.esz v ((2 ^ g.esz - 1) ^^^ pm) false
          (.done (e + 1) (if pm = 0 then 0 else 0x15), if pm = 0 then s else writeEnb s dk g.esz v pm true)
    | none => (.fail e 0x11, s)

/-- Elements read until the line is packed, the gather ends, or one fails (R285, R330). -/
def gathRun (t : Nat) (x : ChCmd) (g : GathRec) : Nat → State → Nat → Nat → RunEnd × State
  | 0, s, e, code => (.done e code, s)
  | n + 1, s, e, code =>
    if g.count ≤ e then (.done e code, s)
    else
      match gathElem s t x g e with
      | (.done p c, s') => gathRun t x g n s' p (if code = 0 then c else code)
      | (.page p _ m q, s') => (.page p code m q, s')
      | (.wait p _, s') => (.wait p code, s')
      | y => y

/-- STRIDE_GATHER_READ: the stride-gather units return the elements of one packed line (R285, R330). -/
def execStrideGatherRead (s : State) : Out :=
  chanStep s 27 (fun s t c x =>
    if !x.started then s
    else
      let g := gathRec (x.record % 2 ^ 512)
      let w (e : Nat) := e * g.esz
      match gathRun t x g (Nat.max 1 (64 / g.esz)) s x.pos x.ecode with
      | (.done p code, s) => setCmd s t c { x.ran p (w x.pos) (w p) code with ended := decide (g.count ≤ p) }
      | (.fail p code, s) => setCmd s t c { x.ran p (w x.pos) (w p) code with ended := true }
      | (.page p code m q, s) => holdCmd s t c m q (x.ran p (w x.pos) (w p) code)
      | (.wait p code, s) => setCmd s t c (x.ran p (w x.pos) (w p) code))

/-! ## Credits -/

/-- The destination bytes of a command (R281). DESIGN CHOICE: of a gather with a reserved ESZ, 2^ESZ times its counts (R281, R284; log
70). -/
def ChCmd.total (x : ChCmd) : Nat :=
  if x.cmd.op = 27 then (let g := gathRec (x.record % 2 ^ 512); g.esz * g.count)
  else (let r := cpyRec (x.record % 2 ^ 512); r.rows * r.drow)

/-- The destination bytes that a command has written. -/
def ChCmd.done (x : ChCmd) : Nat :=
  if x.cmd.op = 27 then x.pos * (gathRec (x.record % 2 ^ 512)).esz else (cpyRec (x.record % 2 ^ 512)).written x.pos

/-- A command ended by an error before its end: with 0x15 only where its record was poisoned (R282; log 72). -/
def ChCmd.failed (x : ChCmd) : Bool := x.ended && x.ecode != 0 && (x.ecode != 0x15 || x.record == 0)

/-- The bytes that remain to be credited: of a command ended by an error its whole count (R281). -/
def ChCmd.due (x : ChCmd) : Nat :=
  if x.failed then x.total - (x.done - x.owed) else x.owed

/-- The end of a channel's head command: its notes end, a failed CPYW's window closes (R197, R409). -/
def endCmd (s : State) (t c : Nat) (x : ChCmd) : State :=
  s.onTile t (fun y =>
    let ch := y.chan c
    let ch := if x.cmd.op = 25 ∧ x.failed ∧ ownWindow ch x.cmd then { ch with lo := ch.wm, hi := ch.wm, act := false } else ch
    { y.setChan c { ch with cmds := ch.cmds.drop 1 } with
      notes := y.notes.filter (fun n => !(n.who == c && n.stamp == x.cmd.stamp)) })

/-- A credit of n bytes with an error code to the barrier of a command, if it names one (R281). -/
def creditBar (s : State) (t : Nat) (e : Tcq) (n err : Nat) : State :=
  if e.hasBar then
    match sortLocal t e.b with
    | some d => barUpdate s d.place (-(n : Int)) false err
    | none => s
  else s

/-- The barrier of a command has an update of the tile core before it (R306). -/
def creditWaits (s : State) (t : Nat) (e : Tcq) : Bool :=
  match sortLocal t e.b with
  | some d => e.hasBar && updPending (s.tile t) d.place
  | none => false

/-- ENGINE_CREDIT: bytes performed are credited, n of them; a command's last credit, and an error with its whole count, end it
(R187, R281). -/
def execEngineCredit (s : State) : Out :=
  let c := s.arg 1
  if 8 ≤ c then .fault (.noSuchAgent c)
  else
    tileStep s (fun t =>
      match ((s.tile t).chan c).head with
      | none => s
      | some x =>
        let n := Nat.min (s.arg 2) x.due
        if creditWaits s t x.cmd then s
        else if x.ended ∧ (x.ecode ≠ 0 ∨ n = x.due) then endCmd (creditBar s t x.cmd x.due x.ecode) t c x
        else if n = 0 then s
        else setCmd (creditBar s t x.cmd n 0) t c { x with owed := x.owed - n })

/-! ## The operand loader -/

/-- A byte of a fill's source lies in an open window of the tile that holds it, at or above the watermark (R264). -/
def sourceHeld (x : Tile) (spans : List (Nat × Nat)) : Bool :=
  x.chans.toList.any (fun c => decide (c.wm < c.hi) && spans.any (fun p => decide (c.wm < p.1 + p.2) && decide (p.1 < c.hi)))

/-- A filled buffer read from its source (R262, R264). -/
def readBuf (s : State) (holder base off f a b : Nat) : Osb :=
  let d := mxDesc b
  let rd (o n : Nat) : Nat := readN s (scratchKey holder o) n
  let bad := (mxSpans off f d).findSome? (fun p => (poisonAt s (scratchKey holder p.1) p.2).map (fun i => base + p.1 + i))
  { st := 1, fmt := f, recv := false, src := a, desc := b, rows := (List.range 8).map (fun r => rd (off + r * d.rstr) 96),
    scales := (List.range 8).map (fun r => if f = 0 then 0 else rd (d.sadr + r * d.sstr) (scaleBytes f)), poison := bad,
    arr := true, refill := false }

/-- A source address as another tile of the cluster names it: the window of the tile that holds it (R265). -/
def windowAddr (holder off : Nat) : Nat := 0x10000000 + holder % 16 * 0x400000 + off

/-- A fill of a buffer from a source, where no watermark holds it. -/
def fillFrom (s : State) (t f a b : Nat) : Option Osb :=
  match mxSource t a with
  | none => none
  | some (holder, off) =>
    if sourceHeld (s.tile holder) (mxSpans off f (mxDesc b)) then none else some (readBuf s holder (a - off) off f a b)

/-- The source of a fill read with its codes checked (R264, R319). -/
def readSource (s : State) (t f a b : Nat) : State :=
  match mxSource t a with
  | none => s
  | some (holder, off) => (mxSpans off f (mxDesc b)).foldl (fun s p => s.reads (scratchKey holder p.1) p.2) s

/-- The tiles other than the sender that a fill is delivered to (R265). -/
def targets (t mcast : Nat) : List Nat :=
  ((List.range 16).filter (fun k => bit mcast k && k != t % 16)).map (fun k => t / 16 * 16 + k)

/-- Whether the sender's own buffer still waits for this entry: the task holds it, and no later MXLD names the buffer
(R261, R359). -/
def stillArmed (x : Tile) (t : Nat) (e : Tcq) : Bool :=
  let d := bits e.word 14 2
  !x.task.drains.any (fun r => decide (e.stamp < r.stamp)) &&
    !x.tcq.any (fun q => q.op == 16 && decide (e.stamp < q.stamp) && bits q.word 14 2 == d &&
      (bit q.et 0 || ownBit t (mxDesc q.b).mcast)) &&
    (x.buf d).st != 0 && !(x.buf d).recv

/-- What a delivery brings: the buffer as another tile of the cluster names its source (R265). -/
def castBuf (holder off : Nat) (b : Osb) : Osb :=
  { b with src := windowAddr holder off, poison := b.poison.map (fun p => windowAddr holder (p % 0x400000)) }

/-- A delivery put into a target's slot (R265). -/
def deliver (s : State) (t : Nat) (c : Cast) : State :=
  s.onTile c.target (fun y => { y with slots := y.slots.setIfInBounds c.d (some { task := fld y.spr.taskid 0 32, sender := t % 16, buf := c.buf }) })

/-- The slot that a held delivery is for is free. -/
def Cast.free (c : Cast) (s : State) : Bool := ((s.tile c.target).slots.getD c.d none).isNone

/-- The held deliveries of a tile whose slots are free made; the others stay held (R265). -/
def sendCasts (s : State) (t : Nat) : State :=
  let l := (s.tile t).casts
  (l.filter (·.free s)).foldl (fun s c => deliver s t c) (s.onTile t (fun y => { y with casts := l.filter (fun c => !c.free s) }))

/-- The first MXLD entry runs: the receive form has armed its buffer already; the other fills its own buffer and its targets' free slots, and
holds the deliveries for the others (R264, R265). -/
def loadEntry (s : State) (t k : Nat) (e : Tcq) : State :=
  let x := s.tile t
  let s := if bit e.et 0 then s else readSource s t (bits e.word 0 2) e.a e.b
  let pop := s.onTile t (fun y => { y with tcq := ldel y.tcq k, notes := y.notes.filter (fun n => !(n.who == 8 && n.stamp == e.stamp)) })
  if bit e.et 0 then pop
  else
    let f := bits e.word 0 2
    let d := bits e.word 14 2
    let m := mxDesc e.b
    match mxSource t e.a, fillFrom s t f e.a e.b with
    | some (holder, off), some b =>
      let s := if ownBit t m.mcast ∧ stillArmed x t e then pop.onTile t (fun y => { y with osb := y.osb.setIfInBounds d b }) else pop
      sendCasts (s.onTile t (fun y => { y with casts := (targets t m.mcast).map (fun u =>
        { stamp := e.stamp, target := u, d := d, buf := castBuf holder off b }) })) t
    | _, _ => s

/-- MXLD_FILL: the operand loader refills a buffer after a return, or makes the deliveries that it holds, or takes its next entry, one fill
at a time (R23, R264, R265). -/
def execMxldFill (s : State) : Out :=
  tileStep s (fun t =>
    let x := s.tile t
    match lfind (·.refill) x.osb.toList with
    | some d =>
      let o := x.buf d
      let s := readSource s t o.fmt o.src o.desc
      match fillFrom s t o.fmt o.src o.desc with
      | some b => s.onTile t (fun y => { y with osb := y.osb.setIfInBounds d { b with st := 2, arr := false } })
      | none => s
    | none =>
      if x.casts ≠ [] then sendCasts s t
      else if x.osb.toList.any (·.arr) then s
      else
        match lfind (fun e : Tcq => e.op == 16) x.tcq with
        | some k => (match x.tcq[k]? with | some e => loadEntry s t k e | none => s)
        | none => s)

/-- FILL_ARRIVAL: the last byte of a fill makes its buffer FULL (R261). -/
def execFillArrival (s : State) : Out :=
  tileStep s (fun t => s.onTile t (fun x =>
    let o := x.buf (s.arg 1)
    if o.arr then { x with osb := x.osb.setIfInBounds (s.arg 1 % 4) { o with st := 2, arr := false } } else x))

/-- A tile holds a task of this identifier, active or draining. -/
def holdsTask (x : Tile) (id : Nat) : Bool :=
  (x.task.launch.isSome && fld x.spr.taskid 0 32 == id) || x.task.drains.any (fun d => d.task == id)

/-- MULTICAST_DELIVERY: a pending delivery passes to the buffer that an MXLD.r of its task armed for its sender; one of a task
that the tile no longer holds is dropped (R265; log A25). -/
def execMulticastDelivery (s : State) : Out :=
  tileStep s (fun t => s.onTile t (fun x =>
    let b := s.arg 1 % 4
    match x.slots.getD b none with
    | none => x
    | some d =>
      let o := x.buf b
      if !holdsTask x d.task then { x with slots := x.slots.setIfInBounds b none }
      else if o.st == 1 && o.recv && o.src % 16 == d.sender && fld x.spr.taskid 0 32 == d.task && !x.task.away then
        { x with slots := x.slots.setIfInBounds b none, osb := x.osb.setIfInBounds b { d.buf with st := 2, arr := false } }
      else x))

/-! ## Banks -/

/-- The ranges of its tile's scratchpad that a facet command touches (R237). -/
def facetRanges (c : FCmd) : List (Nat × Nat × Bool) :=
  match c.op with
  | 1 => [(c.a, 1024, false)]
  | 2 => [(c.a, 1024, false)]
  | 3 => [(c.a, 2048, false), (c.b, 2048, false)]
  | 4 => [(c.a, 2048, false), (bits c.b 0 22, 2048, false), (bits c.b 22 22, 4096, true)]
  | 8 => [(c.a, 2048, false)]
  | 9 => [(c.a, 2048, true)]
  | 11 => [(c.a, if c.k < 2 then 32 else 4096, c.k % 2 == 1)]
  | _ => []

/-- The ranges of its tile's scratchpad that a queue entry touches. -/
def tcqRanges (s : State) (t : Nat) (e : Tcq) : List (Nat × Nat × Bool) :=
  if e.op = 16 then
    (match mxSource t e.a with
     | some (holder, off) => if holder = t ∧ bit e.et 0 = false then (mxSpans off (bits e.word 0 2) (mxDesc e.b)).map (fun p => (p.1, p.2, false)) else []
     | none => [])
  else if 24 ≤ e.op ∧ e.op ≤ 27 then cmdRanges t e.op (e.a % 4194304) (readN s (scratchKey t (e.a % 4194304)) 64)
  else []

/-- A command pushed before a push number, whose ranges touch a bank, has not completed, one that a trap put into the image included, or an
atomic or barrier update there has not been performed (R202, R402). DESIGN CHOICE: the barrier object that a copy or gather credits, or that
a BEAD.SEND awaits, is no part of its range (log 72). -/
def bankInUse (s : State) (t bank stamp : Nat) : Bool :=
  let x := s.tile t
  let hit (rs : List (Nat × Nat × Bool)) : Bool := rs.any (fun r => decide (r.1 < (bank + 1) * 65536) && decide (bank * 65536 < r.1 + r.2.1))
  (x.tcq ++ awayTcq (s.focus t)).any (fun e => decide (e.stamp < stamp) && hit (tcqRanges s t e)) ||
    x.chans.toList.any (fun c => c.cmds.any (fun y => decide (y.cmd.stamp < stamp) &&
      hit (if y.started then cmdRanges t y.cmd.op (y.cmd.a % 4194304) (y.record % 2 ^ 512) else tcqRanges s t y.cmd))) ||
    x.facets.toList.any (fun f => f.queue.any (fun c => decide (c.stamp < stamp) && hit (facetRanges c))) ||
    x.reqs.any (fun r => (r.kind == .amo || r.kind == .barUpd) && r.open && r.cls == 8 && r.place / 65536 == scratchKey t (bank * 65536) / 65536)

/-- BANK_FREE: released banks that nothing of the releasing task uses any more become free (R202). -/
def execBankFree (s : State) : Out :=
  tileStep s (fun t =>
    let keep (p : Nat × Nat) : Bool := bankInUse s t p.1 p.2
    s.onTile t (fun x => x.onTask (fun k =>
      { k with
        rel := k.rel.filter keep,
        drains := k.drains.map (fun d =>
          { d with rel := d.rel.filter keep,
                   bown := (d.rel.filter (fun p => !keep p)).foldl (fun b p => setBits b p.1 1 0) d.bown }) })))

end Sys2Proof.Machine
end

