-- ==== Sys2Proof/Machine/Facet.lean ====
section
/-! DEFINITION. What the facets do when a command at the head of a queue runs (R238 to R260). A command is one step (log A23). -/

namespace Sys2Proof.Machine

/-! ## Tables and operands -/

/-- The sparse table of the nonzero values of n entries. -/
def tableOf (n : Nat) (f : Nat → Int) : List (Nat × Int) :=
  (List.range n).filterMap (fun k => let v := f k; if v = 0 then none else some (k, v))

/-- A sparse table, keys rising, as its values from key k on. -/
def dense : List (Nat × Int) → Nat → Nat → List Int
  | _, _, 0 => []
  | [], _, n + 1 => 0 :: dense [] 0 n
  | (i, v) :: m, k, n + 1 => if i = k then v :: dense m (k + 1) n else 0 :: dense ((i, v) :: m) (k + 1) n

/-- The sparse table of the nonzero values of a list. -/
def sparse : List Int → Nat → List (Nat × Int)
  | [], _ => []
  | v :: l, k => if v = 0 then sparse l (k + 1) else (k, v) :: sparse l (k + 1)

/-- The bytes of a value as INT8. -/
def int8s (v n : Nat) : List Int := (toBytes n v).map (fun b => sext b 8)

/-- The operands of a command, as addresses and sizes, read with their codes checked (R239, R319). -/
def facetReads (s : State) (t : Nat) (l : List (Nat × Nat)) : State := l.foldl (fun s p => s.reads (scratchKey t p.1) p.2) s

/-- An operand in a tile's scratchpad, or nothing if one of its chunks is poisoned (R241). -/
def facetRead (s : State) (t a n : Nat) : Option Nat :=
  if (poisonAt s (scratchKey t a) n).isSome then none else some (readN s (scratchKey t a) n)

/-- Two pulse vectors, or nothing if bytes of one that are read are poisoned (R237, R241). -/
def facetPair (s : State) (t a b : Nat) : Option (Nat × Nat) :=
  if (pulseChunks a ++ pulseChunks b).any (fun p => (poisonAt s (scratchKey t p.1) p.2).isSome) then none
  else some (readN s (scratchKey t a) 2048, readN s (scratchKey t b) 2048)

/-- The code of line n in a pulse vector (R237). -/
def lineCode (v n : Nat) : Nat := bits v (8 * (n / 64 * 128 + n % 64)) 8

/-- The sign of line n in a pulse vector (R237). -/
def lineSign (v n : Nat) : Bool := bit v (8 * (n / 64 * 128 + 64 + n % 64 / 8) + n % 8)

/-- FCFG fields (R40). -/
def Facet.cfg (x : Facet) (lo w : Nat) : Nat := bits x.fcfg.toNat lo w

/-- FCFG.MODE is reference mode (R40). -/
def Facet.isRef (x : Facet) : Bool := x.cfg 3 1 == 1

/-! ## Cells -/

/-- One on the conductance scale: 2^40 units (log A10). -/
def unity : Int := 1099511627776

/-- A conductance kept between -1 and +1 (R254). -/
def clampG (g : Int) : Int := max (-unity) (min unity g)

/-- The free values of an array of a facet of a tile in an epoch (log A10). -/
def cellSrc (t f arr epoch : Nat) : Nat := epoch * 16384 + t * 16 + f * 2 + arr

/-- SYM(j) in conductance units. -/
def Facet.symG (x : Facet) (j : Nat) : Int := mget 0 x.sym j * 67108864

/-- The symmetry point of cell (i, j) of array A, which its making fixes (R254; log A10). -/
def symPoint (t f i j : Nat) : Int := clampG (Config.freeCell (cellSrc t f 0 0) (2097152 + 1024 * i + j))

/-- A free value within 2^-6 of another (R257, R258; log A10). -/
def nearG (c free : Int) : Int := clampG (c + (free % 34359738369 - 17179869184))

/-- Cell (i, j) as a calibration leaves it, within 2^-6 of its symmetry point (R258). -/
def settledCell (t f epoch i j : Nat) : Int := nearG (symPoint t f i j) (Config.freeCell (cellSrc t f 0 epoch) (1024 * i + j))

/-- The conductance of cell (i, j) of array A: as pulses left it, else free, or near its symmetry point after a calibration, or near the
value that a reset brought its column to, but for ten rows of the column where the reset allows them (R257, R258, R476; log A10). -/
def cellA (t f : Nat) (x : Facet) (i j : Nat) : Int :=
  match x.a.find? (fun p => p.1 == 1024 * i + j) with
  | some p => p.2
  | none =>
    let (ep, near, whole) := mget (x.aEpoch, none, false) x.cols j
    let src := cellSrc t f 0 ep
    let g := Config.freeCell src (1024 * i + j)
    match near with
    | none => if whole then nearG (symPoint t f i j) g else clampG g
    | some c =>
      if !whole && (List.range 10).any (fun k => (Config.freeCell src (1048576 + 1024 * k + j)).natAbs % 1024 == i) then clampG g
      else nearG c g

/-- The conductance of cell (i, j) of array C (log A10). -/
def cellC (t f : Nat) (x : Facet) (i j : Nat) : Int :=
  match x.c.find? (fun p => p.1 == 1024 * i + j) with
  | some p => p.2
  | none => clampG (Config.freeCell (cellSrc t f 1 x.cEpoch) (1024 * i + j))

/-- A cell of array A or C. -/
def cellOf (t f : Nat) (x : Facet) (isC : Bool) (i j : Nat) : Int := if isC then cellC t f x i j else cellA t f x i j

/-! ## Products -/

/-- The converted sum of line o in reference mode: tr for XMVT (R247). -/
def convRef (rw : List (Nat × Int)) (tr : Bool) (x : List Int) (o : Nat) : Int :=
  if 64 ≤ o then 0
  else
    rw.foldl (fun acc p =>
      let (i, j) := (p.1 / 64, p.1 % 64)
      if tr then (if i = o then acc + x.getD j 0 * p.2 else acc) else (if j = o then acc + x.getD i 0 * p.2 else acc)) 0

/-- The converted current of line o in normal mode with read error e: clipped and quantised by the converter of range Δ, a
power of two given by its exponent (R246). -/
def convAdc (v e : Int) (dExp : Nat) : Int :=
  let m := v + e
  let q := rint .rne (.fin (decide (m < 0)) m.natAbs (-40 - (dExp : Int)))
  2 ^ dExp * max (-128) (min 127 q)

/-- The ideal line current: the driven inputs are those that are not zero (R246). -/
def lineSum (t f : Nat) (x : Facet) (isC tr : Bool) (xs : List (Nat × Int)) (o : Nat) : Int :=
  xs.foldl (fun acc p => acc + p.2 * (if tr then cellOf t f x isC o p.1 else cellOf t f x isC p.1 o)) 0

/-- The 40 binary digits of log2 of m / 2^64, for m from 2^64 to 2^65, rounded up. -/
def logBits : Nat → Nat → Nat
  | 0, _ => 1
  | n + 1, m =>
    let q := (m * m + 2 ^ 64 - 1) / 2 ^ 64
    if 2 ^ 65 ≤ q then 2 ^ n + logBits n ((q + 1) / 2) else logBits n q

/-- log2 of a / b in units of 2^-40, rounded up, for a from b on. -/
def logUp (a b : Nat) : Nat :=
  let m := (a * 2 ^ 64 + b - 1) / b
  let e := Nat.log2 m - 64
  e * 2 ^ 40 + logBits 40 ((m + 2 ^ e - 1) / 2 ^ e)

/-- δ of R248 in units of 2^-40, rounded up, after a time in ticks of GTC: 0.002 log10(1 + t), with t in seconds. -/
def driftUp (ticks : Nat) : Nat := logUp (1000000000 + ticks) 1000000000 * 602059991327962391 / 10 ^ 21 + 1

/-- The ticks since a facet's drift time began (R248). -/
def Facet.age (x : Facet) (gtc : Nat) : Nat := (gtc + 2 ^ 64 - x.drift) % 2 ^ 64

/-- E of R248 in units of 2^-40, rounded up: 0.030 ‖x‖₂ + δ ‖x‖₁. -/
def readBound (x : List Int) (ticks : Nat) : Nat :=
  let sq := (x.map (fun v => v.natAbs * v.natAbs)).sum
  3 * (Nat.sqrt (sq * 2 ^ 80) + 1) / 100 + 1 + driftUp ticks * (x.map (·.natAbs)).sum

/-- A free error between -b and b (R248; log A11). -/
def errIn (b : Nat) (e : Int) : Int := (e + b) % (2 * b + 1) - b

/-- The fixed data of a product: its inputs, select, scale, read bound, and the free values' first number. -/
structure Product where
  t : Nat
  f : Nat
  tr : Bool
  x : List Int
  sel : Nat
  xs : FVal
  err : Nat
  free : Nat

/-- conv(X, o): exact in reference mode, with a free read error within E in normal mode (R245 to R248; log A11). -/
def Product.conv (p : Product) (x : Facet) (isC : Bool) (o : Nat) : Int :=
  if x.isRef then convRef (if isC then x.rwc else x.rwa) p.tr p.x o
  else
    convAdc (lineSum p.t p.f x isC p.tr (sparse p.x 0) o) (errIn p.err (Config.freeInt (p.free + 2 * o + b2n isC))) (10 - x.cfg 8 4)

/-- The exact sum of the inputs (R245). -/
def Product.total (p : Product) : Int := p.x.foldl (· + ·) 0

/-- The sum of x(j) SYM(j), rounded once (R245). -/
def Product.symSum (p : Product) (x : Facet) : FVal :=
  let v := (sparse p.x 0).foldl (fun acc q => acc + q.2 * mget 0 x.sym q.1) 0
  rn (.fin (decide (v < 0)) v.natAbs (-14))

/-- A Q1.14 code as a value. -/
def q114 (c : Int) : FVal := .fin (decide (c < 0)) c.natAbs (-14)

/-- tS of R245. -/
def Product.symTerm (p : Product) (x : Facet) (ga : FVal) (o : Nat) : FVal :=
  if p.sel = 1 ∨ x.isRef then .fin false 0 0
  else if p.tr then rn (fmul ga (p.symSum x))
  else rn (fmul ga (rn (fmul (q114 (mget 0 x.sym o)) (ofInt p.total))))

/-- FOB(o) of a product; sel is 0 A, 1 C, 2 combined (R245); +0 beyond the reference block (R247). -/
def Product.line (p : Product) (x : Facet) (o : Nat) : Nat :=
  let ga := fval (x.cfg 96 32)
  let gc := fval (x.cfg 128 32)
  let zero : FVal := .fin false 0 0
  let tA := if p.sel = 1 then zero else rn (fmul ga (ofInt (p.conv x false o)))
  let tC := if p.sel = 0 then zero else rn (fmul gc (ofInt (p.conv x true o)))
  let z := rn (fsub (rn (fadd tA tC)) (p.symTerm x ga o))
  if x.isRef ∧ 64 ≤ o then 0 else roundBf .rne false (rn (fmul (rn (fmul p.xs (fval (x.cfg 64 32)))) z))

/-- The read select of a command: K, or FCFG.RSEL when K is 0 (R245). -/
def readSel (x : Facet) (k : Nat) : Nat := if k = 0 then x.cfg 0 2 else k - 1

/-- The FOB after a product. -/
def Product.fob (p : Product) (x : Facet) : List (Nat × Nat) :=
  (List.range 1024).filterMap (fun o => let v := p.line x o; if v = 0 then none else some (o, v))

/-! ## Updates -/

/-- Whether line n of edge h (0 rows, 1 columns) with code p fires in slot k (R252). -/
def fires (key pctr k h n p : Nat) : Bool :=
  decide (mix64 key ((pctr * 131072 + k * 2048 + h * 1024 + n) % 2 ^ 64) % 256 < p)

/-- The slots in which a line fires, as a bit set (R252). -/
def fireMask (key pctr bl h n p : Nat) : Nat :=
  if p = 0 then 0 else packFields 1 (fun k => b2n (fires key pctr k h n p)) bl

/-- The pulse-lane key of a facet (R252). -/
def Facet.key (x : Facet) (f : Nat) : Nat := x.cfg 192 64 ^^^ (f * 2 ^ 61)

/-- The lines of an edge that fire at all: number, slots, sign. -/
abbrev Lines := List (Nat × Nat × Bool)

/-- The firing lines of a pulse vector below a limit (R252, R253). -/
def linesOf (x : Facet) (f bl h v lim : Nat) : Lines :=
  (List.range lim).filterMap (fun n =>
    let m := fireMask (x.key f) x.pctr.toNat bl h n (lineCode v n)
    if m = 0 then none else some (n, m, lineSign v n))

/-- The signed counts e n of the coincident cells of row and column lines (R253). -/
def counts (pol : Bool) (rows cols : Lines) : List (Nat × Nat × Int) :=
  (rows.map (fun r => cols.filterMap (fun c =>
    let n := popc 64 (r.2.1 &&& c.2.1)
    if n = 0 then none else some (r.1, c.1, if (r.2.2 != c.2.2) != pol then -(n : Int) else (n : Int))))).flatten

/-- The size of n pulses together: a free amount, never against their direction (R254; log A10). -/
def pulseSize (free n : Nat) : Int := ((List.range n).map (fun i => ((Config.freeInt (free + i)).natAbs : Int))).sum

/-- Analogue cells after their pulses (R254), with the next free number. -/
def pulseCells (t f : Nat) (x : Facet) (isC : Bool) (cs : List (Nat × Nat × Int)) (free : Nat) : List (Nat × Int) × Nat :=
  cs.foldl (fun st c =>
    let y := if isC then { x with c := st.1 } else { x with a := st.1 }
    let g := cellOf t f y isC c.1 c.2.1
    let d := pulseSize st.2 c.2.2.natAbs
    (mset st.1 (1024 * c.1 + c.2.1) (clampG (if c.2.2 < 0 then g - d else g + d)), st.2 + c.2.2.natAbs))
    (if isC then x.c else x.a, free)

/-- A reference block after its counts, saturated (R253). -/
def refUpdate (rw : List (Nat × Int)) (cs : List (Nat × Nat × Int)) : List (Nat × Int) :=
  let d := dense (cs.map (fun c => (64 * c.1 + c.2.1, c.2.2))) 0 4096
  sparse ((List.zip (dense rw 0 4096) d).map (fun p => satInt true 8 (p.1 + p.2))) 0

/-- The facet and the next free number after the pulses of an update of array A or C (R253). -/
def applyPulses (t f : Nat) (x : Facet) (isC : Bool) (cs : List (Nat × Nat × Int)) (free : Nat) : Facet × Nat :=
  if x.isRef then
    let cs := cs.filter (fun c => decide (c.1 < 64) && decide (c.2.1 < 64))
    (if isC then { x with rwc := refUpdate x.rwc cs } else { x with rwa := refUpdate x.rwa cs }, free)
  else
    let (l, n) := pulseCells t f x isC cs free
    (if isC then { x with c := l } else { x with a := l }, n)

/-- PCTR advanced by one (R253). -/
def Facet.count (x : Facet) : Facet := { x with pctr := x.pctr + 1 }

/-! ## The end of a command -/

/-- The facet after the command at its head has completed (R41, R238). -/
def Facet.pop (x : Facet) : Facet :=
  { x with queue := x.queue.drop 1, busy := decide (1 < x.queue.length), mode := x.isRef }

/-- The tile after a facet's head command has completed: its notes end with it (R409). -/
def facetDone (s : State) (t f : Nat) (c : FCmd) (x : Facet) : State :=
  s.onTile t (fun y => { y.setFacet f x.pop with notes := y.notes.filter (fun n => !(n.who == 16 + f && n.stamp == c.stamp)) })

/-- The failure of a facet's head command: the queue is discarded and pending returns with it (R241, R242). -/
def facetFail (s : State) (t f code : Nat) (x : Facet) : State :=
  s.onTile t (fun y =>
    { y.setFacet f { x with err := true, ecode := if x.err then x.ecode else code, queue := [], busy := false } with
      notes := y.notes.filter (fun n => n.who != 16 + f),
      reqs := y.reqs.map (fun r =>
        if r.kind = .xget ∧ r.sco = f ∧ r.st = .waiting then { r with st := .discarded } else r) })

/-- The head command of a facet when it has one of the opcode, runs, and is not held (R238, R243). -/
def facetHead (x : Facet) (op : Nat) : Option FCmd :=
  match x.queue with
  | c :: _ => if c.op = op ∧ x.held = false then some c else none
  | [] => none

/-- A facet step on the tile and facet of its operands; nothing happens where the command is not at the head. -/
def facetStep (op : Nat) (body : State → Nat → Nat → FCmd → Facet → State) (s : State) : Out :=
  let t := s.arg 0
  let f := s.arg 1
  if 1024 ≤ t then .fault (.noSuchAgent t)
  else if 8 ≤ f then .fault (.noSuchAgent f)
  else
    let x := (s.tile t).facet f
    match facetHead x op with
    | some c => .next (body s t f c x)
    | none => .next s

/-- The operand that makes a self-check or convergence fail (R241; log A23). -/
def State.failing (s : State) : Bool := s.arg 2 == 1

/-! ## Commands -/

/-- A product (R245). -/
def runProduct (tr : Bool) (s : State) (t f : Nat) (c : FCmd) (x : Facet) : State :=
  let s := facetReads s t [(c.a, 1024)]
  match facetRead s t c.a 1024 with
  | none => facetFail s t f 2 x
  | some v =>
    if s.failing then facetFail s t f 4 x
    else
      let p : Product := { t := t, f := f, tr := tr, x := int8s v 1024, sel := readSel x c.k, xs := fvalBf c.b,
                           err := if x.isRef then 0 else readBound (int8s v 1024) (x.age s.hub.gtc), free := s.free }
      facetDone { s with free := s.free + 2048 } t f c { x with fob := p.fob x }

/-- FACET_EXEC_XMVM (R245). -/
def execFacetExecXmvm (s : State) : Out := facetStep 1 (runProduct false) s

/-- FACET_EXEC_XMVT (R245). -/
def execFacetExecXmvt (s : State) : Out := facetStep 2 (runProduct true) s

/-- The row and column lines of an update (R252, R253). -/
def updateLines (x : Facet) (f bl r q : Nat) : Lines × Lines :=
  let lim := if x.isRef then 64 else 1024
  (linesOf x f bl 0 r lim, linesOf x f bl 1 q lim)

/-- XUPD (R253); a failed self-check leaves some of the pulses applied and advances PCTR (R241). -/
def runXupd (s : State) (t f : Nat) (c : FCmd) (x : Facet) : State :=
  let s := facetReads s t (pulseChunks c.a ++ pulseChunks c.b)
  match facetPair s t c.a c.b with
  | some (r, q) =>
    let (rows, cols) := updateLines x f (c.et % 64) r q
    let cs := counts (x.cfg 4 1 == 1) rows cols
    let cs := if s.failing then cs.take (Config.freeNat s.free % (cs.length + 1)) else cs
    let (y, n) := applyPulses t f x (c.k == 1) cs (s.free + 1)
    let s := { s with free := n }
    if s.failing then facetFail s t f 4 y.count else facetDone s t f c y.count
  | none => facetFail s t f 2 x

/-- FACET_EXEC_XUPD (R253). -/
def execFacetExecXupd (s : State) : Out := facetStep 3 runXupd s

/-- A line of a pulse vector as it fires: its slots and its sign (R252). -/
def Facet.line (x : Facet) (f bl h v n : Nat) : Nat × Bool := (fireMask (x.key f) x.pctr.toNat bl h n (lineCode v n), lineSign v n)

/-- The signed count of a row and a column line as one byte (R255). -/
def Facet.dryCount (x : Facet) (row col : Nat × Bool) : Nat :=
  let n := popc 64 (row.1 &&& col.1)
  wrap 8 (if (row.2 != col.2) != (x.cfg 4 1 == 1) then -(n : Int) else n)

/-- The signed counts of block (rb, cb) for row and column vectors r and q, row by row (R255). -/
def Facet.dryBlock (x : Facet) (f bl rb cb r q : Nat) : List Nat :=
  let cols := (List.range 64).map (fun k => x.line f bl 1 q (64 * cb + k))
  ((List.range 64).map (fun k => cols.map (x.dryCount (x.line f bl 0 r (64 * rb + k))))).flatten

/-- XUPD.D: the signed counts of one block, whatever the mode (R255). -/
def runXupdD (s : State) (t f : Nat) (c : FCmd) (x : Facet) : State :=
  let s := facetReads s t (pulseChunks c.a ++ pulseChunks (bits c.b 0 22))
  match facetPair s t c.a (bits c.b 0 22) with
  | some (r, q) =>
    if s.failing then facetFail s t f 4 x
    else
      facetDone (writeN s (scratchKey t (bits c.b 22 22)) 4096 (ofBytes (x.dryBlock f (c.et % 64) (bits c.b 44 4) (bits c.b 48 4) r q))) t f c x
  | none => facetFail s t f 2 x

/-- FACET_EXEC_XUPD_D (R255). -/
def execFacetExecXupdD (s : State) : Out := facetStep 4 runXupdD s

/-- a_i of XFER: the gained column value of row i, whose one-hot read has an error within a bound (R248, R256). -/
def xferValue (t f : Nat) (x : Facet) (c err free i : Nat) : FVal :=
  let ga := fval (x.cfg 96 32)
  if x.isRef then (if i < 64 ∧ c < 64 then rn (fmul ga (ofInt (mget 0 x.rwa (64 * i + c)))) else .fin false 0 0)
  else
    let u := convAdc (127 * cellA t f x i c) (errIn err (Config.freeInt (free + i))) 0
    rn (fmul ga (rn (fsub (rn (fdiv (ofInt u) (ofInt 127))) (q114 (mget 0 x.sym c)))))

/-- The sign bit of a value. -/
def signOf (v : FVal) : Bool := match v with | .fin s _ _ => s | .inf s => s | .nan c => bit c 31

/-- The code of row i: min(rint(|a| eta 256), 255), 0 for an invalid product (R256). -/
def xferCode (eta a : FVal) : Nat := (toInt .rne false 8 (fmul (fmul (fabs a) eta) (ofInt 256))).toNat

/-- The pulses of XFER: rows draw, column c fires in every slot (R256). -/
def xferCounts (t f : Nat) (x : Facet) (c bl err free : Nat) : List (Nat × Nat × Int) :=
  let eta := fval (x.cfg 160 32)
  let rows : Lines := (List.range (if x.isRef then 64 else 1024)).filterMap (fun i =>
    let a := xferValue t f x c err free i
    let m := fireMask (x.key f) x.pctr.toNat bl 0 i (xferCode eta a)
    if m = 0 then none else some (i, m, signOf a))
  counts (x.cfg 4 1 == 1) rows [(c, 2 ^ bl - 1, false)]

/-- Cells can come within 2^-6 of SYM of column c, which XSYM.LD may set beyond -1 or +1 (R254, R257, R258). -/
def Facet.reachable (x : Facet) (c : Nat) : Bool := decide ((x.symG c).natAbs ≤ 1099511627776 + 17179869184)

/-- XRST of a column, or of all, cannot converge in normal mode (R257). -/
def Facet.cannotReset (x : Facet) (all : Bool) (c : Nat) : Bool :=
  !x.isRef && (if all then (List.range 1024).any (fun j => !x.reachable j) else !x.reachable c)

/-- The column of A, or all of it, after XRST (R257); near is false for a procedure that did not converge. -/
def resetColumn (x : Facet) (all near : Bool) (c epoch : Nat) : Facet :=
  if x.isRef then
    if all then { x with rwa := [] }
    else if 64 ≤ c then x
    else { x with rwa := x.rwa.filter (fun p => p.1 % 64 != c) }
  else
    let put (j : Nat) : Nat × Option Int × Bool := (epoch, if near && x.reachable j then some (x.symG j) else none, false)
    if all then { x with a := [], cols := (List.range 1024).map (fun j => (j, put j)) }
    else { x with a := x.a.filter (fun p => p.1 % 1024 != c), cols := mset x.cols c (put c) }

/-- XFER, with XRST of the column under .r (R256); the failing operand is a failed self-check, or with .r a reset that did not
converge as 2. DESIGN CHOICE: where that reset fails, PCTR has advanced and C keeps its pulses (log 72). -/
def runXfer (s : State) (t f : Nat) (c : FCmd) (x : Facet) : State :=
  let col := c.a % 1024
  let cs := xferCounts t f x col (c.et % 64) (readBound [127] (x.age s.hub.gtc)) s.free
  let cs := if s.failing then cs.take (Config.freeNat (s.free + 1024) % (cs.length + 1)) else cs
  let (y, n) := applyPulses t f x true cs (s.free + 1025)
  let y := y.count
  let stuck : Bool := !x.isRef && c.k == 1 && (s.arg 2 == 2 || x.cannotReset false col)
  let y' := if c.k = 1 ∧ s.failing = false then resetColumn y false (!stuck) col n else y
  let s' := { s with free := n + 1 }
  if s.failing then facetFail s' t f 4 y else if stuck then facetFail s' t f 3 y' else facetDone s' t f c y'

/-- FACET_EXEC_XFER (R256). -/
def execFacetExecXfer (s : State) : Out := facetStep 5 runXfer s

/-- XRST: on success ERR and ECODE return to 0 (R257); operand 2 is a failed self-check, which leaves analogue cells as the
pulses did (R241). -/
def runXrst (s : State) (t f : Nat) (c : FCmd) (x : Facet) : State :=
  let stuck := s.failing && !x.isRef
  let broken := s.arg 2 == 2
  let y := resetColumn x (c.k == 1) (!stuck && !broken) (c.a % 1024) s.free
  let s' := { s with free := s.free + 1 }
  if broken then facetFail s' t f 4 (if x.isRef then x else y)
  else if stuck || x.cannotReset (c.k == 1) (c.a % 1024) then facetFail s' t f 3 y
  else facetDone s' t f c { y with err := false, ecode := 0 }

/-- FACET_EXEC_XRST (R257). -/
def execFacetExecXrst (s : State) : Out := facetStep 6 runXrst s

/-- The mean of column j as a calibration leaves it, rounded to Q1.14 (R258). -/
def columnMean (t f epoch j : Nat) : Int :=
  let v := ((List.range 1024).map (fun i => settledCell t f epoch i j)).sum
  rint .rne (.fin (decide (v < 0)) v.natAbs (-36))

/-- A facet whose array A a calibration has settled and measured (R258). -/
def Facet.settle (x : Facet) (t f epoch gtc : Nat) : Facet :=
  { x with a := [], cols := (List.range 1024).map (fun j => (j, epoch, none, true)), aEpoch := epoch,
           sym := (List.range 1024).map (fun j => (j, columnMean t f epoch j)), drift := gtc }

/-- XSYM.CAL (R258); operand 2 is a failed self-check (R241). DESIGN CHOICE: in reference mode t of R248 goes on (log 72). -/
def runXsymCal (s : State) (t f : Nat) (c : FCmd) (x : Facet) : State :=
  if x.isRef then (if s.arg 2 = 2 then facetFail s t f 4 x else facetDone s t f c { x with sym := [], err := false, ecode := 0 })
  else
    let y := { x with a := [], cols := [], aEpoch := s.free }
    let s' := { s with free := s.free + 1 }
    if s.arg 2 = 2 then facetFail s' t f 4 y else
    if s.failing then facetFail s' t f 3 y
    else facetDone s' t f c { x.settle t f s.free s.hub.gtc with err := false, ecode := 0 }

/-- FACET_EXEC_XSYM_CAL (R258). -/
def execFacetExecXsymCal (s : State) : Out := facetStep 7 runXsymCal s

/-- XSYM.LD (R258). -/
def runXsymLd (s : State) (t f : Nat) (c : FCmd) (x : Facet) : State :=
  let s := facetReads s t [(c.a, 2048)]
  match facetRead s t c.a 2048 with
  | none => facetFail s t f 2 x
  | some v => facetDone s t f c { x with sym := tableOf 1024 (fun j => sext (bits v (16 * j) 16) 16) }

/-- FACET_EXEC_XSYM_LD (R258). -/
def execFacetExecXsymLd (s : State) : Out := facetStep 8 runXsymLd s

/-- The SYM image (R237). -/
def Facet.symImage (x : Facet) : Nat := ofBytes (((dense x.sym 0 1024).map (fun v => toBytes 2 (wrap 16 v))).flatten)

/-- XSYM.ST (R258). -/
def runXsymSt (s : State) (t f : Nat) (c : FCmd) (x : Facet) : State :=
  facetDone (writeN s (scratchKey t c.a) 2048 x.symImage) t f c x

/-- FACET_EXEC_XSYM_ST (R258). -/
def execFacetExecXsymSt (s : State) : Out := facetStep 9 runXsymSt s

/-- A value delivered to the pending register of a queue entry, or kept in the return buffer while the task is away (R242). -/
def facetDeliver (s : State) (t : Nat) (c : FCmd) (v : Nat) : State :=
  s.onTile t (fun y => { y with reqs := y.reqs.map (fun r =>
    if r.kind = .xget ∧ r.seq = c.stamp ∧ r.st = .waiting then { r with st := .done, data := v } else r) })

/-- FOB chunk k as one vector (R249). -/
def Facet.chunk (x : Facet) (k : Nat) : Nat := packFields 16 (fun l => mget 0 x.fob (64 * k + l)) 64

/-- FACET_EXEC_XGET (R249). -/
def execFacetExecXget (s : State) : Out :=
  facetStep 10 (fun s t f c x => facetDone (facetDeliver s t c (x.chunk c.k)) t f c x) s

/-- Whether an FCFG image is refused (R40, R259). -/
def fcfgBad (v : Nat) : Bool :=
  let e := fval (bits v 160 32)
  bits v 12 52 != 0 || bits v 5 3 != 0 || bit v 2 || decide (8 ≤ bits v 8 4) || bits v 0 2 == 3 || e.notFinite || e.isNeg

/-- The 64 x 64 block of a reference array (R237). -/
def blockImage (rw : List (Nat × Int)) : Nat := ofBytes ((dense rw 0 4096).map (wrap 8))

/-- XCFG (R259). -/
def runXcfg (s : State) (t f : Nat) (c : FCmd) (x : Facet) : State :=
  let put (n v : Nat) : State := facetDone (writeN s (scratchKey t c.a) n v) t f c x
  let s := facetReads s t (match c.k with | 0 => [(c.a, 32)] | 2 => [(c.a, 4096)] | 4 => [(c.a, 4096)] | _ => [])
  match c.k with
  | 0 =>
    match facetRead s t c.a 32 with
    | none => facetFail s t f 2 x
    | some v => if fcfgBad v then facetFail s t f 1 x else facetDone s t f c { x with fcfg := BitVec.ofNat 256 v }
  | 1 => put 32 x.fcfg.toNat
  | 2 =>
    match facetRead s t c.a 4096 with
    | none => facetFail s t f 2 x
    | some v => facetDone s t f c { x with rwa := sparse (int8s v 4096) 0 }
  | 3 => put 4096 (blockImage x.rwa)
  | 4 =>
    match facetRead s t c.a 4096 with
    | none => facetFail s t f 2 x
    | some v => facetDone s t f c { x with rwc := sparse (int8s v 4096) 0 }
  | _ => put 4096 (blockImage x.rwc)

/-- FACET_EXEC_XCFG (R259). -/
def execFacetExecXcfg (s : State) : Out := facetStep 11 runXcfg s

/-- XMODE (R260). -/
def runXmode (s : State) (t f : Nat) (c : FCmd) (x : Facet) : State :=
  if 2 ≤ c.k then facetFail s t f 1 x
  else facetDone s t f c { x with fcfg := BitVec.ofNat 256 (setBits x.fcfg.toNat 3 1 c.k) }

/-- FACET_EXEC_XMODE (R260). -/
def execFacetExecXmode (s : State) : Out := facetStep 12 runXmode s

/-- FACET_EXEC_XSTAT_PC (R250). -/
def execFacetExecXstatPc (s : State) : Out :=
  facetStep 13 (fun s t f c x => facetDone (facetDeliver s t c x.pctr.toNat) t f c x) s

/-- The opcode whose step runs the head of a facet's queue (log A4). -/
def facetUnit (op : Nat) : Instr :=
  match op with
  | 1 => .facetExecXmvm
  | 2 => .facetExecXmvt
  | 3 => .facetExecXupd
  | 4 => .facetExecXupdD
  | 5 => .facetExecXfer
  | 6 => .facetExecXrst
  | 7 => .facetExecXsymCal
  | 8 => .facetExecXsymLd
  | 9 => .facetExecXsymSt
  | 10 => .facetExecXget
  | 11 => .facetExecXcfg
  | 12 => .facetExecXmode
  | _ => .facetExecXstatPc

end Sys2Proof.Machine
end

