-- ==== Sys2Proof/Machine/Beads.lean ====
section
/-! DEFINITION. The bead port's releases and the bead scheduler (R289, R290, R374 to R388). -/

namespace Sys2Proof.Machine

/-! ## Checks and places -/

/-- A reserved bead field is nonzero, or STEPEND or NOSTASH is 1 (R374, R375). -/
def beadRsv (b : Nat) : Bool :=
  bits b 64 19 != 0 || bits b 84 4 != 0 || bit b 82 || bits b 159 33 != 0 || bit b 143 || bits b 251 5 != 0 || bits b 296 24 != 0 ||
    bits b 335 49 != 0

/-- Whether a bead passes the sender's check against a stage's chain (R375). -/
def beadOk (b next prev : Nat) (nnone pnone : Bool) : Bool :=
  let k := beadKind b
  let dst := beadDst b
  let ploc := bits b 192 64
  let plen := bits b 256 40
  !beadRsv b && decide (1 ≤ k) && decide (k ≤ 4) &&
    (k != 1 || (dst == next && !nnone)) && (k != 2 || (dst == prev && !pnone)) &&
    (k != 3 || (if beadPnd b then nnone && dst % 64 == 0 else dst == next)) && (!beadPnd b || k == 3) &&
    (!(k == 1 || k == 2) || plen == 0 || (locCls ploc == 1 && locTgt ploc == bits dst 6 4)) && (plen != 0 || ploc == 0)

/-- NEXT and PREV of a stage (R371). -/
def Stage.next (x : Stage) : Nat := fld x.w1 41 15

/-- PREV of a stage (R371). -/
def Stage.prev (x : Stage) : Nat := fld x.w1 25 15

/-- The bead of a stage with SRC written (R375). -/
def stampSrc (b src : Nat) : Nat := setBits b 144 15 src

/-- Where a bead goes: a die's stage, 64 + die for a Pendant, 128 + module for another module (R376). -/
def beadTarget (s : State) (b : Nat) : Nat :=
  let dst := beadDst b
  if dst / 1024 ≠ fld s.hub.prcfg 0 5 then 128 + dst / 1024
  else if beadPnd b then 64 + bits dst 6 4
  else bits dst 6 4

/-- Beads stored at a die: 8,192 at most (R376). -/
def beadsStored (x : Die) : Nat := x.stages.foldl (fun n p => n + p.2.ctl.length + p.2.fwd.length + p.2.bwd.length) 0

/-- Whether a stage's queue has room for a bead (R376). -/
def stageRoom (s : State) (d i b : Nat) : Bool :=
  let x := s.stage d i
  decide (beadsStored (s.die d) < 8192) &&
    (match beadKind b with
     | 4 => decide (x.ctl.length < 64) | 2 => decide (x.bwd.length < 1024) | _ => decide (x.fwd.length < 1024))

/-- The peer port, 0 east or 1 west, by which traffic for position p leaves (R470). -/
def peerPort (s : State) (p : Nat) : Nat :=
  let m := fld s.hub.prcfg 5 5 + 1
  if 2 * ((p + m - fld s.hub.prcfg 0 5 % m) % m) ≤ m then 0 else 1

/-- The port for position p, and the way to it from a die, are in service (R461, R462, R470). -/
def peerOut (s : State) (d p : Nat) : Bool := routeOk s d 4 (peerPort s p) 0

/-- Traffic from a peer module reaches a die: by a port that is UP and the way from it (R462, R470). -/
def peerIn (s : State) (d : Nat) : Bool := routeOk s d 4 0 0 || routeOk s d 4 1 0

/-- A bead goes on its way from a die and a sending tile (R376): one for another module by its peer port, as soon as that is in service
(R470); one for a broken scheduler is dropped there (R420). -/
def sendBead (s : State) (d t b : Nat) : State :=
  let k := beadTarget s b
  if k < 16 ∧ s.claspUp (4 * k + 1) = false then dropBead s d b 5
  else if 128 ≤ k ∧ peerOut s d (k - 128) then s
  else s.onDie d (fun x => { x with transit := x.transit ++ [(k, t, b)] })

/-- The first bead of a die and sending tile t, 4,096 its Pendant, that waits for a peer port which is in service again: its place in the
die's list (R461, R470). -/
def peerReady (s : State) (d t : Nat) : Option Nat :=
  let l := (s.die d).transit
  (List.range l.length).find? (fun k =>
    match l[k]? with | some p => p.2.1 == t && decide (128 ≤ p.1) && peerOut s d (p.1 - 128) | none => false)

/-! ## The bead port -/

/-- BEAD_SEND_RELEASE: a bead of the tile that waited for its peer port leaves; else the first unreleased send, once PH of its barrier
differs from its parity, is checked by the scheduler of the die, which reads its stage's words, and stamped and sent, or rejected and
dropped; while PH is poisoned it waits (R289, R319, R328, R375, R412, R420, R444, R470; log 67). -/
def execBeadSendRelease (s : State) : Out :=
  tileStep s (fun t =>
    let x := s.tile t
    let d := tileDie t
    match peerReady s d t, x.beads.sends with
    | some k, _ => s.onDie d (fun z => { z with transit := ldel z.transit k })
    | none, [] => s
    | none, y :: ys =>
      let bar : Option Dest := if y.hasBar then sortLocal t (y.bar / 16 * 16) else none
      let s := match bar with | some k => s.reads k.place 16 | none => s
      let waits := match bar with
        | some k => barPh s k.place == y.bar % 2 || (poisonAt s (k.place + 8) 8).isSome || updPending x k.place
        | none => false
      if waits || (s.die d).transit.any (fun p => p.2.1 == t) then s
      else
        let i := y.stage % 64
        let s := if s.claspUp (4 * d + 1) then readStage s d i else s
        let st := s.stage d i
        let s := s.setTile t { x with beads := { x.beads with sends := ys, dones := x.beads.dones.map (fun z => { z with waits := z.waits - 1 }) } }
        let b := y.bead % 2 ^ 520
        if s.claspUp (4 * d + 1) && beadOk b st.next st.prev st.nnone st.pnone then
          sendBead s d t (stampSrc b (stageName s d i))
        else
          let s := loseBead s b
          match bar with
          | some k => barUpdate s k.place 0 false 0x30
          | none => faultStage s d i 1)

/-- BEAD_DONE_PASS: a retirement passes once every earlier send has been released (R290). -/
def execBeadDonePass (s : State) : Out :=
  tileStep s (fun t =>
    let x := s.tile t
    match x.beads.dones with
    | [] => s
    | y :: ys =>
      if y.waits ≠ 0 then s
      else
        (s.setTile t { x with beads := { x.beads with dones := ys } }).onDie (tileDie t) (fun z =>
          { z with retire := z.retire ++ [(t, beadStage y.bead, y.bead, y.status)] }))

/-! ## Micro-batches -/

/-- Holds that wait on a stage complete: it is HELD, or off (R383). -/
def endHolds (s : State) (d i : Nat) : State :=
  let x := s.stage d i
  if x.st = .held ∨ x.st = .off then
    x.holdRec.foldl (fun s p => completeRec s p.1 p.2 0 0 false) (s.setStage d i { x with holdRec := [] })
  else s

/-- The micro-batches of step S that have failed at a stage. -/
def Stage.failedNow (x : Stage) : List Nat := ((x.failed.filter (fun p => p.1 == x.step && decide (p.2 < x.stepMb))).map (·.2)).eraseDups

/-- Step S has ended: every micro-batch of it has closed or failed (R384). -/
def Stage.stepDone (x : Stage) : Bool :=
  x.stepMb != 0 && !x.opens.any (fun o => o.step == x.step) &&
    decide (x.stepMb ≤ (x.failedNow ++ x.closed.filter (fun m => !x.failedNow.contains m)).length)

/-- A Locket takes reports of a stage: armed with TRIG 2 and watching it (R449, R450). -/
def Lock.watches (x : Lock) (name : Nat) : Bool := x.armed && bits (x.desc.getD 0 0) 8 2 == 2 && bits (x.desc.getD 4 0) 0 15 == name

/-- The end of step e at a stage reported to the Lockets that watch it (R450). -/
def reportStep (s : State) (name e : Nat) : State :=
  { s with dies := s.dies.map (fun p =>
      if p.2.lock.watches name then (p.1, { p.2 with lock := { p.2.lock with reports := p.2.lock.reports ++ [e] } }) else p) }

/-- The end of a step where it has come: STEP moves on, a first stage reports it, a hold whose step it is begins (R383, R384). The
count bounds how many steps end at once. -/
def stepEnd (d i : Nat) : Nat → State → State
  | 0, s => s
  | n + 1, s =>
    let x := s.stage d i
    if x.stepDone then
      let e := x.step
      let hold := x.st == .run && x.lhs.any (fun p => decide (p.2 ≤ e))
      let s := s.setStage d i
        { x with w2 := setFld x.w2 0 32 (e + 1), closed := [], closedSent := 0, warm := 0,
                 failed := x.failed.filter (fun p => decide (e < p.1)), st := if hold then .holding else x.st }
      let s := if x.pnone then
          reportStep (s.postDev d 4 (stageName s d i + e * 2 ^ 32) 0) (stageName s d i) e
        else s
      stepEnd d i n s
    else s

/-- A micro-batch closed as failed at one stage, its queued beads discarded (R386). -/
def noteFailed (s : State) (d i step mb : Nat) : State :=
  let x := s.stage d i
  let keep (b : Nat) : Bool := beadKind b == 3 || beadStep b != step || beadMb b != mb
  if !x.valid then s
  else
    stepEnd d i (x.failed.length + 1) (s.setStage d i
      { x with opens := x.opens.filter (fun o => !(o.step == step && o.mb == mb)),
               failed := if x.failed.contains (step, mb) then x.failed else x.failed ++ [(step, mb)],
               ctl := x.ctl.filter keep, fwd := x.fwd.filter keep, bwd := x.bwd.filter keep })

/-- A failure notice of a die to the stage of a name; one for another module waits at the die for its peer port (R386, R470). -/
def sendNotice (s : State) (d name step mb : Nat) (up : Bool) : State :=
  let k := if name / 1024 = fld s.hub.prcfg 0 5 then bits name 6 4 else d
  s.onDie k (fun x => { x with notices := x.notices ++ [(d, name, step, mb, up)] })

/-- Notices on along the chains: up NEXT, else PREV. A chain ends at an entry that is not valid (R371, R386). -/
def passNotice (s : State) (d i step mb : Nat) (up : Bool) : State :=
  let x := s.stage d i
  if !x.valid then s
  else if up then (if x.nnone then s else sendNotice s d x.next step mb true)
  else (if x.pnone then s else sendNotice s d x.prev step mb false)

/-- A micro-batch fails at a stage: its event, its end here, and notices along both chains (R386). -/
def failMb (s : State) (d i step mb status : Nat) : State :=
  let s := s.postDev d 6 (stageName s d i + step * 2 ^ 32) (mb + status % 256 * 65536)
  let s := noteFailed s d i step mb
  passNotice (passNotice s d i step mb true) d i step mb false

/-- A failed or dropped Pendant bead is told by die d to the Pendant that its BID names; a notice for another module waits at the die for
its peer port (R386, R437, R444, R470). -/
def tellPendant (s : State) (d b status : Nat) : State :=
  let bid := beadBid b
  let k := if bits bid 27 5 = fld s.hub.prcfg 0 5 then bits bid 23 4 else d
  s.onDie k (fun x => { x with pend := { x.pend with notices := x.pend.notices ++ [(d, bid, status)] } })

/-- Whether a message of die src, 16 another module, for module m can go on to die d, or from it by the peer port (R461, R470, R475). -/
def noticeGoes (s : State) (src d m : Nat) : Bool :=
  if m ≠ fld s.hub.prcfg 0 5 then peerOut s d m
  else bit (s.hub.rdy.getD d 0) 0 && (if 16 ≤ src then peerIn s d else ringOk s src d)

/-- The place of the first notice of a die that can go on (R461). -/
def nextNotice (s : State) (d : Nat) : Option Nat :=
  lfind (fun p : Nat × Nat × Nat × Nat × Bool => noticeGoes s p.1 d (p.2.1 / 1024)) (s.die d).notices

/-- A notice at the scheduler of a die, which reads the stage's words: the micro-batch closes as failed at the stage, and the notice goes on
along its chain (R386, R412). -/
def takeNotice (s : State) (d i step mb : Nat) (up : Bool) : State :=
  if s.claspUp (4 * d + 1) then passNotice (noteFailed (readStage s d i) d i step mb) d i step mb up else s

/-- FAILURE_NOTICE: the first notice of a die that a route leads on is taken, or leaves for another module; with operands stage, STEP, MB
and direction a peer module's joins the others (R386, R461, R470). -/
def execFailureNotice (s : State) : Out :=
  dieStep s (fun d =>
    match s.args with
    | _ :: i :: step :: mb :: up =>
      s.onDie d (fun x => { x with notices := x.notices ++ [(16, stageName s d (i % 64), step % 2 ^ 32, mb % 65536, up.headD 0 == 1)] })
    | _ =>
      match nextNotice s d with
      | none => s
      | some k =>
        let (_, name, step, mb, up) := lget (0, 0, 0, 0, false) (s.die d).notices k
        let s := s.onDie d (fun x => { x with notices := ldel x.notices k })
        if name / 1024 ≠ fld s.hub.prcfg 0 5 then s else takeNotice s d (name % 64) step mb up)

/-- One retirement at the scheduler; with one that is broken or has been restored it has no further effect (R290, R380, R386, R420, R444). -/
def retireBead (s : State) (d i b status : Nat) : State :=
  let x := s.stage d i
  let (step, mb) := (beadStep b, beadMb b)
  if !s.claspUp (4 * d + 1) || beadEpoch b != epochOf s d then (if status = 0 then s else loseBead s b)
  else if beadKind b = 3 then (if status = 0 then s else tellPendant s d b status)
  else if beadKind b = 4 then
    (if status = 0 then s else s.postDev d 6 (stageName s d i + step * 2 ^ 32) (mb + status % 256 * 65536))
  else if !x.isOpen b then s
  else if status ≠ 0 then failMb s d i step mb status
  else if x.isClosing b then
    stepEnd d i (x.failed.length + 1) (s.setStage d i
      { x with opens := x.opens.filter (fun o => !(o.step == step && o.mb == mb)),
               closed := if step = x.step ∧ x.stepMb ≠ 0 ∧ x.closed.contains mb = false then x.closed ++ [mb] else x.closed })
  else s

/-- The place of the retirement that comes first: the oldest of the lowest tile (R382). -/
def nextRetire (x : Die) : Option Nat :=
  ((List.range x.retire.length).zip x.retire).foldl (fun (b : Option Nat) p =>
    match b with
    | none => some p.1
    | some k => if p.2.1 < (lget p.2 x.retire k).1 then some p.1 else b) none

/-- BEAD_RETIREMENT: the scheduler takes the retirement that comes first; a broken one reads no stage (R380, R382, R384, R386, R412,
R420). -/
def execBeadRetirement (s : State) : Out :=
  dieStep s (fun d =>
    match nextRetire (s.die d) with
    | none => s
    | some k =>
      let (_, i, b, status) := lget (0, 0, 0, 0) (s.die d).retire k
      let s := s.onDie d (fun x => { x with retire := ldel x.retire k })
      retireBead (if s.claspUp (4 * d + 1) then readStage s d i else s) d i b status)

/-! ## Arrival -/

/-- A bead joins the queue of stage i of a die, or is dropped there (R376, R385, R386); a stage without a live tile is then faulted (R387;
log 28). -/
def enterStage (s : State) (d i b : Nat) : State :=
  let s := readStage s d i
  let x := s.stage d i
  if !x.valid then dropEvent s d i b 1
  else if x.hasFailed b then s
  else if beadKind b = 2 ∧ x.isOpen b = false then failMb (dropEvent s d i b 4) d i (beadStep b) (beadMb b) 0xFC
  else checkDead (s.setStage d i (x.pushTail b)) d i

/-- Whether a bead, once at a die, is taken at once: its queue has room, or it is dropped there (R376, R420). -/
def takesBead (s : State) (d b : Nat) : Bool :=
  beadPnd b || stageRoom s d (beadDst b % 64) b || !(s.stage d (beadDst b % 64)).valid || !s.claspUp (4 * d + 1)

/-- The beads that may reach a ready die, as (source die, place, sending tile, bead): by a route, into a queue with room, none of the same
tile for the same die before it (R376, R461, R475). -/
def arrivals (s : State) (d : Nat) : List (Nat × Nat × Nat × Nat) :=
  (List.range 16).flatMap (fun src =>
    let l := (s.die src).transit
    if l = [] ∨ ringOk s src d = false ∨ bit (s.hub.rdy.getD d 0) 0 = false then []
    else
      (List.range l.length).filterMap (fun k =>
        match l[k]? with
        | some (dest, t, b) =>
          if (dest = d ∨ dest = 64 + d) ∧ (l.take k).any (fun p => p.1 == dest && p.2.1 == t) = false ∧ takesBead s d b then some (src, k, t, b)
          else none
        | none => none))

/-- The bead that reaches a die next, that of the lowest sending tile, as (source die, place, bead) (R382). -/
def nextArrival (s : State) (d : Nat) : Option (Nat × Nat × Nat) :=
  let l := arrivals s d
  (l.find? (fun p => l.all (fun q => decide (p.2.2.1 ≤ q.2.2.1)))).map (fun p => (p.1, p.2.1, p.2.2.2))

/-- A bead at a die: the Pendant's, its stage's, or dropped, with an event of die src, where the scheduler is broken (R376, R420). -/
def landBead (s : State) (d src b : Nat) : State :=
  if beadPnd b then s.onDie d (fun x => { x with pend := { x.pend with inbox := x.pend.inbox ++ [b % 2 ^ 520 + 2 ^ 520 * s.hub.gtc] } })
  else if s.claspUp (4 * d + 1) then enterStage s d (beadDst b % 64) b
  else dropBead s src b 5

/-- Retirements come before arrivals (R382). -/
def retireDue (s : State) (d : Nat) : Bool := !(s.die d).retire.isEmpty

/-- Retirements and arrivals come before STAGE records, Locket requests and deliveries (R382). -/
def beadsDue (s : State) (d : Nat) : Bool := retireDue s d || (nextArrival s d).isSome

/-- BEAD_ARRIVAL: a bead from a peer port (operand 1), or the first that is on its way to the die, joins its stage's queue or the
Pendant's; a broken scheduler's is dropped (R376, R382, R420, R470, R475). -/
def execBeadArrival (s : State) : Out :=
  dieStep s (fun d =>
    if retireDue s d then s
    else
      match s.args with
      | _ :: b :: _ => if peerIn s d && bit (s.hub.rdy.getD d 0) 0 && takesBead s d b then landBead s d d (b % 2 ^ 520) else s
      | _ =>
        match nextArrival s d with
        | some (src, k, b) => landBead (s.onDie src (fun x => { x with transit := ldel x.transit k })) d src b
        | none => s)

/-! ## Delivery -/

/-- A head bead that the step rules drop (R384). -/
def Stage.stepDrop (x : Stage) (b : Nat) : Bool :=
  x.stepMb != 0 && (decide (x.stepMb ≤ beadMb b) || ((beadKind b == 1 || beadKind b == 3) && decide (beadStep b < x.step)) ||
    (beadKind b == 2 && beadStep b != x.step))

/-- A stage with the head of a bead's queue removed. -/
def Stage.popHead (x : Stage) (b : Nat) : Stage :=
  match beadKind b with
  | 4 => { x with ctl := x.ctl.drop 1 }
  | 2 => { x with bwd := x.bwd.drop 1 }
  | _ => { x with fwd := x.fwd.drop 1 }

/-- The tile that a stage delivers to next: the serving tile after the last one, with wrap-around (R378). -/
def nextTile (s : State) (d i : Nat) : Option Nat :=
  ((List.range 64).map (fun k => ((s.stage d i).lastTile + 1 + k) % 64)).find? (fun t => servesStage s (64 * d + t) i)

/-- Whether a forward head is eligible (R379, R384). -/
def Stage.fwdOk (x : Stage) : Bool :=
  match x.fwd with
  | b :: _ => (x.stepMb == 0 || decide (beadStep b ≤ x.step)) && (beadKind b == 3 || decide (x.opens.length < fld x.w1 8 8))
  | [] => false

/-- The head that the policy chooses (R379). -/
def Stage.choose (x : Stage) : Option Nat :=
  match x.ctl with
  | b :: _ => some b
  | [] =>
    let f := if x.fwdOk then x.fwd.head? else none
    let w := x.bwd.head?
    let bwdFirst := match fld x.w1 22 2 with
      | 0 => decide (fld x.w1 16 6 ≤ x.warm) && x.lastBwd == some false
      | 1 => false
      | _ => true
    if bwdFirst then (match w with | some b => some b | none => f) else (match f with | some b => some b | none => w)

/-- A bead given to a tile's mailbox with the marks of its delivery (R378, R380, R384, R385). -/
def giveBead (s : State) (d i t b : Nat) : State :=
  let x := (s.stage d i).popHead b
  let ev := x.opens.any (fun o => o.step == beadStep b && o.mb == beadMb b && o.evicted)
  let closing := x.isClosing b && x.stepMb != 0
  let sent := if closing then x.closedSent + 1 else x.closedSent
  let last := closing && sent + x.failedNow.length == x.stepMb
  let b' := setBits (setBits b 80 1 (b2n (beadKind b == 2 && ev))) 81 1 (b2n last)
  let x := { x with
    closedSent := sent, lastTile := t,
    lastBwd := if beadKind b = 4 then x.lastBwd else some (beadKind b == 2),
    warm := if beadKind b = 1 then x.warm + 1 else x.warm,
    opens := if beadKind b = 1 then x.opens ++ [{ step := beadStep b, mb := beadMb b, evicted := false }] else x.opens }
  (s.setStage d i x).onTile (64 * d + t) (fun y =>
    { y with beads := { y.beads with mailbox := y.beads.mailbox ++ [b' + 2 ^ 520 * (i + 64 * epochOf s d)] } })

/-- A queue head that cannot be delivered, with what drops it: a failed micro-batch or a step rule (R384, R386). -/
def Stage.badHead (x : Stage) : Option Nat :=
  (x.ctl.head?.toList ++ x.fwd.head?.toList ++ x.bwd.head?.toList).find? (fun b => x.hasFailed b || x.stepDrop b)

/-- A chosen bead that is not delivered but dropped: an open forward entry, an evicted or absent backward one (R380, R385). -/
def chosenDrop (s : State) (d i b : Nat) : Option State :=
  let x := s.stage d i
  let popped := s.setStage d i (x.popHead b)
  let ev := x.opens.any (fun o => o.step == beadStep b && o.mb == beadMb b && o.evicted)
  if beadKind b = 1 ∧ x.isOpen b then some (dropEvent popped d i b 2)
  else if beadKind b = 2 ∧ x.isOpen b = false then some (failMb (dropEvent popped d i b 4) d i (beadStep b) (beadMb b) 0xFC)
  else if beadKind b = 2 ∧ ev ∧ bit x.w1.toNat 59 then some (failMb (dropEvent popped d i b 4) d i (beadStep b) (beadMb b) 0xFE)
  else none

/-- A stage in RUN has a bead to deliver, or a head to drop, and a serving tile (R378, R381). -/
def deliverable (s : State) (d i : Nat) : Bool :=
  let x := s.stage d i
  x.st == .run && (x.badHead.isSome || x.choose.isSome) && (nextTile s d i).isSome

/-- The stage that is served next, in round robin after the last one (R381). -/
def nextStage (s : State) (d : Nat) : Option Nat :=
  ((List.range 64).map (fun k => ((s.die d).lastStage + 1 + k) % 64)).find? (deliverable s d)

/-- A queue head that cannot be delivered is dropped; a Pendant bead's drop is told (R384, R386, R437). -/
def dropHeadBead (s : State) (d i b : Nat) : State :=
  let x := s.stage d i
  let s := s.setStage d i (x.popHead b)
  if x.hasFailed b then s
  else
    let s := dropEvent s d i b 3
    if beadKind b = 3 then tellPendant s d b 0xF7 else s

/-- One delivery of a stage to its serving tile: a head that its rules drop is dropped, or the bead that its policy chooses is given. DESIGN
CHOICE: the step rules drop a bead then, at the head of its queue, and at no other time (R378 to R380, R384, R385; log 73). -/
def serveStage (s : State) (d i t : Nat) : State :=
  let x := s.stage d i
  match x.badHead, x.choose with
  | some b, _ => dropHeadBead s d i b
  | none, none => s
  | none, some b => match chosenDrop s d i b with | some s' => s' | none => giveBead s d i t b

/-- BEAD_DELIVERY: the stage whose turn it is, once every other input has been taken (R378 to R385). -/
def execBeadDelivery (s : State) : Out :=
  dieStep s (fun d =>
    if !s.claspUp (4 * d + 1) || beadsDue s d then s
    else
      match nextStage s d with
      | none => s
      | some i =>
        let s := readStage s d i
        if !deliverable s d i then s
        else
          match nextTile s d i with
          | none => s
          | some t => serveStage (s.onDie d (fun x => { x with lastStage := i })) d i t)

/-! ## Holds -/

/-- A bead of the stage is current at a tile or waits in a mailbox (R383). -/
def stageBusy (s : State) (d i : Nat) : Bool :=
  (List.range 64).any (fun k =>
    let x := s.tile (64 * d + k)
    (x.beads.cur.toList ++ x.beads.mailbox).any (fun b => beadStage b == i && beadEpoch b == epochOf s d))

/-- STAGE_HELD: a HOLDING stage with no bead current or in a mailbox is HELD, and its HOLD records complete (R383). -/
def execStageHeld (s : State) : Out :=
  dieStep s (fun d =>
    let i := s.arg 1 % 64
    let x := s.stage d i
    if x.st = .holding ∧ stageBusy s d i = false ∧ s.claspUp (4 * d + 1) then endHolds (s.setStage d i { x with st := .held }) d i else s)

end Sys2Proof.Machine
end

