-- ==== Sys2Proof/Machine/Records.lean ====
section
/-! DEFINITION. Work queues and launch records of the die command processors, and the records that act on tiles, stages, beads and
memory (R353 to R373, R377, R390). -/

namespace Sys2Proof.Machine

/-! ## Queue registers -/

/-- Records that wait in a queue: QWC minus QRC (R364). -/
def Queue.dist (x : Queue) : Nat := (x.wc + 2 ^ 64 - x.rc) % 2 ^ 64

/-- An active queue whose distance exceeds its depth overruns. DESIGN CHOICE: any other queue keeps its STATE (R366; log 73). -/
def overrun (s : State) (q : Nat) : State :=
  let x := s.queue q
  if x.state = 1 ∧ depthOf x.cfg < x.dist then (s.setQueue q { x with state := 2 }).postQueue q 3 0 x.rc x.wc else s

/-- The head record given up by a reset: of a TASK record half placed, the tiles not yet reached are no longer awaited (R367; log 38). -/
def dropHead (s : State) (q : Nat) : State :=
  let x := s.queue q
  match x.head with
  | none => s
  | some w =>
    let rest := popc 64 (recWord w 3) - x.placed
    let s := s.setQueue q { x with
      head := none, placed := 0, image := none, held := false, nid := if x.image.isSome then x.nid + 1 else x.nid,
      running := if x.image.isSome then
          (if x.placed = 0 then x.running.filter (fun r => r.id != x.nid)
           else x.running.map (fun r => if r.id = x.nid then { r with left := r.left - rest } else r)) else x.running }
    match (s.queue q).running.find? (fun r => r.id == x.nid && r.left == 0) with
    | some r => if x.image.isSome then completeRec s q r.id 0 r.killed r.late else s
    | none => s

/-- QRST_WRITE: both counts become N, ECODE 0, the state active or off; a faulted queue takes it only once its machine is restored
(R367). -/
def execQrstWrite (s : State) : Out :=
  queueStep s (fun q =>
    let n := s.arg 1 % 2 ^ 64
    if !s.hub.rot || ((s.queue q).state == 4 && !s.claspUp (4 * (q / 1024))) then s
    else
      let s := dropHead s q
      let x := s.queue q
      s.setQueue q { x with rst := BitVec.ofNat 64 n, rc := n, wc := n, ecode := 0, state := fld x.cfg 4 1 })

/-- QCFG_WRITE: LDEP and PRV stay under R363; EN needs accepted features (R363, R472). -/
def execQcfgWrite (s : State) : Out :=
  queueStep s (fun q =>
    let x := s.queue q
    let v := s.arg 1
    let old := x.cfg.toNat
    let stays := decide (13 ≤ bits v 0 4) || (bit old 4 && (bits v 0 4 != bits old 0 4 || bits v 5 1 != bits old 5 1))
    let en := if bit s.hub.featacc 0 then bits v 4 1 else bits old 4 1
    let c := bits v 6 6 * 64 + (if stays then bits old 5 1 else bits v 5 1) * 32 + en * 16 + (if stays then bits old 0 4 else bits v 0 4)
    if !s.hub.rot then s else s.setQueue q { x with cfg := BitVec.ofNat 64 c, state := if x.state ≤ 1 then en else x.state })

/-! ## Checks of a record -/

/-- A record's kind. -/
def recKind (w : Nat) : Nat := bits w 0 8

/-- A record's OP. -/
def recOp (w : Nat) : Nat := bits w 28 4

/-- A record's SIDX. -/
def recSidx (w : Nat) : Nat := bits w 22 6

/-- The number of operations of a kind (R354). -/
def kindOps (k : Nat) : Nat :=
  match k with | 1 => 1 | 2 => 6 | 3 => 1 | 4 => 5 | 5 => 4 | 6 => 2 | 7 => 4 | 8 => 2 | 9 => 3 | _ => 0

/-- The feature that a kind needs, 0 for base (R472). -/
def kindFeature (k : Nat) : Nat := match k with | 2 => 6 | 3 => 6 | 4 => 7 | 5 => 1 | _ => 0

/-- Words i to 7 of a record are not all zero. -/
def wordsFrom (w i : Nat) : Bool := bits w (64 * i) (512 - 64 * i) != 0

/-- A located DIA in word i with a code for what is wrong (R355, R356). -/
def recLoc (w i align maxCls : Nat) : Nat := locBad (recWord w i) align maxCls

/-- The first code of a list that is not 0. -/
def firstCode (l : List Nat) : Nat := (l.find? (fun c => c != 0)).getD 0

/-- What is wrong with the words of a TASK record on a die (R357). -/
def taskBad (s : State) (d w : Nat) : Nat :=
  let entry := recWord w 1
  let tiles := recWord w 3
  let banks := bits (recWord w 4) 0 48
  let saved (t : Nat) : Bool :=
    let m := (s.tile (64 * d + t)).spr.mcsb
    bit tiles t && fld m 6 1 == 1 && bit banks (fld m 0 6)
  if bits (recWord w 4) 56 8 ≠ 0 then 2
  else if recLoc w 2 64 2 ≠ 0 then recLoc w 2 64 2
  else if entry % 16 ≠ 0 ∨ entry < Config.globalBase ∨ 2 ^ 56 - 16 < entry ∨ tiles = 0 ∨ (bit w 11 = false ∧ recWord w 7 ≠ 0) ∨
      (List.range 64).any saved then 3
  else 0

/-- What is wrong with the words of a STAGE record (R372). -/
def stageBad (w : Nat) : Nat :=
  match recOp w with
  | 0 => if bits (recWord w 2) 56 3 ≠ 0 ∨ bits (recWord w 2) 60 3 ≠ 0 ∨ bits (recWord w 2) 0 8 ≠ 0 ∨ bits (recWord w 3) 32 16 ≠ 0 ∨
      wordsFrom w 4 then 2 else 0
  | 3 => if bits (recWord w 1) 16 16 ≠ 0 ∨ wordsFrom w 2 then 2 else 0
  | 5 => firstCode [if wordsFrom w 2 then 2 else 0, recLoc w 1 32 2]
  | _ => if wordsFrom w 1 then 2 else 0

/-- What is wrong with the words of a PENDANT record (R428). -/
def pendBad (w : Nat) : Nat :=
  match recOp w with
  | 0 => firstCode [if 8 ≤ recWord w 2 ∨ wordsFrom w 3 then 2 else 0, recLoc w 1 64 2]
  | 1 => firstCode [if wordsFrom w 2 then 2 else 0, recLoc w 1 64 2]
  | 4 => firstCode [if 4 ≤ recWord w 1 ∨ wordsFrom w 3 then 2 else 0, recLoc w 2 64 2]
  | _ => if 4 ≤ recWord w 1 ∨ wordsFrom w 2 then 2 else 0

/-- What is wrong with the words of a record of one kind, on a die (R357, R368, R369, R372, R377, R390, R428, R448). -/
def wordsBad (s : State) (d w : Nat) : Nat :=
  match recKind w with
  | 1 => taskBad s d w
  | 2 => stageBad w
  | 3 => firstCode [if bits (recWord w 2) 16 48 ≠ 0 ∨ wordsFrom w 3 then 2 else 0, recLoc w 1 64 2,
                    if recWord w 2 = 0 ∨ 1024 < recWord w 2 then 3 else 0]
  | 4 => pendBad w
  | 5 => if recOp w = 0 ∨ recOp w = 2 then firstCode [if wordsFrom w 2 then 2 else 0, recLoc w 1 64 2]
         else if wordsFrom w 1 then 2 else 0
  | 6 => firstCode [if wordsFrom w 3 then 2 else 0, recLoc w 1 8 3]
  | 7 => firstCode [if wordsFrom w 4 then 2 else 0, recLoc w 1 8 3]
  | 8 => firstCode [if wordsFrom w 2 then 2 else 0, recLoc w 1 64 2]
  | _ => if 64 ≤ recWord w 1 ∨ wordsFrom w 2 then 2 else 0

/-- The code with which a record fails at the head of a queue, 0 if it does not (R353 to R355, R472). -/
def recBad (s : State) (q w : Nat) : Nat :=
  let k := recKind w
  if kindOps k = 0 ∨ bit s.hub.featacc (kindFeature k) = false then 1
  else if bits w 12 10 ≠ 0 ∨ kindOps k ≤ recOp w ∨ (k ≠ 1 ∧ bits w 10 2 ≠ 0) ∨
      (recSidx w ≠ 0 ∧ k ≠ 2 ∧ k ≠ 3 ∧ ¬(k = 1 ∧ bit w 10)) then 2
  else if wordsBad s (q / 1024) w ≠ 0 then wordsBad s (q / 1024) w
  else if k = 9 ∧ fld (s.queue q).cfg 5 1 = 0 then 5
  else 0

/-! ## Fetch -/

/-- A queue has a record to fetch and its head is free (R364). -/
def fetchable (x : Queue) : Bool :=
  x.state == 1 && fld x.cfg 4 1 == 1 && x.head.isNone && !x.held && decide (1 ≤ x.dist) && decide (x.dist ≤ depthOf x.cfg)

/-- The command processor of a die works (R420, R475). -/
def cpUp (s : State) (d : Nat) : Bool := s.claspUp (4 * d) && bit (s.hub.rdy.getD d 0) 0

/-- A record's memory access that did not come to be: it waits for a route or for FRES, or the record fails (R355, R356). -/
def recErr (s : State) (q : Nat) (acc : Nat) (e : LocErr) : State :=
  match e with
  | .wait => s
  | .poison => failQueue s q 6
  | .fault m cls tgt dia reason =>
    let (seq, s) := faultRec s m
      { cls := cls, tgt := tgt, dia := dia, va := 0, reason := reason, acc := acc, agent := 6, ch := 0, tile := 0, die := q / 1024 }
    s.setQueue q { s.queue q with held := true, mb := m, seq := seq }

/-- An uncorrectable error in a queue's registers puts the queue into ERROR; of a TASK record half placed no further tile is awaited (R412;
log 49). -/
def readQueue (s : State) (q : Nat) : State :=
  failQueue (dropHead { s with codes := { s.codes with flaws := s.codes.flaws.filter (· != Flaw.queue q) } } q) q 6

/-- A step of the command processor that reads a queue's registers: an uncorrectable error stops it, a correctable one is corrected and
counted (R412). -/
def queueRead (s : State) (q : Nat) (f : State → State) : State :=
  if s.codes.flaws.contains (.queue q) then readQueue s q else f (s.corrects (.queue q))

/-- QWC_WRITE: the distance is computed, which reads the queue's registers; nothing is written while ROT = 0 (R366, R412, R481). -/
def execQwcWrite (s : State) : Out :=
  queueStep s (fun q => if !s.hub.rot then s else queueRead (s.setQueue q { s.queue q with wc := s.arg 1 % 2 ^ 64 }) q (fun s => overrun s q))

/-- RECORD_FETCH: the next record of a queue is read and checked; it stands at the head of the queue, or fails; a queue out of bounds
overruns instead (R355, R364, R366, R412). -/
def execRecordFetch (s : State) : Out :=
  queueStep s (fun q =>
    let x := s.queue q
    let d := q / 1024
    if !cpUp s d then s
    else queueRead s q (fun s =>
      if depthOf x.cfg < x.dist then overrun s q
      else if !fetchable x then s
      else
        match locRead s d x.base.toNat (64 * (x.rc % depthOf x.cfg)) 8 with
        | (.error .wait, _) => s
        | (.error e, s') => recErr s' q 0 e
        | (.ok w, s') =>
          if recBad s' q w ≠ 0 then failQueue s' q (recBad s' q w)
          else s'.setQueue q { s'.queue q with head := some w, placed := 0, image := none }))

/-! ## Start -/

/-- The machine that serves a kind of record works; a record that needs another waits at its head (R420, R475). -/
def kindReady (s : State) (d w : Nat) : Bool :=
  match recKind w with
  | 1 => !bit w 10 || s.claspUp (4 * d + 1)
  | 2 => s.claspUp (4 * d + 1)
  | 3 => s.claspUp (4 * d + 1)
  | 4 => s.claspUp (4 * d + 2) && bit (s.hub.rdy.getD d 0) 3
  | 5 => s.claspUp (4 * d + 3) && bit (s.hub.rdy.getD d 0) 4
  | _ => true

/-- The head record of an active queue, if it is of a kind and operation and may start: FENCE, and the machine it needs (R353,
R364). -/
def startable (s : State) (q kind op : Nat) : Option Nat :=
  let x := s.queue q
  match x.head with
  | some w =>
    if recKind w = kind ∧ recOp w = op ∧ x.state = 1 ∧ x.held = false ∧ cpUp s (q / 1024) ∧ kindReady s (q / 1024) w ∧
        (bit w 8 = false ∨ x.running.all (fun r => r.id == x.nid)) then some w
    else none
  | none => none

/-- A located DIA can be reached now: its route, its home and its translation do not wait (R364, R475). -/
def reachable (s : State) (d l : Nat) (wr : Bool) : Bool :=
  match (locPlace s d l 0 wr).1 with | .error .wait => false | _ => true

/-- A LOCKET record that needs no access of its own starts though a fault holds the Locket (R364, R448). -/
def lockFree (x : Lock) (op : Nat) : Bool := op == 1 || op == 3 || x.armed || x.st != 0

/-- Nothing but its turn keeps a head record of a die from its start (R364, R475). -/
def unhindered (s : State) (d w : Nat) : Bool :=
  let at' (i : Nat) (wr : Bool) : Bool := reachable s d (recWord w i) wr
  let op := recOp w
  match recKind w with
  | 1 => at' 2 false
  | 2 => op != 5 || at' 1 true
  | 3 => at' 1 false
  | 4 => (s.die d).pend.held.isNone && (match op with | 0 => at' 1 false | 1 => at' 1 false | 4 => at' 2 true | _ => true)
  | 5 => let x := (s.die d).lock
    (x.held.isNone || lockFree x op) && ((op != 0 && op != 2) || at' 1 false)
  | 6 => at' 1 true
  | 7 => at' 1 false
  | 8 => at' 1 true
  | _ => true

/-- The start of a head record has begun: its tiles are being dealt with, or a WAIT or PENDANT record has tried (R364). -/
def Queue.begun (x : Queue) : Bool := x.image.isSome || x.placed != 0

/-- The queues of a die, besides queue q, that have a record ready to start (R365). -/
def readyQueues (s : State) (q : Nat) : List (Nat × Queue) :=
  let d := q / 1024
  (s.die d).queues.filter (fun p =>
    match p.2.head with
    | some w => p.1 == q % 1024 || (!p.2.begun && (startable s (1024 * d + p.1) (recKind w) (recOp w)).isSome && unhindered s d w)
    | none => false)

/-- Arbitration chooses a queue: no lower level number is ready, and it holds a credit or no ready queue of its level does (R365). -/
def chosen (s : State) (q : Nat) : Bool :=
  let x := s.queue q
  let l := readyQueues s q
  let lvl (y : Queue) : Nat := fld y.cfg 6 2
  l.all (fun p => decide (lvl x ≤ lvl p.2)) && (x.credits != 0 || l.all (fun p => lvl p.2 != lvl x || p.2.credits == 0))

/-- The head record of a queue, if it is of a kind and operation, may start, and has begun to or is chosen (R364, R365). -/
def ready (s : State) (q kind op : Nat) : Option Nat :=
  match startable s q kind op with
  | some w => if (s.queue q).begun || chosen s q then some w else none
  | none => none

/-- The step of a record of a kind and operation on the queue of operand 0. -/
def recStep (s : State) (kind op : Nat) (f : State → Nat → Nat → State) : Out :=
  queueStep s (fun q =>
    match ready s q kind op with
    | some w => queueRead s q (fun s => f s q w)
    | none => s)

/-! ## Tile tasks -/

/-- TASK_RECORD: the stage binding, for which the stage's words are read, and the image of the range registers are checked, and placement
begins (R357, R412). -/
def execTaskRecord (s : State) : Out :=
  recStep s 1 0 (fun s q w =>
    let d := q / 1024
    let s := if bit w 10 && (s.queue q).image.isNone then readStage s d (recSidx w) else s
    let x := s.queue q
    let tiles := recWord w 3
    let st := s.stage d (recSidx w)
    if x.image.isSome then s
    else if bit w 10 && (!st.valid || bits tiles 0 64 &&& st.w0.toNat != tiles) then failQueue s q 3
    else
      match locRead s d (recWord w 2) 0 8 with
      | (.error e, s') => recErr s' q 0 e
      | (.ok img, s') =>
        let rg := (List.range 8).map (fun i => BitVec.ofNat 64 (recWord img i))
        if rg.any rgBad then failQueue s' q 3
        else
          let s' := spendCredit s' q
          s'.setQueue q { s'.queue q with
            image := some rg, placed := 0,
            running := x.running ++ [{ id := x.nid, n := x.rc, w := w, left := popc 64 tiles, killed := 0, late := false, todo := [], drops := 0,
                                       held := none }] })

/-- The tiles of a record, rising. -/
def recTiles (w : Nat) : List Nat := (List.range 64).filter (fun t => bit (recWord w 3) t)

/-- What a TASK record gives one tile (R357). -/
def launchOf (q n w : Nat) (rg : List Word) : Launch :=
  { q := q, n := n, entry := recWord w 1, rg := rg, tiles := recWord w 3, facets := bits (recWord w 4) 48 8, banks := bits (recWord w 4) 0 48,
    arg0 := BitVec.ofNat 64 (recWord w 5), arg1 := BitVec.ofNat 64 (recWord w 6), tag := bits w 32 32, stg := bit w 10, sidx := recSidx w,
    gang := bit w 11, start := recWord w 7 }

/-- TASK_PLACE: the next tile of the record takes the task into its successor slot once that is free; after the last the record leaves
the head of its queue (R358). -/
def execTaskPlace (s : State) : Out :=
  recStep s 1 0 (fun s q w =>
    let x := s.queue q
    match x.image, (recTiles w)[x.placed]? with
    | some rg, some t =>
      let u := 64 * (q / 1024) + t
      if (s.tile u).task.placed.isSome then s
      else
        let s := s.onTile u (fun y => y.onTask (fun k => { k with placed := some (launchOf q x.nid w rg), since := s.hub.gtc, met := false }))
        if x.placed + 1 = (recTiles w).length then
          s.setQueue q { x with rc := (x.rc + 1) % 2 ^ 64, head := none, placed := 0, image := none, nid := x.nid + 1 }
        else s.setQueue q { x with placed := x.placed + 1 }
    | _, _ => s)

/-- Whether a placed task may enter, its gang tick apart: a draining task holds its facets until its commands have completed (R160, R359). -/
def mayEnter (x : Tile) (l : Launch) : Bool :=
  x.task.launch.isNone && decide (x.task.drains.length ≤ 1) && x.task.drains.all (fun d => commandsDone x d || d.fown &&& l.facets == 0)

/-- The tile at the first bundle of a task (R48, R359): t is its number in the module, pos the module's. -/
def enterTask (x : Tile) (t pos : Nat) (l : Launch) (late : Bool) : Tile :=
  let held := drainBanks x t
  let n := t % 64
  let regs := ((Regs.reset.setS 1 l.arg0).setS 2 l.arg1).setS 3 (BitVec.ofNat 64 n)
  let regs := regs.setS 4 (BitVec.ofNat 64 (popc n (l.tiles % 2 ^ n)))
  let stage := if l.stg then 2 ^ 15 + pos * 1024 + tileDie t * 64 + l.sidx else 0
  { x with
    regs := regs, flight := [], snapPay := [], snapEn := [], snapPois := [], snapOrd := [], snapDead := [], iss := Iss.reset,
    reqs := x.reqs.filter (fun r => r.pw == 255), l1 := [], icache := [], fetchRg := [],
    spr := { x.spr with
      pc := BitVec.ofNat 64 l.entry, tstat := 0, fmt := 0, lc := 0, rotw := 0, wchk := 0, snap := Vector.replicate 32 0,
      taskid := BitVec.ofNat 64 (l.facets * 2 ^ 32 + l.tag), bown := BitVec.ofNat 64 (l.banks ^^^ (l.banks &&& held)),
      stage := BitVec.ofNat 64 stage, rg := Vector.ofFn (fun i => l.rg.getD i.val 0) },
    chans := x.chans.map (fun c => { c with lo := 0, hi := 0, wm := 0, act := false }),
    osb := Vector.replicate 4 Osb.reset, rng := Rng.reset, chkWait := 0,
    beads := { x.beads with cur := none, mailbox := [] },
    task := { x.task with run := .running, away := false, launch := some l, placed := none, met := false, claim := l.banks, late := late, restart := 0,
                          preq := false, sflt := (0, 0), pend := none, rel := [], kept := [], wd := [], loadOrd := [], maskEn := [], amoOrd := [], dead := [],
                          rst := none } }

/-- A task that enters bound to a stage is live for it: a kill or fault before it no longer stands (R378, R387; log 28). -/
def State.boundTile (s : State) (t : Nat) : State :=
  let i := fld (s.tile t).spr.stage 0 6
  let x := s.stage (tileDie t) i
  if x.dead ∧ liveTile s t i then s.setStage (tileDie t) i { x with dead := false } else s

/-- A gang task that enters now is late: its tile met the other conditions only after START, which a condition met since then, or facets that
were still held when it was last looked at, tell (R359, R362). -/
def lateEntry (x : Tile) (l : Launch) (gtc : Nat) : Bool :=
  l.gang && !x.task.met &&
    (decide (l.start < x.task.since) || (decide (l.start < gtc) && x.task.drains.any (fun d => d.fown &&& l.facets != 0)))

/-- TASK_ENTRY: a placed task enters; a gang task whose tile meets the other conditions waits for START (R48, R359, R362). -/
def execTaskEntry (s : State) : Out :=
  tileStep s (fun t =>
    let x := s.tile t
    match x.task.placed with
    | none => s
    | some l =>
      if !mayEnter x l then s
      else if l.gang && decide (s.hub.gtc < l.start) then s.onTile t (fun x => x.onTask (fun k => { k with met := true }))
      else
        let late := lateEntry x l s.hub.gtc
        let s := (s.setTile t (enterTask x t (fld s.hub.prcfg 0 5) l late)).boundTile t
        if late then
          let y := s.queue l.q
          s.setQueue l.q { y with running := y.running.map (fun r => if r.id = l.n then { r with late := true } else r) }
        else s)

/-- The commands of a draining task, and its stores and atomics, are complete (R160, R361). -/
def drained (x : Tile) (d : Drain) : Bool :=
  commandsDone x d && !x.reqs.any (fun r => r.pw == 255)

/-- One tile's report reaches its record, which completes with the last; a broken command processor holds it for ever (R361, R420). -/
def reportTask (s : State) (l : Launch) (killed : Bool) : State :=
  if !s.claspUp (4 * (l.q / 1024)) then s
  else
    let x := s.queue l.q
    let s := s.setQueue l.q { x with running := x.running.map (fun r =>
      if r.id = l.n then { r with left := r.left - 1, killed := r.killed + b2n killed } else r) }
    match (s.queue l.q).running.find? (fun r => r.id == l.n) with
    | some r => if r.left = 0 then completeRec s l.q l.n 0 r.killed r.late else s
    | none => s

/-- A report ends what the tile's placed task waits for: a second draining task, or one with a facet of its own (R359). -/
def freesEntry (x : Task) (d : Drain) : Bool :=
  decide (2 ≤ x.drains.length) || (match x.placed with | some l => d.fown &&& l.facets != 0 | none => false)

/-- TASK_COMPLETION_REPORT: the oldest draining task of a tile, all its commands complete and its writes performed, reports (R160, R361). -/
def execTaskCompletionReport (s : State) : Out :=
  tileStep s (fun t =>
    let x := s.tile t
    match x.task.drains with
    | [] => s
    | d :: ds =>
      if drained x d then
        let s := s.setTile t (x.onTask (fun k =>
          { k with drains := ds, since := if freesEntry k d then s.hub.gtc else k.since }))
        match d.launch with | some l => reportTask s l d.killed | none => s
      else s)

/-! ## Stages -/

/-- CONFIG fails where the new entry breaks its limits or the state does not take it (R373). -/
def configBad (x : Stage) (w : Nat) : Bool :=
  let w1 := recWord w 2
  if bit w1 63 then
    recWord w 1 == 0 || bits w1 8 8 == 0 || decide (bits w1 8 8 < bits w1 16 6) || bits w1 22 2 == 3 ||
      (x.valid && !(x.st == .held && x.sh))
  else !(x.st == .held || x.st == .faulted)

/-- A STAGE record, once the scheduler has taken its retirements and arrivals and read the stage's words (R382, R412). -/
def stageRec (s : State) (op : Nat) (f : State → Nat → Nat → Nat → Nat → State) : Out :=
  recStep s 2 op (fun s q w =>
    let d := q / 1024
    if beadsDue s d then s else f (readStage s d (recSidx w)) q w d (recSidx w))

/-- A held stage that takes new fields keeps its queues; where STEP changes, nothing of the new step has been delivered or closed. DESIGN
CHOICE: where it stays, as with STEPMB = 0, the warm-up goes on (R373, R379, R384; log 73). -/
def Stage.reconfig (x : Stage) (w0 w1 w2 : Word) : Stage :=
  let y := { x with w0 := w0, w1 := w1, w2 := w2 }
  if y.step = x.step then y else { y with warm := 0, closed := [], closedSent := 0 }

/-- STAGE_CONFIG (R373). -/
def execStageConfig (s : State) : Out :=
  stageRec s 0 (fun s q w d i =>
    let x := s.stage d i
    let wd (k : Nat) : Word := BitVec.ofNat 64 (recWord w k)
    if configBad x w then failQueue s q 3
    else if bit (recWord w 2) 63 then
      if x.valid then runRec (stepEnd d i (x.failed.length + 1) (s.setStage d i (x.reconfig (wd 1) (wd 2) (wd 3)))) q 0 0
      else runRec (s.setStage d i { Stage.reset with st := .run, w0 := wd 1, w1 := wd 2, w2 := wd 3 }) q 0 0
    else
      let s := (x.ctl ++ x.fwd ++ x.bwd).foldl (fun s b => dropEvent s d i b 1) s
      runRec (endHolds (s.setStage d i { Stage.reset with holdRec := x.holdRec }) d i) q 0 0)

/-- STAGE_HOLD (R383). -/
def execStageHold (s : State) : Out :=
  stageRec s 1 (fun s q _ d i =>
    let x := s.stage d i
    match x.st with
    | .off => runRec s q 0 0
    | .faulted => runRec (s.setStage d i { x with sh := true }) q 0 0
    | .held => runRec (s.setStage d i { x with sh := true }) q 0 0
    | _ =>
      let n := (s.queue q).nid
      (startRec s q 0).setStage d i { x with sh := true, st := .holding, holdRec := x.holdRec ++ [(q, n)] })

/-- STAGE_RELEASE (R383). -/
def execStageRelease (s : State) : Out :=
  stageRec s 2 (fun s q _ d i =>
    let x := s.stage d i
    let s := if x.st = .held ∧ x.sh then s.setStage d i { x with sh := false, st := if x.lhs = [] then .run else .held } else s
    runRec s q 0 0)

/-- STAGE_EVICT (R385). -/
def execStageEvict (s : State) : Out :=
  stageRec s 3 (fun s q w d i =>
    let x := s.stage d i
    let e := recWord w 1
    runRec (s.setStage d i { x with opens := x.opens.map (fun o =>
      if o.step = bits e 32 32 ∧ o.mb = bits e 0 16 then { o with evicted := true } else o) }) q 0 0)

/-- STAGE_CLEARFLT (R383). -/
def execStageClearflt (s : State) : Out :=
  stageRec s 4 (fun s q _ d i =>
    let x := s.stage d i
    let s := if x.st = .faulted ∧ stageServed s d i then
        endHolds (s.setStage d i { x with st := if x.sh ∨ x.lhs ≠ [] then .held else .run, dead := false }) d i else s
    runRec s q 0 0)

/-- The four words of a stage entry (R371). -/
def Stage.words (x : Stage) : List Nat :=
  [x.w0.toNat, x.w1.toNat + b2n (x.st == .faulted) * 2 ^ 62 + b2n (x.lhs != []) * 2 ^ 61 + b2n x.sh * 2 ^ 60, x.w2.toNat,
   x.opens.length % 65536 * 2 ^ 48 + x.fwd.length * 2 ^ 32 + x.bwd.length * 65536]

/-- A record that writes words at the located DIA of one of its own words, then completes. -/
def writeRec (s : State) (q w i : Nat) (ws : List Nat) (f : State → State) : State :=
  match locWrite s (q / 1024) (recWord w i) 0 ws with
  | (some e, s') => recErr s' q 1 e
  | (none, s') => runRec (f s') q 0 0

/-- STAGE_READ (R372). -/
def execStageRead (s : State) : Out :=
  stageRec s 5 (fun s q w d i => writeRec s q w 1 (s.stage d i).words (fun s => s))

/-! ## Injected beads -/

/-- A bead of a BEAD record as accepted, with its SRC; none if its sender's check rejects it (R377). -/
def injected (s : State) (d i b : Nat) : Option Nat :=
  let x := s.stage d i
  let me := stageName s d i
  if beadKind b = 2 then (if beadOk b 0 me true false then some (stampSrc b (if x.nnone then 0 else x.next)) else none)
  else (if beadOk b me 0 false true then some (stampSrc b (if x.pnone then 0 else x.prev)) else none)

/-- The beads of an array, one after another (R377). -/
def readBeads (s : State) (d l : Nat) : Nat → Nat → Except LocErr (List Nat) × State
  | _, 0 => (.ok [], s)
  | off, n + 1 =>
    match locRead s d l off 8 with
    | (.error e, s') => (.error e, s')
    | (.ok b, s') =>
      match readBeads s' d l (off + 64) n with
      | (.error e, s'') => (.error e, s'')
      | (.ok bs, s'') => (.ok (b :: bs), s'')

/-- A started record of a queue replaced. -/
def setRunning (s : State) (q : Nat) (r : RunRec) : State :=
  let x := s.queue q
  s.setQueue q { x with running := x.running.map (fun y => if y.id = r.id then r else y) }

/-- The beads of a started BEAD record enter their stage in array order as far as there is room; with the last the record completes, its
rejected beads counted (R376, R377). The count bounds the beads. -/
def feedBeads (q id : Nat) : Nat → State → State
  | 0, s => s
  | n + 1, s =>
    match (s.queue q).running.find? (fun r => r.id == id) with
    | none => s
    | some r =>
      let d := q / 1024
      let i := recSidx r.w
      match r.todo with
      | [] => completeRec s q id 0 r.drops false
      | b :: bs =>
        if !(s.stage d i).valid || stageRoom s d i b then feedBeads q id n (enterStage (setRunning s q { r with todo := bs }) d i b) else s

/-- BEAD_RECORD: beads of started records go on entering, the oldest record's first; then the array of the head record is read whole, its
beads are checked, and the record starts; beads of the same cycle's retirements come after those (R355, R364, R376, R377, R382). -/
def execBeadRecord (s : State) : Out :=
  queueStep s (fun q =>
    let d := q / 1024
    if retireDue s d || !s.claspUp (4 * d + 1) then s
    else
      let s := ((s.queue q).running.filter (fun r => r.todo != [])).foldl (fun s r => feedBeads q r.id (r.todo.length + 1) s) s
      match ready s q 3 0 with
      | none => s
      | some w => queueRead s q (fun s =>
        match readBeads s d (recWord w 1) 0 (recWord w 2) with
        | (.error e, s') => recErr s' q 0 e
        | (.ok bs, s') =>
          let good := bs.filterMap (injected s' d (recSidx w))
          let id := (s'.queue q).nid
          let s1 := startRec s' q 0
          let s2 := s1.setQueue q { s1.queue q with running := (s1.queue q).running.map (fun r =>
            if r.id = id then { r with todo := good, drops := bs.length - good.length } else r) }
          feedBeads q id (good.length + 1) s2))

/-! ## Signals and waits -/

/-- The place of a record's 8-byte location with what goes on from it (R368); an AMO, kind 2, needs R and W (R338, R343). -/
def atLoc (s : State) (q w : Nat) (acc : Nat) (wr : Bool) (f : State → Nat → State) : State :=
  let d := q / 1024
  match (if acc = 2 then locPlace s d (recWord w 1) 0 false else (.ok 0, s)) with
  | (.error e, s') => recErr s' q acc e
  | (.ok _, s1) =>
    match locPlace s1 d (recWord w 1) 0 wr with
    | (.error e, s') => recErr s' q acc e
    | (.ok k, s') => f s' k

/-- The write of a SIGNAL at its place (R368): none where an AMO finds poison (R178), and the state as it is where storage behind it
sleeps (R478), which the mark tells. -/
def signalAt (s : State) (w k : Nat) : Option (Bool × State) :=
  let put (s' : State) (v : Nat) : Option (Bool × State) :=
    match locPut s' k 8 v with | some s'' => some (true, s'') | none => some (false, s)
  if recOp w = 0 then put s (recWord w 2)
  else
    let s' := s.reads k 8
    if (poisonAt s' k 8).isSome then none else put s' (readN s' k 8 + recWord w 2)

/-- A started SIGNAL, every earlier record of its queue complete, makes its write; a fault then holds it, and an end or poison fails the
queue at it (R355, R368; log 38). -/
def runSignal (s : State) (q : Nat) (r : RunRec) : State :=
  let d := q / 1024
  let err (s : State) (e : LocErr) : State :=
    match e with
    | .wait => s
    | .poison => failRunning s q r 6
    | .fault m cls tgt dia reason =>
      let (seq, s) := faultRec s m
        { cls := cls, tgt := tgt, dia := dia, va := 0, reason := reason, acc := 1 + recOp r.w, agent := 6, ch := 0, tile := 0, die := d }
      setRunning s q { r with held := some (m, seq) }
  match (if recOp r.w = 1 then locPlace s d (recWord r.w 1) 0 false else (.ok 0, s)) with
  | (.error e, s) => err s e
  | (.ok _, s) =>
    match locPlace s d (recWord r.w 1) 0 true with
    | (.error e, s) => err s e
    | (.ok k, s) =>
      match signalAt s r.w k with
      | some (true, s) => completeRec s q r.id 0 0 false
      | some (false, s) => s
      | none => failRunning s q r 6

/-- A SIGNAL of one operation: one that has started and is now the oldest record of its queue makes its write; else the head record, its
translation resolved, starts, and makes its write at once if no earlier record is left (R364, R368). -/
def signalStep (s : State) (op : Nat) : Out :=
  queueStep s (fun q =>
    let old := (s.queue q).running.head?.filter (fun r => recKind r.w == 6 && recOp r.w == op && r.held.isNone)
    match old, ready s q 6 op with
    | some r, _ => if cpUp s (q / 1024) then runSignal s q r else s
    | none, none => s
    | none, some w => queueRead s q (fun s =>
      atLoc s q w (1 + op) true (fun s k =>
        if (s.queue q).running ≠ [] then startRec s q 0
        else
          match signalAt s w k with
          | some (true, s) => runRec s q 0 0
          | some (false, s) => s
          | none => failQueue s q 6)))

/-- SIGNAL_STORE (R368). -/
def execSignalStore (s : State) : Out := signalStep s 0

/-- SIGNAL_AMO_ADD (R368). -/
def execSignalAmoAdd (s : State) : Out := signalStep s 1

/-- The condition of a WAIT on the value read (R368). -/
def waitHolds (w m : Nat) : Bool :=
  let x := m &&& recWord w 3
  let v := recWord w 2
  match recOp w with | 0 => x == v | 1 => x != v | 2 => decide (v ≤ x) | _ => decide (x < v)

/-- A WAIT reads its location; it starts and completes if its condition holds and arbitration chooses its queue (R365, R368). -/
def pollWait (s : State) (q w : Nat) : State :=
  atLoc s q w 0 false (fun s k =>
    let s := s.reads k 8
    if (poisonAt s k 8).isSome then failQueue s q 6
    else if waitHolds w (readN s k 8) && chosen s q then runRec s q 0 0
    else s.setQueue q { s.queue q with placed := 1 })

/-- A step on a head WAIT record that has (polled) or has not read its location yet. -/
def waitStep (s : State) (polled : Nat) : Out :=
  queueStep s (fun q =>
    match (List.range 4).findSome? (fun op => ready s q 7 op) with
    | some w => if (s.queue q).placed = polled then queueRead s q (fun s => pollWait s q w) else s
    | none => s)

/-- WAIT_RECORD: the record's first read (R368). -/
def execWaitRecord (s : State) : Out := waitStep s 0

/-- WAIT_POLL: a further read (R368). -/
def execWaitPoll (s : State) : Out := waitStep s 1

/-! ## Placement counters -/

/-- The 512 counters of a die, tile by tile (R389). -/
def profWords (s : State) (d : Nat) : List Nat := ((List.range 64).map (fun t => (s.tile (64 * d + t)).prof.toList)).flatten

/-- PROFILE_COPY (R390). -/
def execProfileCopy (s : State) : Out := recStep s 8 0 (fun s q w => writeRec s q w 1 (profWords s (q / 1024)) (fun s => s))

/-- PROFILE_COPY_CLEAR: each counter is cleared as it is sampled (R390). -/
def execProfileCopyClear (s : State) : Out :=
  recStep s 8 1 (fun s q w =>
    writeRec s q w 1 (profWords s (q / 1024)) (fun s => s.mapTiles (fun t x =>
      if tileDie t = q / 1024 then { x with prof := Vector.replicate 8 0 } else x)))

/-! ## Tile control -/

/-- The tile that a TILECTL record names. -/
def ctlTile (q w : Nat) : Nat := 64 * (q / 1024) + recWord w 1 % 64

/-- TILECTL_RESTART: a halted tile issues again; while the image that it goes back to lacks an AMO's value, the started record waits
(R159, R369, R408, R522). -/
def execTilectlRestart (s : State) : Out :=
  recStep s 9 0 (fun s q w =>
    let t := ctlTile q w
    let x := s.tile t
    if x.task.rst.isSome then s
    else
      let s := s.atTile t haltReads
      if x.task.run = .halted ∧ haltLacks (s.focus t) then
        (startRec s q 0).onTile t (fun x => x.onTask (fun k => { k with rst := some (q, (s.queue q).nid) }))
      else runRec (s.atTile t restartCore) q 0 0)

/-- TILECTL_PREEMPT: the request is kept at a tile whose task runs or stands frozen, marked PPEND inside a region, and its record
completes with the trap that serves it; elsewhere it is served at once (R369, R406). -/
def execTilectlPreempt (s : State) : Out :=
  recStep s 9 1 (fun s q w =>
    let t := ctlTile q w
    let x := s.tile t
    if x.task.launch.isSome ∧ x.task.away = false ∧ (x.task.run = .running ∨ x.task.run = .frozen) then
      let n := (s.queue q).nid
      (startRec s q 0).onTile t (fun x =>
        let x := x.onTask (fun k => { k with preq := true, preqRecs := k.preqRecs ++ [(q, n)] })
        if x.inreg then x.onSpr (fun p => { p with tstat := setFld p.tstat 4 1 1 }) else x)
    else runRec s q 0 0)

/-- The active task of the tile in focus killed: it retires as by the supervisor's RETIRE (R160, R369, R387). -/
def killCore (s : State) : State :=
  let st := s.core.spr.stage
  let s := (endTask (leaveBeads s s.self 255) true).onCore (fun t => { t with iss := Iss.reset })
  checkLive s (tileDie s.self) st

/-- TILECTL_KILL (R369). -/
def execTilectlKill (s : State) : Out :=
  recStep s 9 2 (fun s q w =>
    let t := ctlTile q w
    runRec (if (s.tile t).task.launch.isSome then s.atTile t killCore else s) q 0 0)

end Sys2Proof.Machine
end

