-- ==== Sys2Proof/Machine/Vector.lean ====
section
/-! DEFINITION. Vector arithmetic, comparison, selection, conversion, transcendentals, reductions, permutes, moves and checks
(R203 to R219, R232 to R234). -/

namespace Sys2Proof.Machine

/-- The width of a float F code (R93). -/
def fltW (f : Nat) : Nat := if f = 0 then 16 else 32

/-- The width of an integer or raw F code (R93, R217). -/
def intW (f : Nat) : Nat := 8 * 2 ^ (f % 4)

/-- Lane i of a float operand (R205). -/
def Tile.flane (t : Tile) (w n i : Nat) : FVal := fvalW w (lane (t.vreg n) i w)

/-- Lane i of a raw operand. -/
def Tile.ilane (t : Tile) (w n i : Nat) : Nat := lane (t.vreg n) i w

/-- A vector result: the enabled lanes at width w land k bundles on (R205, R206). -/
def vecOut (i : Instr) (k d w : Nat) (r : Nat → Nat) (s : State) : Out :=
  issue i { run := fun s' => s'.landV k d (pairsOf w ((guardOf i).mask s.core)) (ofLanes w r) } s

/-- A float vector result, each lane rounded once under the FMT that governs the bundle (R205, R207). -/
def floatOut (i : Instr) (k d f : Nat) (r : Nat → FVal) (s : State) : Out :=
  let fmt := s.core.spr.fmt
  vecOut i k d (fltW f) (fun j => roundW (fltW f) (rmOf fmt) (satOf fmt) (r j)) s

/-! ## Floating-point arithmetic -/

/-- VADD: a + b (R207). -/
def execVadd (o : OpVGdabf) (s : State) : Out :=
  floatOut (.vadd o) 4 o.d o.f (fun j => fadd (s.core.flane (fltW o.f) o.a j) (s.core.flane (fltW o.f) o.b j)) s

/-- VSUB: a - b (R207). -/
def execVsub (o : OpVGdabf) (s : State) : Out :=
  floatOut (.vsub o) 4 o.d o.f (fun j => fsub (s.core.flane (fltW o.f) o.a j) (s.core.flane (fltW o.f) o.b j)) s

/-- VMUL: a x b (R207). -/
def execVmul (o : OpVGdabf) (s : State) : Out :=
  floatOut (.vmul o) 4 o.d o.f (fun j => fmul (s.core.flane (fltW o.f) o.a j) (s.core.flane (fltW o.f) o.b j)) s

/-- VFMA: a x b + c (R207). -/
def execVfma (o : OpVGdabf) (s : State) : Out :=
  floatOut (.vfma o) 4 o.d o.f (fun j => ffma false false (s.core.flane (fltW o.f) o.a j) (s.core.flane (fltW o.f) o.b j) (s.core.flane (fltW o.f) (opC o.h o.e o.d) j)) s

/-- VFMS: a x b - c (R207). -/
def execVfms (o : OpVGdabf) (s : State) : Out :=
  floatOut (.vfms o) 4 o.d o.f (fun j => ffma false true (s.core.flane (fltW o.f) o.a j) (s.core.flane (fltW o.f) o.b j) (s.core.flane (fltW o.f) (opC o.h o.e o.d) j)) s

/-- VFNMA: c - a x b (R207). -/
def execVfnma (o : OpVGdabf) (s : State) : Out :=
  floatOut (.vfnma o) 4 o.d o.f (fun j => ffma true false (s.core.flane (fltW o.f) o.a j) (s.core.flane (fltW o.f) o.b j) (s.core.flane (fltW o.f) (opC o.h o.e o.d) j)) s

/-- VMAX: the larger (R207). -/
def execVmax (o : OpVGdabf) (s : State) : Out :=
  floatOut (.vmax o) 2 o.d o.f (fun j => fmax (s.core.flane (fltW o.f) o.a j) (s.core.flane (fltW o.f) o.b j)) s

/-- VMIN: the smaller (R207). -/
def execVmin (o : OpVGdabf) (s : State) : Out :=
  floatOut (.vmin o) 2 o.d o.f (fun j => fmin (s.core.flane (fltW o.f) o.a j) (s.core.flane (fltW o.f) o.b j)) s

/-- VCLAMP: min(max(a, b), c) (R207). -/
def execVclamp (o : OpVGdabf) (s : State) : Out :=
  floatOut (.vclamp o) 2 o.d o.f (fun j => fmin (fmax (s.core.flane (fltW o.f) o.a j) (s.core.flane (fltW o.f) o.b j)) (s.core.flane (fltW o.f) (opC o.h o.e o.d) j)) s

/-- VABS: absolute value (R207). -/
def execVabs (o : OpVGdaf) (s : State) : Out := floatOut (.vabs o) 2 o.d o.f (fun j => fabs (s.core.flane (fltW o.f) o.a j)) s

/-- VNEG: sign change (R207). -/
def execVneg (o : OpVGdaf) (s : State) : Out := floatOut (.vneg o) 2 o.d o.f (fun j => fneg (s.core.flane (fltW o.f) o.a j)) s

/-! ## Comparison and selection -/

/-- A mask result of lane conditions at width w (R20, R208). -/
def maskOut (i : Instr) (d w : Nat) (c : Nat → Bool) (s : State) : Out :=
  issue i { run := fun s' => s'.landM 2 d (maskEnable w ((guardOf i).mask s.core)) (maskValue w c) } s

/-- VCMP.cond.t mD, vA, vB (R208). -/
def execVcmp (o : OpVGcmabf) (s : State) : Out :=
  maskOut (.vcmp o) o.m (fltW o.f) (fun j => fCond o.c (s.core.flane (fltW o.f) o.a j) (s.core.flane (fltW o.f) o.b j)) s

/-- VCMP.cond.x mD, vA, vB (R208). -/
def execVcmpI (o : OpVGcmabf) (s : State) : Out :=
  let w := intW o.f
  maskOut (.vcmpI o) o.m w (fun j => iCond o.c (decide (4 ≤ o.f.val)) w (s.core.ilane w o.a j) (s.core.ilane w o.b j)) s

/-- The width of a VSEL MOD code (R209). -/
def selW (m : Nat) : Nat := match m with | 0 => 16 | 1 => 32 | 2 => 64 | _ => 8

/-- VSEL.bW vD, vA, vB, mF (R209). -/
def execVsel (o : OpVGdabm) (s : State) : Out :=
  let w := selW (extMod o.e)
  vecOut (.vsel o) 2 o.d w
    (fun j => if laneOn w (s.core.mask o.m) j then s.core.ilane w o.a j else s.core.ilane w o.b j) s

/-! ## Integer arithmetic -/

/-- A saturating or wrapping sum or difference under MOD: 0 wraps, 1 .sat, 2 .nsat (R210). -/
def satMod (m w : Nat) (signed natural : Int) : Nat :=
  wrap w (if m = 1 then satInt true w signed else if m = 2 then satInt false w natural else natural)

/-- VADDI: a + b (R210). -/
def execVaddI (o : OpVGdabf2) (s : State) : Out :=
  let w := intW o.f
  vecOut (.vaddI o) 2 o.d w (fun j =>
    let a := s.core.ilane w o.a j
    let b := s.core.ilane w o.b j
    satMod (extMod o.e) w (sext a w + sext b w) ((a : Int) + b)) s

/-- VSUBI: a - b (R210). -/
def execVsubI (o : OpVGdabf2) (s : State) : Out :=
  let w := intW o.f
  vecOut (.vsubI o) 2 o.d w (fun j =>
    let a := s.core.ilane w o.a j
    let b := s.core.ilane w o.b j
    satMod (extMod o.e) w (sext a w - sext b w) ((a : Int) - b)) s

/-- VMULI: a x b (R210). -/
def execVmulI (o : OpVGdabf2) (s : State) : Out :=
  let w := intW o.f
  vecOut (.vmulI o) 4 o.d w (fun j =>
    let a := s.core.ilane w o.a j
    let b := s.core.ilane w o.b j
    a * b) s

/-- VAND: a and b (R210). -/
def execVand (o : OpVGdabf2) (s : State) : Out :=
  let w := intW o.f
  vecOut (.vand o) 2 o.d w (fun j =>
    let a := s.core.ilane w o.a j
    let b := s.core.ilane w o.b j
    a &&& b) s

/-- VOR: a or b (R210). -/
def execVor (o : OpVGdabf2) (s : State) : Out :=
  let w := intW o.f
  vecOut (.vor o) 2 o.d w (fun j =>
    let a := s.core.ilane w o.a j
    let b := s.core.ilane w o.b j
    a ||| b) s

/-- VXOR: a xor b (R210). -/
def execVxor (o : OpVGdabf2) (s : State) : Out :=
  let w := intW o.f
  vecOut (.vxor o) 2 o.d w (fun j =>
    let a := s.core.ilane w o.a j
    let b := s.core.ilane w o.b j
    a ^^^ b) s

/-- VSHL: left shift by the low bits of b (R210). -/
def execVshl (o : OpVGdabf2) (s : State) : Out :=
  let w := intW o.f
  vecOut (.vshl o) 2 o.d w (fun j =>
    let a := s.core.ilane w o.a j
    let b := s.core.ilane w o.b j
    a * 2 ^ (b % w)) s

/-- VSHR: right shift by the low bits of b (R210). -/
def execVshr (o : OpVGdabf2) (s : State) : Out :=
  let w := intW o.f
  vecOut (.vshr o) 2 o.d w (fun j =>
    let a := s.core.ilane w o.a j
    let b := s.core.ilane w o.b j
    a / 2 ^ (b % w)) s

/-- VSRA: arithmetic right shift by the low bits of b (R210). -/
def execVsra (o : OpVGdabf2) (s : State) : Out :=
  let w := intW o.f
  vecOut (.vsra o) 2 o.d w (fun j =>
    let a := s.core.ilane w o.a j
    let b := s.core.ilane w o.b j
    wrap w (sext a w / 2 ^ (b % w))) s

/-- VMININT: the smaller lane (R210). -/
def execVminInt (o : OpVGdabf) (s : State) : Out :=
  let w := intW o.f
  vecOut (.vminInt o) 2 o.d w (fun j =>
    let a := s.core.ilane w o.a j
    let b := s.core.ilane w o.b j
    if iCond 2 (decide (4 ≤ o.f.val)) w b a then b else a) s

/-- VMAXINT: the larger lane (R210). -/
def execVmaxInt (o : OpVGdabf) (s : State) : Out :=
  let w := intW o.f
  vecOut (.vmaxInt o) 2 o.d w (fun j =>
    let a := s.core.ilane w o.a j
    let b := s.core.ilane w o.b j
    if iCond 2 (decide (4 ≤ o.f.val)) w a b then b else a) s

/-! ## Conversions -/

/-- Whether a VCVT format code is a float, and whether an integer one is signed (R211). -/
def cvtFloat (c : Nat) : Bool := c < 2
/-- A signed integer format code (R211). -/
def cvtSigned (c : Nat) : Bool := 2 ≤ c && c < 5

/-- One element converted from format f to format t (R211). -/
def cvtElem (mode : Rm) (sat : Bool) (f t x : Nat) : Nat :=
  let ws := cvtWidth f
  let wd := cvtWidth t
  if cvtFloat f then
    if cvtFloat t then roundW wd mode sat (fvalW ws x) else wrap wd (toInt mode (cvtSigned t) wd (fvalW ws x))
  else
    let v : Int := if cvtSigned f then sext x ws else (x : Int)
    if cvtFloat t then roundW wd mode sat (ofInt v) else wrap wd (satInt (cvtSigned t) wd v)

/-- The lanes of a conversion with part p; mode gives the rounding of element e (R211). -/
def cvtLanes (t : Tile) (a f d p : Nat) (mode : Nat → Rm) : VWord :=
  let ws := cvtWidth f
  let wd := cvtWidth d
  let n := 1024 / Nat.max ws wd
  let sat := satOf t.spr.fmt
  if wd ≤ ws then ofLanes wd (fun j => if p * n ≤ j ∧ j < p * n + n then cvtElem (mode (j - p * n)) sat f d (lane (t.vreg a) (j - p * n) ws) else 0)
  else ofLanes wd (fun j => cvtElem (mode j) sat f d (lane (t.vreg a) (p * n + j) ws))

/-- The enables of a conversion: its part and its lane guard (R204, R211). -/
def cvtEnable (i : Instr) (t : Tile) (f d p : Nat) : Word :=
  BitVec.ofNat 64 (cvtEn f d p) &&& pairsOf (cvtWidth d) ((guardOf i).mask t)

/-- VCVT.s.d{.rm} vD, vA{, p} (R211). -/
def execVcvt (o : OpVGdastf) (s : State) : Out :=
  let t := s.core
  let mode : Rm := match o.f.val with | 1 => .rne | 2 => .rtz | _ => rmOf t.spr.fmt
  issue (.vcvt o)
    { run := fun s => s.landV 3 o.d (cvtEnable (.vcvt o) t o.s o.t (extMod o.e)) (cvtLanes t o.a o.s o.t (extMod o.e) (fun _ => mode)) } s

/-- The oldest entry of the random-bit queue (R45). -/
def Tile.rngHead (t : Tile) : VWord := rngEntry t.rng.seed.toNat (t.rng.gen - t.rng.count)

/-- The random field of result e of n results (R64). -/
def rngField (entry : VWord) (n e : Nat) : Nat × Nat :=
  let w := if n ≤ 64 then 16 else if n ≤ 128 then 8 else 4
  (w, bits entry.toNat (w * e) w)

/-- Stochastic rounding of result e of n results (R63, R64). -/
def srMode (entry : VWord) (n e : Nat) : Rm := let (w, r) := rngField entry n e; .sr w r

/-- The consumer's entry is popped at commit; V1's duplicate in a twinned bundle pops none of its own (R45, R65). -/
def State.pop (s : State) : State := if s.core.diverted && s.core.iss.effs.contains .pop then s else s.eff .pop

/-- A consumer that finds the queue empty while the generator does not run (R291). -/
def rngTrap (t : Tile) (i : Instr) : Option (Cause × Nat) :=
  if t.rng.count = 0 ∧ t.rng.run = false then some (.illegal, slotWordOf i) else none

/-- VCVT.SR.s.d vD, vA{, p} (R212). -/
def execVcvtSr (o : OpVGdast) (s : State) : Out :=
  let t := s.core
  let n := 1024 / Nat.max (cvtWidth o.s) (cvtWidth o.t)
  issue (.vcvtSr o)
    { trap := rngTrap t (.vcvtSr o), wait := t.rng.count == 0,
      run := fun s => (s.landV 3 o.d (cvtEnable (.vcvtSr o) t o.s o.t (extMod o.e))
        (cvtLanes t o.a o.s o.t (extMod o.e) (srMode t.rngHead n))).pop } s

/-- The element width of an MX code 1 to 3 (R213). -/
def mxBits (k : Nat) : Nat := match k with | 1 => 8 | 2 => 6 | _ => 4

/-- Whether a finite value scaled for a scale E lies within k-bit codes (R73). -/
def mxFits (k E : Nat) (v : FVal) : Bool :=
  match v with
  | .fin s m e =>
    let sh : Int := e + 127 + ((k : Int) - 2) - E
    let lim := if s then 2 ^ (k - 1) else 2 ^ (k - 1) - 1
    if 0 ≤ sh then decide (m * 2 ^ sh.toNat ≤ lim) else decide (m ≤ lim * 2 ^ (-sh).toNat)
  | _ => false

/-- The smallest scale from 0 under which one value fits, 255 where none below does (R73). -/
def mxScale1 (k : Nat) (v : FVal) : Nat :=
  match v with
  | .fin _ m e =>
    if m = 0 then 0
    else
      let base : Int := (Nat.log2 m : Int) + e + 126
      (([base, base + 1, base + 2].map (fun x => (max x 0).toNat)).find? (fun E => mxFits k E v)).getD 255
  | _ => 0

/-- The automatic scale of a block (R73). -/
def mxScale (k : Nat) (vs : List FVal) : Nat := Nat.min 254 ((vs.map (mxScale1 k)).foldl Nat.max 0)

/-- One block: its scale byte and its codes, from values, an explicit scale if given, and the rounding of element i (R73). -/
def mxBlock (k : Nat) (vs : List FVal) (explicit : Option Nat) (mode : Nat → Rm) : Nat × List Nat :=
  if vs.any FVal.notFinite ∨ explicit = some 255 then (255, vs.map (fun _ => 0))
  else
    let E := explicit.getD (mxScale k vs)
    let scaled (v : FVal) : FVal := match v with | .fin s m e => .fin s m (e + 127 + ((k : Int) - 2) - E) | v => v
    (E, (List.range vs.length).map (fun i =>
      wrap k (satInt true k (rint (mode i) (scaled (vs.getD i (.fin false 0 0)))))))

/-- VPACK.MX.k.s{.xs}{.sr} vD, vA{, vB} (R213). -/
def execVpackMx (o : OpVGdabf) (s : State) : Out :=
  let t := s.core
  let k := mxBits (o.f.val % 4)
  let isF := decide (4 ≤ o.f.val)
  let w := if isF then 32 else 16
  let nb := if isF then 1 else 2
  let xs := extMod o.e % 2 == 1
  let sr := decide (2 ≤ extMod o.e)
  let mode (e : Nat) : Rm := if sr then srMode t.rngHead (32 * nb) e else rmOf t.spr.fmt
  let block (j : Nat) : Nat × List Nat :=
    mxBlock k ((List.range 32).map (fun i => t.flane w o.a (32 * j + i)))
      (if xs then some (lane (t.vreg o.b) (126 + j) 8) else none) (fun i => mode (32 * j + i))
  issue (.vpackMx o)
    { trap := if sr then rngTrap t (.vpackMx o) else none, wait := sr && t.rng.count == 0,
      run := fun s =>
        let b0 := block 0
        let b1 := if nb = 2 then block 1 else (0, List.replicate 32 0)
        let codes := b0.2 ++ b1.2
        let v := packFields k (fun i => codes.getD i 0) 64 + b0.1 * 2 ^ 1008 + b1.1 * 2 ^ 1016
        let s := s.landV 3 o.d (BitVec.allOnes 64) (BitVec.ofNat 1024 v)
        if sr then s.pop else s } s

/-- The value of an MX code under a scale (R70, R72). -/
def mxValue (k c E : Nat) : FVal :=
  if E = 255 then FVal.dnan
  else
    let x := sext c k
    .fin (decide (x < 0)) x.natAbs ((E : Int) - 127 - ((k : Int) - 2))

/-- VUNPK.MX.k.d vD, vA{, h} (R214). -/
def execVunpkMx (o : OpVGdaf) (s : State) : Out :=
  let t := s.core
  let k := mxBits (o.f.val % 4)
  let isF := decide (4 ≤ o.f.val)
  let w := if isF then 32 else 16
  let first := if isF then 32 * extMod o.e else 0
  let a := t.vreg o.a
  issue (.vunpkMx o)
    { run := fun s => s.landV 3 o.d (BitVec.allOnes 64) (ofLanes w (fun j =>
        roundW w (rmOf t.spr.fmt) (satOf t.spr.fmt) (mxValue k (lane a (first + j) k) (lane a (126 + (first + j) / 32) 8)))) } s

/-! ## Transcendentals -/

/-- VEXP2 (R215). -/
def execVexp2 (o : OpVGdaf) (s : State) : Out := floatOut (.vexp2 o) 8 o.d o.f (fun j => fexp2 (s.core.flane (fltW o.f) o.a j)) s

/-- VLOG2 (R215). -/
def execVlog2 (o : OpVGdaf) (s : State) : Out := floatOut (.vlog2 o) 8 o.d o.f (fun j => flog2 (s.core.flane (fltW o.f) o.a j)) s

/-- VRCP (R215). -/
def execVrcp (o : OpVGdaf) (s : State) : Out := floatOut (.vrcp o) 8 o.d o.f (fun j => frcp (s.core.flane (fltW o.f) o.a j)) s

/-- VRSQ (R215). -/
def execVrsq (o : OpVGdaf) (s : State) : Out := floatOut (.vrsq o) 8 o.d o.f (fun j => frsq (s.core.flane (fltW o.f) o.a j)) s

/-- VTANH (R215). -/
def execVtanh (o : OpVGdaf) (s : State) : Out := floatOut (.vtanh o) 8 o.d o.f (fun j => ftanh (s.core.flane (fltW o.f) o.a j)) s

/-! ## Reductions -/

/-- The pairwise tree of R80 over 2^n lanes. -/
def reduceTree {α : Type} (op : α → α → α) : Nat → List α → List α
  | 0, l => l
  | n + 1, l => reduceTree op n ((l.take (2 ^ n)).zipWith op (l.drop (2 ^ n)))

/-- The tree over the lanes of a float width: 64 or 32 of them (R80). -/
def laneTree (w : Nat) (op : FVal → FVal → FVal) (l : List FVal) : FVal :=
  (reduceTree op (if w = 16 then 6 else 5) l).headD FVal.dnan

/-- The lanes of a register with the identity where the lane guard disables (R80, R204). -/
def guardedLanes (t : Tile) (i : Instr) (w a : Nat) (ident : FVal) : List FVal :=
  (List.range (lanesOf w)).map (fun j => if laneOn w ((guardOf i).mask t) j then t.flane w a j else ident)

/-- A NaN root is the default NaN (R80, R216). -/
def rootNan (v : FVal) : FVal := if v.isNan then FVal.dnan else v

/-- The addition of a reduction carried in FP32 (R216). -/
def treeAdd (fmt : Word) (a b : FVal) : FVal := fval (roundF (rmOf fmt) (satOf fmt) (fadd a b))

/-- A reduction's root in every lane of the destination, whatever the lane guard (R216). -/
def rootOut (i : Instr) (d f : Nat) (root : FVal) (s : State) : Out :=
  let fmt := s.core.spr.fmt
  issue i
    { run := fun s => s.landV 6 d (BitVec.allOnes 64)
        (let c := roundW (fltW f) (rmOf fmt) (satOf fmt) (rootNan root); ofLanes (fltW f) (fun _ => c)) } s

/-- VRSUM.t vD, vA (R216). -/
def execVrsum (o : OpVGdaf) (s : State) : Out :=
  let w := fltW o.f
  rootOut (.vrsum o) o.d o.f (laneTree w (treeAdd s.core.spr.fmt) (guardedLanes s.core (.vrsum o) w o.a (.fin true 0 0))) s

/-- VRMAX.t vD, vA (R216). -/
def execVrmax (o : OpVGdaf) (s : State) : Out :=
  let w := fltW o.f
  rootOut (.vrmax o) o.d o.f (laneTree w fmax (guardedLanes s.core (.vrmax o) w o.a (.inf true))) s

/-- VRMIN.t vD, vA (R216). -/
def execVrmin (o : OpVGdaf) (s : State) : Out :=
  let w := fltW o.f
  rootOut (.vrmin o) o.d o.f (laneTree w fmin (guardedLanes s.core (.vrmin o) w o.a (.inf false))) s

/-! ## Permutes -/

/-- VPERM.bW vD, vA, vB (R217). -/
def execVperm (o : OpVGdabf2) (s : State) : Out :=
  let w := intW o.f
  vecOut (.vperm o) 2 o.d w (fun i =>
    let j := s.core.ilane w o.b i
    if j < lanesOf w then s.core.ilane w o.a j else 0) s

/-- VZIP.bW vD, vA, vB{, h} (R217). -/
def execVzip (o : OpVGdabf2) (s : State) : Out :=
  let w := intW o.f
  vecOut (.vzip o) 2 o.d w (fun i =>
    let m := i / 2 + extMod o.e % 2 * (lanesOf w / 2)
    if i % 2 = 0 then s.core.ilane w o.a m else s.core.ilane w o.b m) s

/-- VUZP.bW vD, vA, vB{, o} (R217). -/
def execVuzp (o : OpVGdabf2) (s : State) : Out :=
  let w := intW o.f
  vecOut (.vuzp o) 2 o.d w (fun i =>
    let m := 2 * i + extMod o.e % 2
    if m < lanesOf w then s.core.ilane w o.a m else s.core.ilane w o.b (m - lanesOf w)) s

/-- VROT.bW vD, vA, u (R218). -/
def execVrot (o : OpVGdauf) (s : State) : Out :=
  let w := intW o.f
  vecOut (.vrot o) 2 o.d w (fun i => s.core.ilane w o.a ((i + (extMod o.e * 64 + o.u.val)) % lanesOf w)) s

/-- VBCST.bW vD, vA, u (R218). -/
def execVbcst (o : OpVGdauf) (s : State) : Out :=
  let w := intW o.f
  vecOut (.vbcst o) 2 o.d w (fun _ => s.core.ilane w o.a (extMod o.e * 64 + o.u.val)) s

/-- VTRN vD, vA: eight 8 x 8 tiles of 16-bit lanes transposed across an octet of registers (R219). -/
def execVtrn (o : OpVGda) (s : State) : Out :=
  let t := s.core
  let ns := (List.range 8).map (fun c => physV t.spr.rotw (o.d.val + c))
  issue (.vtrn o)
    { run := fun s =>
        let vs := (List.range 8).map (fun c => ofLanes 16 (fun i => lane (t.vreg (o.a.val + i % 8)) (i / 8 * 8 + c) 16))
        s.land 4 (.octet ns vs) } s

/-! ## Moves and checks -/

/-- VMOV.bW vD, vA (R232). -/
def execVmov (o : OpVGdaf2) (s : State) : Out :=
  let v := s.core.vreg o.a
  issue (.vmov o) { run := fun s' => s'.landV 1 o.d (pairsOf (intW o.f) ((guardOf (.vmov o)).mask s.core)) v } s

/-- The immediate of VLI: sext(E, I) over 21 bits, 13 without a header (R93, R232). -/
def vliImm (o : OpVGdwi) : Int := if o.h.val = 1 then sext (o.e.val * 8192 + o.i.val) 21 else sext o.i 13

/-- VLI.bW vD, imm (R232). -/
def execVli (o : OpVGdwi) (s : State) : Out :=
  let w := intW o.w
  vecOut (.vli o) 1 o.d w (fun _ => wrap w (vliImm o)) s

/-- XS2V.bW vD, sA (R233). -/
def execXs2v (o : OpVGdaf2) (s : State) : Out :=
  let w := intW o.f
  let a := (s.core.sreg o.a).toNat
  vecOut (.xs2v o) 3 o.d w (fun _ => a) s

/-- XM2Q.bW qD, mA: whether any bit of the mask within the lane count is set (R233). -/
def execXm2q (o : OpVGdaf2) (s : State) : Out :=
  let w := intW o.f
  let c := if w = 8 then 64 else lanesOf w
  let v := bits (s.core.mask o.a).toNat 0 c != 0
  issue (.xm2q o) { run := fun s => s.landQ 2 o.d v } s

/-- CHK.V vA (R234). -/
def execChkV (o : OpVGa) (s : State) : Out :=
  issue (.chkV o) { twin := if s.core.vreg o.a != s.core.regs.twinV then some 0 else none } s

end Sys2Proof.Machine
end

