-- ==== Sys2Proof/Machine/Pendant.lean ====
section
/-! DEFINITION. The Pendant solver sequencer: tableaus, jobs, samples, batches and decisions (R425 to R447). -/

namespace Sys2Proof.Machine

/-! ## Its accesses -/

/-- How a Pendant operation ends: with a value, in a wait for a route or for FRES, or in an access that has failed, with the record
error code that tells why (R355, R445). -/
inductive PRes (α : Type) where
  | got (v : α) (s : State)
  | wait (s : State)
  | bad (code : Nat) (s : State)

/-- What comes after an operation that has ended with a value. -/
def PRes.andThen {α β : Type} (x : PRes α) (f : α → State → PRes β) : PRes β :=
  match x with | .got v s => f v s | .wait s => .wait s | .bad c s => .bad c s

/-- What comes instead of an operation whose access has failed. -/
def PRes.orBad {α : Type} (x : PRes α) (f : State → PRes α) : PRes α :=
  match x with | .got v s => .got v s | .wait s => .wait s | .bad _ s => f s

/-- A change made to a die's Pendant. -/
def State.onPend (s : State) (d : Nat) (f : Pend → Pend) : State := s.onDie d (fun x => { x with pend := f x.pend })

/-- The marks of ended accesses dropped: the operation that they were of has ended (R445). -/
def State.unmark (s : State) (d : Nat) : State := if (s.die d).pend.ended = [] then s else s.onPend d (fun p => { p with ended := [] })

/-- The operation whose access has just come to wait for FRES (R445). -/
def State.waits (s : State) (d : Nat) (op : PendOp) : State :=
  if (s.die d).pend.held.isSome then s.onPend d (fun p => { p with what := some op }) else s

/-- The state that an operation of the Pendant leaves: it ends with a value, or fails, or waits. -/
def PRes.after {α : Type} (x : PRes α) (d : Nat) (op : PendOp) (got : α → State → State) (bad : Nat → State → State) : State :=
  match x with | .got v s => got v (s.unmark d) | .bad c s => bad c (s.unmark d) | .wait s => s.waits d op

/-- The access among some that lies in n bytes at a located DIA from an offset. -/
def endedAt (ended : List (Nat × Nat × Nat)) (l off n : Nat) : Option (Nat × Nat × Nat) :=
  ended.find? (fun a => a.1 == locCls l && a.2.1 == locTgt l && decide (locDia l + off ≤ a.2.2) && decide (a.2.2 < locDia l + off + n))

/-- An access that did not come to be: a fault holds the combiner (R348, R445). -/
def pendErr {α : Type} (s : State) (d acc : Nat) (e : LocErr) : PRes α :=
  match e with
  | .wait => .wait s
  | .poison => .bad 6 s
  | .fault m cls tgt dia reason =>
    let (seq, s) := faultRec s m
      { cls := cls, tgt := tgt, dia := dia, va := 0, reason := reason, acc := acc, agent := 4, ch := 0, tile := 0, die := d }
    .wait (s.onPend d (fun p => { p with held := some (m, seq), fault := (cls, tgt, dia) }))

/-- An access of n bytes at a located DIA, unless FRES has ended it: then it fails, once (R349, R445). -/
def pendTry {α : Type} (s : State) (d l off n : Nat) (f : PRes α) : PRes α :=
  match endedAt (s.die d).pend.ended l off n with
  | some a => .bad 4 (s.onPend d (fun p => { p with ended := p.ended.erase a }))
  | none => f

/-- n words read at a located DIA. -/
def pendRead (s : State) (d l off n : Nat) : PRes Nat :=
  pendTry s d l off (8 * n)
    (match locRead s d l off n with
     | (.ok v, s') => .got v s'
     | (.error e, s') => pendErr s' d 0 e)

/-- Words written at a located DIA, all of them or none. -/
def pendWrite (s : State) (d l off : Nat) (ws : List Nat) : PRes Unit :=
  pendTry s d l off (8 * ws.length)
    (match locWrite s d l off ws with
     | (none, s') => .got () s'
     | (some e, _) => pendErr s d 1 e)

/-- 32-bit elements written at a located DIA: a sector that they fill at once, else one after another (R327). -/
def locWrite32 (s : State) (d l : Nat) : Nat → List Nat → Option LocErr × State
  | _, [] => (none, s)
  | off, a :: b :: c :: e :: f :: g :: h :: i :: xs =>
    match locPlace s d l off true with
    | (.error r, s') => (some r, s')
    | (.ok k, s') =>
      if k % 32 = 0 then
        match locPut s' k 32 (packFields 32 (fun m => [a, b, c, e, f, g, h, i].getD m 0) 8) with
        | some s'' => locWrite32 s'' d l (off + 32) xs
        | none => (some .wait, s')
      else
        match locPut s' k 4 a with
        | some s'' => locWrite32 s'' d l (off + 4) (b :: c :: e :: f :: g :: h :: i :: xs)
        | none => (some .wait, s')
  | off, x :: xs =>
    match locPlace s d l off true with
    | (.error r, s') => (some r, s')
    | (.ok k, s') =>
      match locPut s' k 4 x with
      | some s'' => locWrite32 s'' d l (off + 4) xs
      | none => (some .wait, s')

/-- FP32 elements written at a located DIA, all of them or none. -/
def pendWrite32 (s : State) (d l off : Nat) (xs : List Nat) : PRes Unit :=
  pendTry s d l off (4 * xs.length)
    (match locWrite32 s d l off xs with
     | (none, s') => .got () s'
     | (some e, _) => pendErr s d 1 e)

/-- The codes of n FP32 elements read at a located DIA. -/
def pendCodes (s : State) (d l off n : Nat) : PRes (List Nat) :=
  (pendRead s d l off ((n + 1) / 2)).andThen (fun v s => .got ((List.range n).map (fun i => bits v (32 * i) 32)) s)

/-- n FP32 elements read at a located DIA. -/
def pendFloats (s : State) (d l off n : Nat) : PRes (List FVal) :=
  (pendCodes s d l off n).andThen (fun cs s => .got (cs.map fval) s)

/-! ## Arithmetic -/

/-- rn(s + a x k), fused (R425). -/
def pfma (s a k : FVal) : FVal := if s.isNan then rn s else rn (ffma false false a k s)

/-- A code other than +0 and -0 (R427). -/
def nz (c : Nat) : Bool := c % 2147483648 != 0

/-- The FP32 code of a value already rounded. -/
def codeOf (v : FVal) : Nat := roundF .rne false v

/-- The FP32 code at a byte offset of a tableau image (R426). -/
def tabCode (img : List Nat) (off : Nat) : Nat := bits (img.getD (off / 8) 0) (8 * (off % 8)) 32

/-- NST of a tableau. -/
def tabNst (img : List Nat) : Nat := bits (img.getD 0 0) 0 3 + 1

/-- a(i, j). -/
def tabA (img : List Nat) (i j : Nat) : Nat := tabCode img (0x40 + 32 * i + 4 * j)

/-- b(j). -/
def tabB (img : List Nat) (j : Nat) : Nat := tabCode img (0x140 + 4 * j)

/-- b-hat(j). -/
def tabBh (img : List Nat) (j : Nat) : Nat := tabCode img (0x160 + 4 * j)

/-- c(i). -/
def tabC (img : List Nat) (i : Nat) : Nat := tabCode img (0x180 + 4 * i)

/-- d(j) := rn(b(j) - b-hat(j)) (R427). -/
def tabD (img : List Nat) (j : Nat) : Nat := codeOf (fsub (fval (tabB img j)) (fval (tabBh img j)))

/-- The code with which a tableau image fails, 0 if it does not (R427). -/
def tabBad (img : List Nat) : Nat :=
  let h := img.getD 0 0
  let n := tabNst img
  let r8 := List.range 8
  let rsv (lo hi : Nat) : Bool := (List.range (hi - lo)).any (fun i => img.getD (lo + i) 0 != 0)
  let inf (c : Nat) : Bool := (fval c).notFinite
  let fsal := bit h 4
  if bit h 3 ∨ bits h 5 3 ≠ 0 ∨ bits h 12 52 ≠ 0 ∨ rsv 1 8 ∨ rsv 52 64 then 2
  else if r8.any (fun i => r8.any (fun j => inf (tabA img i j)) || inf (tabB img i) || inf (tabBh img i) || inf (tabC img i)) ∨
      r8.any (fun i => r8.any (fun j => i ≤ j && nz (tabA img i j))) ∨
      r8.any (fun i => n ≤ i && (r8.any (fun j => nz (tabA img i j)) || nz (tabB img i) || nz (tabBh img i) || nz (tabC img i))) ∨
      bits h 8 4 = 0 ∨ 7 < bits h 8 4 ∨
      (fsal ∧ (n < 2 ∨ nz (tabB img (n - 1)) ∨ tabC img (n - 1) ≠ 0x3F800000 ∨ r8.any (fun j => tabA img (n - 1) j != tabB img j))) then 3
  else 0

/-! ## Jobs -/

/-- Word i of a job's descriptor. -/
def Job.w (j : Job) (i : Nat) : Nat := j.desc.getD i 0

/-- A field of a job's descriptor. -/
def Job.f (j : Job) (i lo n : Nat) : Nat := bits (j.w i) lo n

/-- Elements of a sample. -/
def Job.dim (j : Job) : Nat := j.f 2 0 32

/-- P: bytes of n elements, a multiple of 64 (R432). -/
def padBytes (n : Nat) : Nat := 64 * ((n + 15) / 16)

/-- The slots of a job, rising. -/
def Job.slots (j : Job) : List Nat := (List.range (j.f 2 44 12 + 1)).map (fun i => j.f 2 32 12 + i)

/-- A job of a die. -/
def pjob (s : State) (d j : Nat) : Job := (s.die d).pend.jobs.getD j Job.reset

/-- The state with a job replaced. -/
def setJob (s : State) (d j : Nat) (x : Job) : State := s.onPend d (fun p => { p with jobs := p.jobs.setIfInBounds j x })

/-- A sample of a die. -/
def psample (s : State) (d k : Nat) : Sample := mget Sample.reset (s.die d).pend.samples k

/-- The state with a sample replaced. -/
def setSample (s : State) (d k : Nat) (x : Sample) : State := s.onPend d (fun p => { p with samples := mset p.samples k x })

/-- The tableau of a job. -/
def jobTab (s : State) (d : Nat) (j : Job) : List Nat := mget [] (s.die d).pend.slots (j.f 0 2 3)

/-- Free slots of a job. -/
def freeSlots (s : State) (d : Nat) (j : Job) : List Nat := j.slots.filter (fun k => (psample s d k).sst == 0)

/-- A job leaves RUN for DRAIN with an end status; the status set first stays (R431). -/
def drainJob (s : State) (d j st : Nat) : State :=
  let x := pjob s d j
  let x := { x with endStatus := if x.endStatus.isNone then some st else x.endStatus }
  setJob s d j (if x.st = 1 then { x with st := 2 } else x)

/-- A sample is to retire with a status (R442, R443). -/
def endSample (s : State) (d k st dstat : Nat) : State :=
  let x := psample s d k
  let j := pjob s d x.job
  let s := setSample s d k { x with sst := 3, fin := some st, dstat := dstat }
  setJob s d x.job (if st = 1 then { j with finished := j.finished + 1 } else { j with failedN := j.failedN + 1 })

/-- A batch fails: its samples take status 0x05 with DSTAT, and its buffer is free (R444). -/
def failBatch (s : State) (d j : Nat) (b : Batch) (dstat : Nat) : State :=
  let x := pjob s d j
  let s := setJob s d j { x with batches := x.batches.filter (fun c => c.buf != b.buf) }
  b.slots.foldl (fun s p => endSample s d p.2 5 dstat) s

/-- The Pendant of a die works, and no fault holds its combiner (R420, R445). -/
def pendUp (s : State) (d : Nat) : Bool := s.claspUp (4 * d + 2) && bit (s.hub.rdy.getD d 0) 3 && (s.die d).pend.held.isNone

/-- An operation whose access FRES has ended is still to fail: a record while it stands at the head of its queue (R367, R445). -/
def pendOwes (s : State) (d : Nat) : Bool :=
  let p := (s.die d).pend
  p.ended != [] &&
    (match p.what with
     | some (.record q) =>
       let x := s.queue q
       x.state == 1 && x.placed == 1 && (match x.head with | some w => recKind w == 4 | none => false)
     | w => w.isSome)

/-- The state in which an operation of a die's Pendant may be made, or none: the Pendant works, no fault holds it, and no other operation
has still to fail (R420, R445). -/
def pendFree (s : State) (d : Nat) (op : Option PendOp) : Option State :=
  if !pendUp s d then none
  else if !pendOwes s d then some (s.unmark d)
  else if (s.die d).pend.what = op then some s
  else none

/-- A Pendant step on the die of operand 0. -/
def pendStep (s : State) (op : Option PendOp) (f : State → Nat → State) : Out :=
  dieStep s (fun d => match pendFree s d op with | some s => f s d | none => s)

/-- A Pendant step on the job of operand 1. -/
def jobStep (s : State) (op : Nat → Option PendOp) (f : State → Nat → Nat → Job → State) : Out :=
  if 4 ≤ s.arg 1 then .fault (.noSuchAgent (s.arg 1))
  else pendStep s (op (s.arg 1)) (fun s d => f s d (s.arg 1) (pjob s d (s.arg 1)))

/-- The place of the first failure notice of a die's Pendant that a route leads on (R461). -/
def nextTold (s : State) (d : Nat) : Option Nat :=
  lfind (fun p : Nat × Nat × Nat => noticeGoes s p.1 d (bits p.2.1 27 5)) (s.die d).pend.notices

/-- The first sample that has every stage and is not decided: its decision waited, or a one-stage tableau's decides again (R440). -/
def Pend.undecided (p : Pend) : Option Nat := (p.samples.find? (fun k => k.2.sst == 3 && k.2.fin.isNone)).map (·.1)

/-- Decisions, returned beads and failure notices come before every other input of a Pendant (R431). -/
def beadsBack (s : State) (d : Nat) : Bool :=
  let p := (s.die d).pend
  p.undecided.isSome || !p.inbox.isEmpty || (nextTold s d).isSome

/-! ## Records -/

/-- A PENDANT record on the queue of operand 0; its failed accesses fail the record (R355, R428). One that waits on a fault record is in
progress, which its queue's placed count marks (R447). -/
def pendRec (s : State) (op : Nat) (f : State → Nat → Nat → Nat → PRes Unit) : Out :=
  recStep s 4 op (fun s q w =>
    let d := q / 1024
    match pendFree s d (some (.record q)) with
    | none => s
    | some s =>
      if beadsBack s d && !pendOwes s d then s
      else
        let s := (f s q d w).after d (.record q) (fun _ s => s) (fun c s => failQueue s q c)
        if (s.die d).pend.held.isSome then s.setQueue q { s.queue q with placed := 1 } else s)

/-- A PENDANT record of the die is next: it comes before admissions and batches (R431). -/
def recordsDue (s : State) (d : Nat) : Bool :=
  (s.die d).queues.any (fun p =>
    match p.2.head with
    | some w => recKind w == 4 && unhindered s d w && (ready s (1024 * d + p.1) 4 (recOp w)).isSome
    | none => false)

/-- A tableau slot that a job in RUN, DRAIN or ABORTING uses (R428). -/
def slotInUse (s : State) (d slot : Nat) : Bool := (s.die d).pend.jobs.toList.any (fun j => j.st != 0 && j.f 0 2 3 == slot)

/-- PENDANT_LOADTAB (R427, R428). -/
def execPendantLoadtab (s : State) : Out :=
  pendRec s 0 (fun s q d w =>
    let slot := recWord w 2
    if slotInUse s d slot then .got () (failQueue s q 3)
    else
      (pendRead s d (recWord w 1) 0 64).andThen (fun v s =>
        let img := (List.range 64).map (fun i => bits v (64 * i) 64)
        if tabBad img ≠ 0 then .got () (failQueue s q (tabBad img))
        else .got () (runRec (s.onPend d (fun p => { p with slots := mset p.slots slot img })) q 0 0)))

/-- A reserved bit of a job descriptor is set (R429). -/
def descRsv (v : List Nat) : Bool :=
  let w (i : Nat) := v.getD i 0
  bits (w 0) 6 2 != 0 || bits (w 0) 14 2 != 0 || bits (w 0) 19 5 != 0 || bits (w 0) 32 32 != 0 || bits (w 1) 15 49 != 0 ||
    bits (w 2) 56 8 != 0 || bits (w 14) 32 32 != 0 || w 15 != 0 || (List.range 7).any (fun i => bits (w (7 + i)) 59 5 != 0)

/-- What START refuses of a descriptor on a die (R430). -/
def startBad (s : State) (d : Nat) (v : List Nat) : Bool :=
  let j : Job := { Job.reset with desc := v }
  let fl (i lo : Nat) : FVal := fval (j.f i lo 32)
  let one := FVal.fin false 1 0
  let clash (k : Nat) : Bool :=
    let o := pjob s d k
    k != j.f 0 0 2 && o.st != 0 && decide (j.f 2 32 12 ≤ o.f 2 32 12 + o.f 2 44 12) && decide (o.f 2 32 12 ≤ j.f 2 32 12 + j.f 2 44 12)
  let al (i : Nat) : Nat := if i = 7 ∨ i = 8 ∨ i = 11 then 64 else 8
  (pjob s d (j.f 0 0 2)).st != 0 || (jobTab s d j).isEmpty || (List.range 4).any clash ||
    decide (12 < j.f 0 24 4) || decide (12 < j.f 0 28 4) || j.dim == 0 || decide (16777216 < j.dim) ||
    decide (4096 < j.f 2 32 12 + j.f 2 44 12 + 1) || (List.range 7).any (fun i => locBad (j.w (7 + i)) (al (7 + i)) 2 != 0) ||
    [fl 3 0, fl 3 32, fl 4 0, fl 4 32, fl 5 0, fl 5 32, fl 6 0].any (·.notFinite) ||
    !fless (.fin false 0 0) (fl 3 32) || fless one (fl 3 32) || fless (fl 4 0) one || !fless (.fin false 0 0) (fl 3 0) || fless one (fl 3 0) ||
    (fl 6 0).isNeg || (fl 4 32).isNeg || (fl 5 0).isNeg || (fl 5 32).isNeg

/-- PENDANT_START: the descriptor is read and checked, the counts taken over, and the job enters RUN (R430). -/
def execPendantStart (s : State) : Out :=
  pendRec s 1 (fun s q d w =>
    (pendRead s d (recWord w 1) 0 16).andThen (fun v s =>
      let desc := (List.range 16).map (fun i => bits v (64 * i) 64)
      if descRsv desc then .got () (failQueue s q 2)
      else if startBad s d desc then .got () (failQueue s q 3)
      else
        let x : Job := { Job.reset with desc := desc }
        (pendRead s d (x.w 9) 0 1).andThen (fun rc s => (pendRead s d (x.w 12) 0 1).andThen (fun cc s =>
          (pendWrite s d (x.w 10) 0 [rc]).andThen (fun _ s =>
            let n := (s.queue q).nid
            .got () (setJob (startRec s q 0) d (x.f 0 0 2) { x with st := 1, rcount := rc, ccount := cc, due := true, startRec := (q, n) }))))))

/-- PENDANT_STOP (R431). -/
def execPendantStop (s : State) : Out :=
  pendRec s 2 (fun s q d w =>
    let j := recWord w 1
    .got () (runRec (if (pjob s d j).st = 1 then drainJob s d j 0 else s) q 0 0))

/-- PENDANT_ABORT (R431). -/
def execPendantAbort (s : State) : Out :=
  pendRec s 3 (fun s q d w =>
    let j := recWord w 1
    let x := pjob s d j
    if x.st = 0 then .got () (runRec s q 0 0)
    else
      let n := (s.queue q).nid
      let st := if x.endStatus.isNone then some 1 else x.endStatus
      .got () (setJob (startRec s q 0) d j { x with st := 3, endStatus := st, abortRecs := x.abortRecs ++ [(q, n)] }))

/-- The eight words of a sample-table entry (R432). -/
def Sample.words (x : Sample) : List Nat :=
  [x.t + 2 ^ 32 * x.h, x.tend + 2 ^ 32 * x.err, x.state, x.hist, x.nacc + 2 ^ 32 * x.nrej, x.atol + 2 ^ 32 * x.rtol,
   x.tag * 2 ^ 32 + x.k0 * 2 ^ 24 + x.stg % 8 * 2 ^ 18 + x.job * 2 ^ 16 + x.dstat * 2 ^ 8 + x.sst, 0]

/-- PENDANT_READ: the job status block, then the job's entries in slot order (R412, R428). -/
def execPendantRead (s : State) : Out :=
  pendRec s 4 (fun s q d w =>
    let x := pjob s d (recWord w 1)
    let s := x.slots.foldl (fun s k => s.corrects (.sample d k)) s
    let ws := [x.st, x.admitted, x.finished, x.failedN, x.accN, x.rejN, x.batches.length, s.hub.gtc] ++
      (x.slots.map (fun k => (psample s d k).words)).flatten
    (pendWrite s d (recWord w 2) 0 ws).andThen (fun _ s => .got () (runRec s q 0 0)))

/-! ## Admissions -/

/-- The step length of the step that begins, and whether it is the last (R435). -/
def Sample.startStep (x : Sample) : Sample :=
  let dt := rn (fsub (fval x.tend) (fval x.t))
  let last := !fless (fval x.h) dt
  { x with isLast := last, hs := if last then codeOf dt else x.h }

/-- An admission record that the Pendant rejects (R433). -/
def admitBad (r : Nat) : Bool :=
  let w (i : Nat) := recWord r i
  let fl (i lo : Nat) : FVal := fval (bits (w i) lo 32)
  bits (w 0) 1 31 != 0 || bits (w 2) 32 32 != 0 || w 6 != 0 || w 7 != 0 || [fl 1 0, fl 1 32, fl 2 0].any (·.notFinite) ||
    !fless (.fin false 0 0) (fl 2 0) || !fless (fl 1 0) (fl 1 32) || locBad (w 3) 64 2 != 0 || locBad (w 4) 64 2 != 0 ||
    (bit (w 0) 0 && ((fl 5 0).notFinite || (fl 5 32).notFinite || (fl 5 0).isNeg || (fl 5 32).isNeg))

/-- One admission record taken in: into the lowest free slot, or retired at once (R433). -/
def admitOne (s : State) (d j r : Nat) : State :=
  let x := pjob s d j
  let w (i : Nat) := recWord r i
  let x := { x with rcount := (x.rcount + 1) % 2 ^ 64, dirty := true }
  if admitBad r then setJob s d j { x with rejects := x.rejects ++ [bits (w 0) 32 32], failedN := x.failedN + 1 }
  else
    match freeSlots s d x with
    | k :: _ =>
      let tol := bit (w 0) 0
      let y : Sample :=
        { Sample.reset with
          sst := 1, t := bits (w 1) 0 32, tend := bits (w 1) 32 32, h := bits (w 2) 0 32, state := w 3, hist := w 4,
          atol := if tol then bits (w 5) 0 32 else x.f 5 0 32, rtol := if tol then bits (w 5) 32 32 else x.f 5 32 32,
          tag := bits (w 0) 32 32, job := j }
      setJob (setSample s d k y.startStep) d j { x with admitted := x.admitted + 1 }
    | [] => s

/-- Up to n admissions in count order, one per free slot (R434). -/
def admitRun (d j : Nat) : Nat → State → PRes Unit
  | 0, s => .got () s
  | n + 1, s =>
    let x := pjob s d j
    if (freeSlots s d x).isEmpty then .got () s
    else
      (pendRead s d (x.w 8) (64 * (x.rcount % 2 ^ (x.f 0 24 4 + 4))) 8).andThen (fun r s => admitRun d j n (admitOne s d j r))

/-- The read count written to SRCNT; a failure is the job's (R434, R445). -/
def writeCount (s : State) (d j : Nat) : State :=
  let x := pjob s d j
  let clean (s : State) : State := setJob s d j { pjob s d j with dirty := false }
  (pendWrite s d (x.w 10) 0 [x.rcount]).after d (.admits j) (fun _ s => clean s) (fun _ s => drainJob (clean s) d j 3)

/-- How a group of admissions ends: the read count is written unless the combiner is held; a record whose read waits is read on later, a
failed read is the job's (R431, R434, R445). -/
def endGroup (d j : Nat) (r : PRes Unit) : State :=
  let s := match r with
    | .got _ s => setJob (s.unmark d) d j { pjob s d j with due := false }
    | .wait s => setJob (s.waits d (.admits j)) d j { pjob s d j with reading := true, due := false }
    | .bad _ s => drainJob (s.unmark d) d j 3
  let p := (s.die d).pend
  if (pjob s d j).dirty && p.held.isNone && p.ended.isEmpty then writeCount s d j else s

/-- SWC is read while a slot is free; an overrun drains the job, else records are admitted (R433, R434). -/
def pollSwc (s : State) (d j : Nat) : State :=
  let x := pjob s d j
  (pendRead s d (x.w 9) 0 1).after d (.admits j)
    (fun swc s =>
      let dist := (swc + 2 ^ 64 - x.rcount) % 2 ^ 64
      if 2 ^ (x.f 0 24 4 + 4) < dist then drainJob s d j 2 else endGroup d j (admitRun d j (Nat.min dist 4096) s))
    (fun _ s => drainJob s d j 3)

/-- PENDANT_SWC_POLL: a read count still owed is written; an admission already being read completes, in any state of the job; else a job in
RUN polls SWC; returned beads and records come before (R431, R433, R434, R445). -/
def execPendantSwcPoll (s : State) : Out :=
  jobStep s (fun j => some (.admits j)) (fun s d j x =>
    let owed := (s.die d).pend.ended
    if x.st = 0 ∨ (owed = [] ∧ (beadsBack s d ∨ recordsDue s d)) then s
    else if x.dirty ∧ (x.reading = false ∨ owed = [] ∨ (endedAt owed (x.w 10) 0 8).isSome) then writeCount s d j
    else if x.reading then endGroup d j (admitRun d j 1 (setJob s d j { x with reading := false }))
    else if x.st ≠ 1 ∨ (freeSlots s d x).isEmpty then s
    else pollSwc s d j)

/-! ## Batches -/

/-- The sums of a(i, j) k(j, n) or b(j) k(j, n) over the stages: coefficients and their k values (R435, R439). -/
def stageSum (cs : List (Nat × List FVal)) (n : Nat) : FVal :=
  cs.foldl (fun s p => if nz p.1 then pfma s (fval p.1) (p.2.getD n FVal.dnan) else s) (.fin false 0 0)

/-- The k values of stages 0 to m - 1 of a sample (R432). -/
def readStages (d : Nat) (x : Sample) (dim nst : Nat) : Nat → State → PRes (List (List FVal))
  | 0, s => .got [] s
  | m + 1, s =>
    (readStages d x dim nst m s).andThen (fun ks s =>
      (pendFloats s d x.hist ((x.k0 + m) % nst * padBytes dim) dim).andThen (fun k s => .got (ks ++ [k]) s))

/-- The input record of stage i of a sample: slot and stage, t(i) and hs, and from byte 64 the values Y(i, n); what the record holds
elsewhere is free (R435, R436; log A31). -/
def inputRecord (s : State) (d k : Nat) (j : Job) : PRes (List Nat) :=
  let x := psample s d k
  let img := jobTab s d j
  let i := x.stg
  let hs := fval x.hs
  (pendCodes s d x.state 0 j.dim).andThen (fun y s =>
    (readStages d x j.dim (tabNst img) i s).andThen (fun ks s =>
      let cs := (List.range i).map (fun m => (tabA img i m, ks.getD m []))
      let out (n : Nat) : Nat := if i = 0 then y.getD n 0 else codeOf (pfma (fval (y.getD n 0)) hs (stageSum cs n))
      let t := codeOf (pfma (fval x.t) (fval (tabC img i)) hs)
      let fr (m w : Nat) : Nat := Config.freeNat (s.free + m) % 2 ^ w
      let body (n : Nat) : Nat := if n < j.dim then out n else fr (8 + n - j.dim) 32
      let words := (List.range (padBytes j.dim / 8)).map (fun m => body (2 * m) + 2 ^ 32 * body (2 * m + 1))
      .got ([k + i * 2 ^ 12 + fr 0 49 * 2 ^ 15, t + 2 ^ 32 * x.hs, fr 2 64, fr 3 64, fr 4 64, fr 5 64, fr 6 64, fr 7 64] ++ words)
        { s with free := s.free + 24 }))

/-- The samples that a job's next batch takes (R436). -/
def batchSlots (s : State) (d : Nat) (j : Job) : List Nat :=
  let ready := j.slots.filter (fun k => (psample s d k).sst == 1)
  match ready with
  | [] => []
  | k :: _ => (ready.filter (fun m => (psample s d m).stg == (psample s d k).stg)).take (j.f 0 8 6 + 1)

/-- How the forming of a batch ends: written, or stopped by a sample whose data failed, or by the buffer. -/
inductive Formed where
  | done
  | sample (k : Nat)
  | buffer

/-- The input records of a batch written one after another from a place of its buffer (R436, R445). -/
def writeInputs (d base ri : Nat) (j : Job) : List Nat → Nat → State → PRes Formed
  | [], _, s => .got .done s
  | k :: ks, m, s =>
    match inputRecord s d k j with
    | .wait s => .wait s
    | .bad _ s => .got (.sample k) s
    | .got r s =>
      match pendWrite s d (j.w 7) (base + m * ri) r with
      | .wait s => .wait s
      | .bad _ s => .got .buffer s
      | .got _ s => writeInputs d base ri j ks (m + 1) s

/-- A job of the die has an admission to make or a slot for which it has still to look for one (R431, R434). -/
def admissionsDue (s : State) (d : Nat) : Bool :=
  (s.die d).pend.jobs.toList.any (fun x => x.reading ||
    (x.st == 1 && x.due && !(freeSlots s d x).isEmpty && reachable s d (x.w 9) false))

/-- BATCH_FORMATION: a job in RUN or DRAIN with a free input buffer forms a batch, after returned beads, records and admissions; a sample
whose data failed retires instead, and a failed buffer fails the whole batch (R412, R431, R436, R445). -/
def execBatchFormation (s : State) : Out :=
  jobStep s (fun j => some (.batch j)) (fun s d j x =>
    let ks := batchSlots s d x
    let buf := (List.range (x.f 0 16 3 + 1)).find? (fun b => x.batches.all (fun c => c.buf != b))
    match buf with
    | none => s
    | some b =>
      if ks = [] ∨ ¬(x.st = 1 ∨ x.st = 2) ∨
          ((s.die d).pend.ended = [] ∧ (beadsBack s d ∨ recordsDue s d ∨ admissionsDue s d)) then s
      else
        let ri := 64 + padBytes x.dim
        let s := ks.foldl (fun s k => s.corrects (.sample d k)) s
        (writeInputs d (b * (x.f 0 8 6 + 1) * ri) ri x ks 0 s).after d (.batch j) (fun r s =>
          match r with
          | .done =>
            let s := ks.foldl (fun s k => setSample s d k { psample s d k with sst := 2 }) s
            setJob s d j { x with
            seq := x.seq + 1,
            batches := x.batches ++ [{ buf := b, seq := x.seq % 2 ^ 18, stage := (psample s d (ks.headD 0)).stg, ns := ks.length,
                                       psb := ks.headD 0, slots := (List.range ks.length).zip ks, tick := 0, released := false,
                                       lost := false }] }
          | .sample k => endSample s d k 6 0
          | .buffer => ks.foldl (fun s k => endSample s d k 5 0xF8) s) (fun _ s => s))

/-- The BID of a batch (R437). -/
def batchBid (s : State) (d j : Nat) (b : Batch) : Nat :=
  fld s.hub.prcfg 0 5 * 2 ^ 27 + d * 2 ^ 23 + j * 2 ^ 21 + b.buf * 2 ^ 18 + b.seq

/-- A located DIA moved on by a number of bytes. -/
def locAdd (l n : Nat) : Nat := l / 2 ^ 52 * 2 ^ 52 + (l + n) % 2 ^ 52

/-- PENDANT_BEAD_RELEASE: a bead of the Pendant that waited for its peer port leaves; else the first batch whose records have been written
leaves as a bead for the first stage. DESIGN CHOICE: while the scheduler of the die is broken it stays with the Pendant (R419, R420, R437,
R470; log 62). -/
def execPendantBeadRelease (s : State) : Out :=
  jobStep s (fun _ => none) (fun s d j x =>
    match peerReady s d 4096, x.batches.find? (fun b => !b.released) with
    | some k, _ => s.onDie d (fun z => { z with transit := ldel z.transit k })
    | none, none => s
    | none, some b =>
      if !s.claspUp (4 * d + 1) then s else
      let ri := 64 + padBytes x.dim
      let bead := batchBid s d j b * 2 ^ 32 + 2 ^ 64 * (3 * 2 ^ 24 + b.ns * 2 ^ 32) + 2 ^ 128 * x.f 1 0 15 +
        2 ^ 192 * locAdd (x.w 7) (b.buf * (x.f 0 8 6 + 1) * ri) + 2 ^ 256 * (b.ns * ri) +
        2 ^ 320 * (b.stage * 2 ^ 12 + b.psb)
      let s := setJob s d j { x with batches := x.batches.map (fun c => if c.buf = b.buf then { c with released := true, tick := s.hub.gtc } else c) }
      sendBead s d 4096 bead)

/-! ## Decisions -/

/-- The error norm of a step and the new y (R439). -/
def stepNorm (x : Sample) (img : List Nat) (dim : Nat) (y : List FVal) (ks : List (List FVal)) : FVal × List FVal :=
  let hs := fval x.hs
  let idx := List.range (tabNst img)
  let bs := idx.map (fun j => (tabB img j, ks.getD j []))
  let ds := idx.map (fun j => (tabD img j, ks.getD j []))
  let yv (n : Nat) := y.getD n FVal.dnan
  let yn := (List.range dim).map (fun n => pfma (yv n) hs (stageSum bs n))
  let r (n : Nat) : FVal :=
    let scale := pfma (fval x.atol) (fval x.rtol) (fmax (fabs (yv n)) (fabs (yn.getD n FVal.dnan)))
    rn (fdiv (rn (fmul hs (stageSum ds n))) scale)
  let lane (l : Nat) : FVal :=
    ((List.range dim).filter (fun n => n % 256 == l)).foldl (fun p n => pfma p (r n) (r n)) (.fin false 0 0)
  let root := (reduceTree (fun a b => rn (fadd a b)) 8 ((List.range 256).map lane)).headD FVal.dnan
  (rn (fsqrt (rn (fdiv root (ofInt dim)))), yn)

/-- A decision on the error norm: the sample with its new time, step and counts, whether it accepts, and the status with which it
retires, if it does (R439, R440). -/
def decideStep (x : Sample) (j : Job) (img : List Nat) (err : FVal) : Sample × Bool × Option Nat :=
  let fl (i lo : Nat) : FVal := fval (j.f i lo 32)
  let one := FVal.fin false 1 0
  let hs := fval x.hs
  let acc := !fless one err
  let g := rn (fexp2 (rn (fdiv (fneg (rn (flog2 err))) (ofInt (bits (img.getD 0 0) 8 4 + 1)))))
  let fac := fmin (fmax (rn (fmul (fl 3 0) g)) (fl 3 32)) (if acc then fl 4 0 else one)
  let tn := rn (fadd (fval x.t) hs)
  let done := acc && (x.isLast || !fless tn (fval x.tend))
  let h := rn (fmul hs fac)
  let x := { x with h := codeOf h, err := codeOf err }
  let x := if acc then { x with nacc := x.nacc + 1, t := if done then x.tend else codeOf tn } else { x with nrej := x.nrej + 1 }
  let ending : Option Nat :=
    if !acc && fless h (fl 6 0) then some 2
    else if done then some 1
    else if j.f 6 32 32 ≠ 0 ∧ j.f 6 32 32 ≤ x.nacc + x.nrej then some 4
    else none
  let nst := tabNst img
  let x :=
    if acc then (if bit (img.getD 0 0) 4 then { x with k0 := (x.k0 + nst - 1) % nst, stg := 1 } else { x with stg := 0 })
    else { x with stg := 1 }
  (x, acc, ending)

/-- A sample with every stage decides: on acceptance STATE is written; it retires, or begins its next step (R439, R440, R445). -/
def decide1 (s : State) (d k : Nat) : PRes Unit :=
  let x := psample s d k
  let j := pjob s d x.job
  let img := jobTab s d j
  (pendFloats s d x.state 0 j.dim).andThen (fun y s =>
    (readStages d x j.dim (tabNst img) (tabNst img) s).andThen (fun ks s =>
      let (err, yn) := stepNorm x img j.dim y ks
      if err.isNan then .got () (endSample s d k 3 0)
      else
        let (x', acc, fin) := decideStep x j img err
        let w : PRes Unit := if acc then pendWrite32 s d x.state 0 (yn.map codeOf) else .got () s
        w.andThen (fun _ s =>
          let s := setJob s d x.job (if acc then { j with accN := j.accN + 1 } else { j with rejN := j.rejN + 1 })
          match fin with
          | some st => .got () (endSample (setSample s d k x') d k st 0)
          | none =>
            let x'' := x'.startStep
            .got () (setSample s d k { x'' with sst := if x''.stg < tabNst img then 1 else 3 }))))

/-! ## Returning beads -/

/-- The batch in flight that a BID names on a die: its job and the batch (R437, R438). -/
def findBatch (s : State) (d bid : Nat) : Option (Nat × Batch) :=
  (List.range 4).findSome? (fun j => ((pjob s d j).batches.find? (fun b => b.released && batchBid s d j b == bid)).map (fun b => (j, b)))

/-- A batch of a job replaced. -/
def setBatch (s : State) (d j : Nat) (b : Batch) : State :=
  let x := pjob s d j
  setJob s d j { x with batches := x.batches.map (fun c => if c.buf = b.buf then b else c) }

/-- The results of one sample stored as the k values of its stage; after the last stage it is to decide (R438, R439). -/
def storeStage (s : State) (d k : Nat) (b : Batch) (c u : List Nat) : PRes Unit :=
  let x := psample s d k
  let j := pjob s d x.job
  let img := jobTab s d j
  let wg := fval (j.f 4 32 32)
  let val (n : Nat) : Nat :=
    let cn := c.getD n 0
    if j.f 0 5 1 = 1 then (let un := fval (u.getD n 0); codeOf (pfma un wg (rn (fsub (fval cn) un)))) else cn
  let ks := (List.range j.dim).map val
  (pendWrite32 s d x.hist ((x.k0 + b.stage) % tabNst img * padBytes j.dim) ks).andThen (fun _ s =>
    .got () (setSample s d k { x with stg := b.stage + 1, sst := if b.stage + 1 < tabNst img then 1 else 3 }))

/-- One record of a returned batch: the sample in place m takes its results (R438, R445). -/
def takeRecord (s : State) (d j : Nat) (b : Batch) (bead m k : Nat) : PRes Unit :=
  let x := pjob s d j
  let g := if x.f 0 5 1 = 1 then 2 else 1
  let ro := 64 + padBytes (g * x.dim)
  let ploc := bits bead 192 64
  let drop (s : State) : State := setBatch s d j { b with slots := b.slots.drop 1 }
  (pendRead s d ploc (m * ro) 1).andThen (fun w s =>
    if bits w 0 12 ≠ k then .got () (endSample (drop s) d k 5 0xF9)
    else
      (pendCodes s d ploc (m * ro + 64) (g * x.dim)).andThen (fun v s =>
        (storeStage s d k b (v.take x.dim) (v.drop x.dim)).andThen (fun _ s => .got () (drop s))))

/-- The decision of a sample, or its failure where its data cannot be read (R439, R445). -/
def decideAgain (s : State) (d k : Nat) : State :=
  (decide1 (s.corrects (.sample d k)) d k).after d .back (fun _ s => s) (fun _ s => endSample s d k 6 0)

/-- A sample that has every stage decides (R439). -/
def decideNow (s : State) (d k : Nat) : State :=
  let x := psample s d k
  if x.sst = 3 ∧ x.fin = none then decideAgain s d k else s

/-- A batch was released its TMO or more before a tick (R444). -/
def Job.overdue (x : Job) (b : Batch) (tick : Nat) : Bool := x.f 14 0 32 != 0 && decide (b.tick + 1000 * x.f 14 0 32 ≤ tick)

/-- PENDANT_BEAD_RETURN: a sample that has still to decide does so first; then the first returned bead names a batch and fits it, or is dropped
or fails it, one that came too late too; then its records are taken one after another, and with the last its buffer is free (R438 to R440,
R444). -/
def execPendantBeadReturn (s : State) : Out :=
  dieStep s (fun d =>
    let free := pendFree s d (some .back)
    match (if free.isSome then (s.die d).pend.undecided else none), (s.die d).pend.inbox with
    | some k, _ => decideAgain (free.getD s) d k
    | none, [] => s
    | none, raw :: rest =>
      let bead := raw % 2 ^ 520
      let s := free.getD s
      let popped := s.onPend d (fun p => { p with inbox := rest })
      if !s.claspUp (4 * d + 2) then dropEvent popped d 0 bead 5
      else if free.isNone then s
      else
        match findBatch s d (beadBid bead) with
        | none => dropEvent popped d 0 bead 6
        | some (j, b) =>
          let x := pjob s d j
          let ro := 64 + padBytes ((if x.f 0 5 1 = 1 then 2 else 1) * x.dim)
          let ns := bits bead 96 16
          if x.overdue b (raw / 2 ^ 520) then failBatch s d j b 0xFA
          else if ns ≠ b.ns ∨ bits bead 256 40 < ns * ro ∨ locBad (bits bead 192 64) 64 2 ≠ 0 then failBatch popped d j b 0xF8
          else
            match b.slots with
            | [] => setJob popped d j { x with batches := x.batches.filter (fun c => c.buf != b.buf) }
            | (m, k) :: _ =>
              (takeRecord (s.corrects (.sample d k)) d j b bead m k).after d .back (fun _ s => decideNow s d k)
                (fun _ s => endSample (setBatch s d j { b with slots := b.slots.drop 1 }) d k 6 0))

/-! ## Retirement and failure -/

/-- A completion record in the ring, then the count; room is looked for in CRCNT (R442). -/
def complete1 (s : State) (d j sl : Nat) (ws : List Nat) (f : State → State) : State :=
  let x := pjob s d j
  let depth := 2 ^ (x.f 0 28 4 + 4)
  let r : PRes Unit := (pendRead s d (x.w 13) 0 1).andThen (fun rc s =>
    if depth ≤ (x.ccount + 2 ^ 64 - rc) % 2 ^ 64 then .wait s
    else
      (pendWrite s d (x.w 11) (32 * (x.ccount % depth)) ws).andThen (fun _ s =>
        let n := (x.ccount + 1) % 2 ^ 64
        (pendWrite s d (x.w 12) 0 [n]).andThen (fun _ s => .got () (f (setJob s d j { pjob s d j with ccount := n })))))
  r.after d (.retire sl) (fun _ s => s) (fun _ s => f (drainJob s d j 3))

/-- SAMPLE_RETIREMENT: a sample that waits to retire, or the first rejected admission of job sl - 4096, writes its record, and its slot
is free; a ring that fails leaves no record; a rejected admission has neither slot nor times, and those fields of its record are free
(R442, R445; log A31). -/
def execSampleRetirement (s : State) : Out :=
  let sl := s.arg 1
  if 4100 ≤ sl then .fault (.noSuchAgent sl)
  else
    pendStep s (some (.retire sl)) (fun s d =>
      let fr (k : Nat) : Nat := Config.freeNat (s.free + k)
      if 4096 ≤ sl then
        let j := sl - 4096
        match (pjob s d j).rejects with
        | [] => s
        | tag :: _ =>
          let s' := complete1 s d j sl [tag * 2 ^ 32 + fr 0 % 4096 * 2 ^ 16 + 0x0A, fr 1 % 2 ^ 64, fr 2 % 2 ^ 64, s.hub.gtc]
            (fun s => setJob s d j { pjob s d j with rejects := (pjob s d j).rejects.drop 1 })
          { s' with free := s.free + 3 }
      else
        let s := s.corrects (.sample d sl)
        let x := psample s d sl
        match x.fin with
        | none => s
        | some st =>
          complete1 s d x.job sl
            [x.tag * 2 ^ 32 + sl * 2 ^ 16 + x.dstat * 2 ^ 8 + st, x.t + 2 ^ 32 * x.h, x.nacc + 2 ^ 32 * x.nrej, s.hub.gtc]
            (fun s => setJob (setSample s d sl Sample.reset) d x.job { pjob s d x.job with due := true }))

/-- The bead of a batch is back in time: it waits at the Pendant, or its records are being taken (R438, R444). -/
def beadBack (s : State) (d j : Nat) (b : Batch) : Bool :=
  (s.die d).pend.inbox.any (fun c => beadBid c == batchBid s d j b && !(pjob s d j).overdue b (c / 2 ^ 520))

/-- BATCH_TIMEOUT: TMO microseconds have passed since the release of the batch in buffer b, whose bead is not back (R444). -/
def execBatchTimeout (s : State) : Out :=
  jobStep s (fun _ => none) (fun s d j x =>
    match x.batches.find? (fun b => b.buf == s.arg 2 && b.released) with
    | none => s
    | some b => if x.overdue b s.hub.gtc ∧ beadBack s d j b = false then failBatch s d j b 0xFA else s)

/-- PENDANT_FAILURE_NOTICE: the first notice that a route leads on fails the batch that it names, or leaves for another module; with
operands BID and status a peer module's joins the others (R386, R437, R444, R470). -/
def execPendantFailureNotice (s : State) : Out :=
  pendStep s none (fun s d =>
    match s.args with
    | _ :: bid :: st :: _ => s.onPend d (fun p => { p with notices := p.notices ++ [(16, bid % 2 ^ 32, st % 256)] })
    | _ =>
      match nextTold s d with
      | none => s
      | some k =>
        let (_, bid, st) := lget (0, 0, 0) (s.die d).pend.notices k
        let s := s.onPend d (fun p => { p with notices := ldel p.notices k })
        match findBatch s d bid with | some (j, b) => failBatch s d j b st | none => s)

/-- SAMPLE_ENTRY_ECC_ERROR: the slot is freed; while its job fields decode (operand 2 = 1) a record with TAG 0 and status 0x09 goes
first, whose other contents the entry no longer gives; a sample that waits to retire has been counted already (R428, R446). -/
def execSampleEntryEccError (s : State) : Out :=
  if 4096 ≤ s.arg 1 then .fault (.noSuchAgent (s.arg 1))
  else
    pendStep s none (fun s d =>
      let k := s.arg 1
      let x := psample s d k
      if x.sst = 0 then s
      else
        let j := pjob s d x.job
        let s := setJob s d x.job { j with failedN := j.failedN + b2n x.fin.isNone, due := true, batches := j.batches.map (fun b => { b with slots := b.slots.filter (fun p => p.2 != k) }) }
        if s.arg 2 = 1 then
          let fr (m : Nat) : Nat := Config.freeNat (s.free + m) % 2 ^ 32
          { (setSample s d k { Sample.reset with job := x.job, sst := 3, fin := some 9, t := fr 0, h := fr 1, nacc := fr 2, nrej := fr 3 }) with
            free := s.free + 4 }
        else setSample s d k Sample.reset)

/-- The batches of a job that are still awaited: at ABORT with TMO = 0 no longer those whose bead was dropped (R431, R444). -/
def Job.awaited (x : Job) : List Batch := if x.st = 3 ∧ x.f 14 0 32 = 0 then x.batches.filter (fun b => !b.lost) else x.batches

/-- PENDANT_JOB_END: an aborting job without batches retires its samples with status 0x07; a draining or aborting job without active
samples, its read count written, ends, its records complete, and it is IDLE (R431, R434). -/
def execPendantJobEnd (s : State) : Out :=
  jobStep s (fun _ => none) (fun s d j x =>
    let active := x.slots.filter (fun k => (psample s d k).sst != 0)
    let s := setJob s d j { x with batches := x.awaited }
    if ¬(x.st = 2 ∨ x.st = 3) ∨ x.dirty ∨ x.reading ∨ (x.st = 3 ∧ x.awaited ≠ []) then s
    else if active ≠ [] ∨ x.rejects ≠ [] then
      (if x.st = 3 then (active.filter (fun k => (psample s d k).fin.isNone)).foldl (fun s k => endSample s d k 7 0) s else s)
    else
      let s := setJob s d j { x with st := 0, batches := x.awaited }
      let s := completeRec s x.startRec.1 x.startRec.2 (x.endStatus.getD 0) 0 false
      x.abortRecs.foldl (fun s p => completeRec s p.1 p.2 0 0 false) s)

end Sys2Proof.Machine
end

