-- ==== Sys2Proof/Machine/Locket.lean ====
section
/-! DEFINITION. The Locket: checkpoint jobs, holds, readout, image parts and restore (R383, R448 to R456). -/

namespace Sys2Proof.Machine

/-! ## Its accesses -/

/-- A change made to a die's Locket. -/
def State.onLock (s : State) (d : Nat) (f : Lock → Lock) : State := s.onDie d (fun x => { x with lock := f x.lock })

/-- A Locket access that did not come to be: a fault holds the Locket (R348, R456). -/
def lockErr {α : Type} (s : State) (d acc : Nat) (e : LocErr) : PRes α :=
  match e with
  | .wait => .wait s
  | .poison => .bad 6 s
  | .fault m cls tgt dia reason =>
    let (seq, s) := faultRec s m
      { cls := cls, tgt := tgt, dia := dia, va := 0, reason := reason, acc := acc, agent := 5, ch := 0, tile := 0, die := d }
    .wait (s.onLock d (fun x => { x with held := some (m, seq), fault := (cls, tgt, dia) }))

/-- A Locket access of n bytes at a located DIA, unless FRES has ended it: then it fails, once (R349, R456). -/
def lockTry {α : Type} (s : State) (d l off n : Nat) (f : PRes α) : PRes α :=
  match endedAt (s.die d).lock.ended l off n with
  | some a => .bad 4 (s.onLock d (fun x => { x with ended := x.ended.erase a }))
  | none => f

/-- n words read at a located DIA from an offset. -/
def lockRead (s : State) (d l off n : Nat) : PRes Nat :=
  lockTry s d l off (8 * n)
    (match locRead s d l off n with
     | (.ok v, s') => .got v s'
     | (.error e, s') => lockErr s' d 0 e)

/-- Words written at a located DIA from an offset, all of them or none. -/
def lockWrite (s : State) (d l off : Nat) (ws : List Nat) : PRes Unit :=
  lockTry s d l off (8 * ws.length)
    (match locWrite s d l off ws with
     | (none, s') => .got () s'
     | (some e, _) => lockErr s d 1 e)

/-- The words of a value, lowest first. -/
def wordsOf (n v : Nat) : List Nat := (List.range n).map (fun i => bits v (64 * i) 64)

/-- The words lo to hi - 1 of a copy that lie in each sector of its destination, whose first word is word o of a sector. -/
def sectorCuts (o n : Nat) : List (Nat × Nat) :=
  (List.range ((o + n + 3) / 4)).map (fun b => (4 * b - o, Nat.min n (4 * b + 4 - o)))

/-- n words copied from one located DIA to another, by sectors of the destination (R327). -/
def lockCopy (d src soff dst doff n : Nat) (s : State) : PRes Unit :=
  (sectorCuts ((locDia dst + doff) / 8 % 4) n).foldl (fun r c => r.andThen (fun _ s =>
    (lockRead s d src (soff + 8 * c.1) (c.2 - c.1)).andThen (fun v s => lockWrite s d dst (doff + 8 * c.1) (wordsOf (c.2 - c.1) v)))) (.got () s)

/-! ## The descriptor -/

/-- Word i of a Locket's descriptor. -/
def Lock.w (x : Lock) (i : Nat) : Nat := x.desc.getD i 0

/-- N reads per cell (R449). -/
def Lock.reads (x : Lock) : Nat := bits (x.w 0) 0 8 + 1

/-- NRNG (R449). -/
def Lock.ranges (x : Lock) : Nat := bits (x.w 0) 10 5

/-- The dies of HOLDSET (R449). -/
def Lock.holdSet (x : Lock) : List Nat := (List.range 16).filter (fun d => bit (x.w 5) d)

/-- The bits of FMASK, rising (R449). -/
def Lock.facets (x : Lock) : List Nat := (List.range 512).filter (fun b => bit (x.w (8 + b / 64)) (b % 64))

/-- The place of a facet section of the image (R455). -/
def Lock.section? (x : Lock) (b : Nat) : Option Nat := (lfind (fun c => c == b) x.facets).map (fun k => 0x2000 + k * 0x404000)

/-- The start of the range data of the image (R455). -/
def Lock.rangeBase (x : Lock) : Nat := 0x2000 + x.facets.length * 0x404000

/-- A reserved bit of a descriptor is set (R449). -/
def lockRsv (v : Nat → Nat) : Bool :=
  bits (v 0) 15 49 != 0 || bits (v 4) 15 17 != 0 || bits (v 4) 48 16 != 0 || bits (v 5) 48 16 != 0 || bits (v 7) 23 41 != 0 ||
    bits (v 1) 59 5 != 0 || bits (v 6) 59 5 != 0

/-- A field of a descriptor lies outside its limits; of a watched stage of another module PNONE is not seen here (R371, R449; log 44). -/
def lockLimits (s : State) (v : Nat → Nat) : Bool :=
  let trig := bits (v 0) 8 2
  let wst := bits (v 4) 0 15
  trig == 3 || decide (16 < bits (v 0) 10 5) || locBad (v 1) 4096 2 != 0 || locBad (v 6) 8 2 != 0 ||
    (trig == 1 && decide (v 2 < 1000000)) ||
    (trig == 2 && (bits (v 4) 32 16 == 0 || (wst / 1024 == fld s.hub.prcfg 0 5 && !(s.stage (bits wst 6 4) (wst % 64)).pnone))) ||
    bits (v 5) 0 16 == 0 || bits (v 5) 16 32 == 0 || bits (v 7) 0 22 % 16 != 0 || decide (Config.scratchBytes ≤ bits (v 7) 0 22) || (List.range 8).all (fun i => v (8 + i) == 0)

/-- The Locket of a die works (R420, R475). -/
def lockOn (s : State) (d : Nat) : Bool := s.claspUp (4 * d + 3) && bit (s.hub.rdy.getD d 0) 4

/-- The Locket of a die works, and no fault holds it (R420, R475). -/
def lockUp (s : State) (d : Nat) : Bool := lockOn s d && (s.die d).lock.held.isNone

/-- A facet of the die changed by its FMASK bit. -/
def onFacet (s : State) (d b : Nat) (f : Facet → Facet) : State :=
  s.onTile (64 * d + b / 8) (fun x => x.setFacet (b % 8) (f (x.facet (b % 8))))

/-- A route leads from the watched stage's die, or for one of another module from a peer port, to a Locket's die (R450, R461, R470). -/
def reportGoes (s : State) (d : Nat) (x : Lock) : Bool :=
  if bits (x.w 4) 10 5 = fld s.hub.prcfg 0 5 then ringOk s (bits (x.w 4) 6 4) d else peerIn s d

/-- A report of the end of step e triggers (R450). -/
def Lock.hits (x : Lock) (e : Nat) : Bool := (e + 2) % bits (x.w 4) 32 16 == 0

/-- A Locket whose checkpoint runs has counted in MISS every tick of its period that has come and every report that has arrived, each at
its time, whatever holds its accesses (R450). -/
def countMissed (s : State) (d : Nat) : State :=
  s.onLock d (fun x =>
    if x.st = 0 ∨ x.armed = false then x
    else if bits (x.w 0) 8 2 = 1 ∧ x.next ≤ s.hub.gtc then
      let m := (s.hub.gtc - x.next) / x.w 2 + 1
      { x with miss := x.miss + m, next := x.next + m * x.w 2 }
    else if bits (x.w 0) 8 2 = 2 ∧ reportGoes s d x then { x with miss := x.miss + (x.reports.filter x.hits).length, reports := [] }
    else x)

/-- The job of a die ends with a status: the triggers that came while it ran are counted, holds are released, facets given back, its record
completes, or an event is posted for a checkpoint that no record started (R450, R451, R456). -/
def endLock (s : State) (d status : Nat) : State :=
  let s := countMissed s d
  let x := (s.die d).lock
  let s := x.taken.foldl (fun s b => onFacet s d b (fun f => { f with held := false })) s
  let s := s.onLock d (fun _ => { x with st := 0, reqDies := [], setDies := [], relDies := x.relDies ++ x.setDies, group := [], todo := [],
                                         taken := [], record := none, held := none, ended := [] })
  match x.record with
  | some (q, n) => completeRec s q n status 0 false
  | none => if x.st = 1 ∨ x.st = 2 then s.postDev d 0x0B (x.step % 2 ^ 32 + status * 2 ^ 32) 0 else s

/-- A LOCKET record waits at the head of its queue for an access of its own (R355). -/
def lockWaits (x : Queue) : Bool := x.state == 1 && x.placed == 1 && (match x.head with | some w => recKind w == 5 | none => false)

/-- What an ended access of a Locket leaves: its job ends with status 0x04; a record that had the access fails when it is retried, before
any other step of the Locket (R355, R456). -/
def lockOwes (s : State) (d : Nat) : Bool :=
  let x := (s.die d).lock
  x.ended != [] && x.st == 0 && (s.die d).queues.any (fun p => lockWaits p.2)

/-- The Locket of a die with the marks of ended accesses taken: a job in progress ends with status 0x04 (R456). -/
def lockClear (s : State) (d : Nat) : State :=
  let x := (s.die d).lock
  if x.ended = [] then s else if x.st = 0 then s.onLock d (fun y => { y with ended := [] }) else endLock s d 4

/-- A Locket step on the die of operand 0. -/
def lockStep (s : State) (f : State → Nat → Lock → State) : Out :=
  dieStep s (fun d =>
    if !lockUp s d || lockOwes s d then s
    else
      let s := lockClear s d
      f s d (s.die d).lock)

/-- A LOCKET record on the queue of operand 0; its failed accesses fail the record, and one that waits on a fault record is in progress,
which its queue's placed count marks (R355, R448). -/
def lockRec (s : State) (op : Nat) (f : State → Nat → Nat → Nat → PRes Unit) : Out :=
  recStep s 5 op (fun s q w =>
    let d := q / 1024
    if lockOn s d && (s.die d).lock.held.isSome && lockFree (s.die d).lock op then
      match f s q d w with | .got _ s => s | .wait s => s | .bad c s => failQueue s q c
    else if !lockUp s d || (lockOwes s d && !lockWaits (s.queue q)) then s
    else
      match f (if lockOwes s d then s else lockClear s d) q d w with
      | .got _ s => lockClear s d
      | .wait s => if (s.die d).lock.held.isSome && (s.die d).lock.st == 0 then s.setQueue q { s.queue q with placed := 1 } else s
      | .bad c s => failQueue (lockClear s d) q c)

/-- A record's descriptor read and checked; the record fails where a job is armed or running, or a field is refused (R448, R449). -/
def lockDesc (s : State) (q d w : Nat) (f : Lock → State → PRes Unit) : PRes Unit :=
  let x := (s.die d).lock
  if x.armed ∨ x.st ≠ 0 then .got () (failQueue s q 3)
  else
    (lockRead s d (recWord w 1) 0 16).andThen (fun v s =>
      let ws := wordsOf 16 v
      if lockRsv (fun i => ws.getD i 0) then .got () (failQueue s q 2)
      else if lockLimits s (fun i => ws.getD i 0) then .got () (failQueue s q 3)
      else f { Lock.reset with desc := ws, relDies := x.relDies } s)

/-- The first period tick that is not past (R450). -/
def firstPeriod (phase period gtc : Nat) : Nat :=
  if gtc ≤ phase then phase else phase + (gtc - phase + period - 1) / period * period

/-- LOCKET_ARM (R448, R450). -/
def execLocketArm (s : State) : Out :=
  lockRec s 0 (fun s q d w => lockDesc s q d w (fun x s =>
    let next := if bits (x.w 0) 8 2 = 1 then firstPeriod (x.w 3) (x.w 2) s.hub.gtc else 0
    .got () (runRec (s.onLock d (fun _ => { x with armed := true, next := next })) q 0 0)))

/-! ## Triggers and holds -/

/-- Hold requests for step S go to every scheduler of HOLDSET; st tells what waits for them (R450, R456). -/
def startHold (s : State) (d st step : Nat) (x : Lock) (r : Option (Nat × Nat)) : State :=
  s.onLock d (fun _ => { x with st := st, step := step, miss := 0, trig := s.hub.gtc, since := s.hub.gtc, reqDies := x.holdSet, setDies := [],
                                group := [], todo := x.facets, taken := [], failed := false, record := r })

/-- A trigger of the armed job of a die: it starts a checkpoint, or is counted in MISS while one runs (R450). -/
def trigger (s : State) (d step : Nat) (x : Lock) (r : Option (Nat × Nat)) : State :=
  if x.st = 0 then startHold s d 1 step x r else s.onLock d (fun _ => { x with miss := x.miss + 1 })

/-- LOCKET_TRIGGER: the record waits for the end of the checkpoint that it starts; one that starts none completes at once, with a status
that the spec does not give (R448, R450). -/
def execLocketTrigger (s : State) : Out :=
  lockRec s 1 (fun s q d _ =>
    let x := (s.die d).lock
    if !x.armed then .got () (failQueue s q 3)
    else if x.st = 0 then .got () (trigger (startRec s q 0) d 0 x (some (q, (s.queue q).nid)))
    else .got () (runRec { trigger s d 0 x none with free := s.free + 1 } q (Config.freeNat s.free % 256) 0))

/-- LOCKET_DISARM (R448). -/
def execLocketDisarm (s : State) : Out :=
  lockRec s 3 (fun s q d _ => .got () (runRec ((countMissed s d).onLock d (fun x => { x with armed := false, reports := [] })) q 0 0))

/-- LOCKET_PERIOD_TRIGGER: GTC has reached the next period tick of a job armed with TRIG 1 (R450). -/
def execLocketPeriodTrigger (s : State) : Out :=
  lockStep s (fun s d x =>
    if x.armed ∧ bits (x.w 0) 8 2 = 1 ∧ x.next ≤ s.hub.gtc then trigger s d 0 { x with next := x.next + x.w 2 } none else s)

/-- LOCKET_STEP_TRIGGER: the first step-end report of the watched stage, once a route leads from its die, with (E + 2) mod K = 0, triggers
for step E + 1; with operand 1 another module reports the end of that step at its stage (R450, R461, R470). -/
def execLocketStepTrigger (s : State) : Out :=
  lockStep s (fun s d x =>
    match s.args, x.reports with
    | _ :: e :: _, _ =>
      if bits (x.w 4) 10 5 ≠ fld s.hub.prcfg 0 5 ∧ x.watches (bits (x.w 4) 0 15) then
        s.onLock d (fun x => { x with reports := x.reports ++ [e % 2 ^ 32] })
      else s
    | _, [] => s
    | _, e :: rest =>
      if !reportGoes s d x then s else
      let x := { x with reports := rest }
      if x.armed ∧ x.hits e then trigger s d (e + 1) x none else s.onLock d (fun _ => x))

/-- A hold of one stage by the Locket of a die for a step (R383). -/
def Stage.holdBy (x : Stage) (lk step : Nat) : Stage :=
  if !x.valid then x
  else match x.st with
  | .run => { x with lhs := x.lhs ++ [(lk, step)], st := if x.stepMb = 0 then .holding else .run }
  | _ => { x with lhs := x.lhs ++ [(lk, step)] }

/-- The release of one stage by the Locket of a die: with its last holder the stage goes on (R383). -/
def Stage.releaseBy (x : Stage) (lk : Nat) : Stage :=
  let l := x.lhs.filter (fun p => p.1 != lk)
  let free := decide (x.lhs.length ≠ l.length) && l.isEmpty && !x.sh && (x.st == .held || x.st == .holding)
  { x with lhs := l, st := if free then .run else x.st }

/-- The stages of a die changed. -/
def State.onStages (s : State) (d : Nat) (f : Stage → Stage) : State :=
  s.onDie d (fun x => { x with stages := x.stages.map (fun p => (p.1, f p.2)) })

/-- The lowest die, of those from which a route leads to die d, whose Locket has d among the dies of a list of its own (R461). -/
def lockWith (s : State) (d : Nat) (f : Lock → List Nat) : Option Nat :=
  (List.range 16).find? (fun k => (f (s.die k).lock).contains d && ringOk s k d)

/-- LOCKET_HOLD_REQUEST: a Locket's hold request reaches the scheduler of die d, which sets LH on its valid stages (R382, R383, R450,
R461). -/
def execLocketHoldRequest (s : State) : Out :=
  dieStep s (fun d =>
    match lockWith s d (fun x => if x.relDies.contains d then [] else x.reqDies) with
    | none => s
    | some k =>
      if !bit (s.hub.rdy.getD d 0) 0 || (s.clasp (4 * d + 1)).mode == 5 || beadsDue s d then s
      else
        let x := (s.die k).lock
        (s.onStages d (fun y => y.holdBy k x.step)).onLock k (fun y =>
          { y with reqDies := y.reqDies.filter (· != d), setDies := y.setDies ++ [d] }))

/-- LOCKET_RELEASE_REQUEST: a Locket's release reaches the scheduler of die d, which clears its LH (R382, R383, R451, R461). -/
def execLocketReleaseRequest (s : State) : Out :=
  dieStep s (fun d =>
    match lockWith s d (fun x => x.relDies) with
    | none => s
    | some k =>
      if beadsDue s d then s
      else (s.onStages d (fun y => y.releaseBy k)).onLock k (fun y => { y with relDies := y.relDies.filter (· != d) }))

/-! ## The end of a job -/

/-- A Locket operation whose failed accesses end its job with status 0x04 (R456). -/
def lockDo (d : Nat) (r : PRes Unit) : State :=
  match r with | .got _ s => s | .wait s => s | .bad _ s => endLock s d 4

/-- Every stage of the dies of HOLDSET is held for the job of a die's Locket, as far as a route leads from them to it (R383, R451, R461). -/
def allHeld (s : State) (me : Nat) (x : Lock) : Bool :=
  x.reqDies.isEmpty && x.holdSet.all (fun d => ringOk s d me && (s.die d).stages.all (fun p => p.2.st == .held || p.2.st == .faulted || p.2.st == .off))

/-! ## Ranges, seeds and header -/

/-- The range list: (located DIA, length) pairs (R449). -/
def rangeList (v n : Nat) : List (Nat × Nat) := (List.range n).map (fun i => (bits v (128 * i) 64, bits v (128 * i + 64) 64))

/-- Ranges copied one after another: into the image, or back from it. -/
def copyRanges (d img off : Nat) (back : Bool) : List (Nat × Nat) → State → PRes Unit
  | [], s => .got () s
  | (l, n) :: rest, s =>
    if locBad l 8 2 ≠ 0 ∨ n % 64 ≠ 0 then .bad 3 s
    else
      (if back then lockCopy d img off l 0 (n / 8) s else lockCopy d l 0 img off (n / 8) s).andThen (fun _ s =>
        copyRanges d img (off + n) back rest s)

/-- The 512 words of the image's header before its mark; what the layout does not name is free (R455; log A31). -/
def lockHeader (s : State) (d : Nat) (x : Lock) : List Nat :=
  let fr (k w : Nat) : Nat := Config.freeNat (s.free + k) % 2 ^ w
  [0x4C4B4131 + 2 ^ 32 + fr 0 16 * 2 ^ 48,
   fr 1 27 * 2 ^ 37 + d + popc 16 (x.w 5) * 16 + 7 * 2 ^ 9 + 1023 * 2 ^ 12 + 1023 * 2 ^ 22 + fld s.hub.prcfg 0 5 * 2 ^ 32,
   bits (x.w 5) 0 16 + bits (x.w 0) 0 8 * 2 ^ 16 + fr 2 8 * 2 ^ 24 + x.step % 2 ^ 32 * 2 ^ 32, x.trig, s.hub.gtc, x.facets.length, x.miss] ++
  (List.range 8).map (fun i => x.w (8 + i)) ++ (List.range 16).map (fun i => fr (15 + i) 64) ++ [0] ++
  (List.range 480).map (fun i => fr (32 + i) 64)

/-- The seeds of a die's tiles with the counters of their oldest entries (R451, R455). -/
def seedWords (s : State) (d : Nat) : List Nat :=
  ((List.range 64).map (fun t => let r := (s.tile (64 * d + t)).rng; [r.seed.toNat, r.gen - r.count])).flatten

/-- The facets begin: a first group of 64 is taken up (R451, R456). -/
def firstGroup (s : State) (d st : Nat) : State :=
  s.onLock d (fun x => { x with st := st, group := x.todo.take 64, todo := x.todo.drop 64, since := s.hub.gtc })

/-- LOCKET_HOLD_COMPLETE: with every stage held, the ranges and seeds go into the image, or the ranges come back from it, and the facets
begin (R451, R456). The header goes ahead without its mark, so that a part that fails is not marked. -/
def execLocketHoldComplete (s : State) : Out :=
  lockStep s (fun s d x =>
    if ¬(x.st = 1 ∨ x.st = 3) ∨ allHeld s d x = false then s
    else
      lockDo d ((lockRead s d (x.w 6) 0 (2 * x.ranges)).andThen (fun rl s =>
        let rs := rangeList rl x.ranges
        if x.st = 1 then
          (lockWrite s d (x.w 1) 0 (lockHeader s d x ++ seedWords s d ++ wordsOf 32 rl)).andThen (fun _ s =>
            (copyRanges d (x.w 1) x.rangeBase false rs s).andThen (fun _ s => .got () { firstGroup s d 2 with free := s.free + 512 }))
        else (copyRanges d (x.w 1) x.rangeBase true rs s).andThen (fun _ s => .got () (firstGroup s d 4)))))

/-- LOCKET_HOLD_TIMEOUT: HTMO microseconds have passed before the hold was complete (R451). -/
def execLocketHoldTimeout (s : State) : Out :=
  lockStep s (fun s d x =>
    if (x.st = 1 ∨ x.st = 3) ∧ allHeld s d x = false ∧ x.since + 1000 * bits (x.w 5) 16 32 ≤ s.hub.gtc then endLock s d 3 else s)

/-! ## Readout -/

/-- A fraction rounded to the nearest integer, ties to even. -/
def rintFrac (num : Int) (den : Nat) : Int :=
  let q := num / (den : Int)
  let r := num - q * den
  if 2 * r < den then q else if (den : Int) < 2 * r then q + 1 else q + q % 2

/-- The bound of R453 in units of 2^-40, rounded up, for n reads after a drift time in ticks: 0.030 / √n + δ + 1/254 + 2^-15. -/
def imageBound (n ticks : Nat) : Nat := 3 * 2 ^ 60 / (100 * Nat.sqrt (n * 2 ^ 40)) + 1 + driftUp ticks + 2 ^ 40 / 254 + 1 + 2 ^ 25

/-- The Q1.14 code of a cell read n times: each read has a free error within err, their sum lies within bnd, the rounding's 2^-15 apart, of
the cell, and the code is that of the sum (R452, R453; log A11). -/
def readCell (g : Int) (n err bnd free : Nat) : Int :=
  let u : Int := ((List.range n).map (fun k => convAdc (127 * g) (errIn err (Config.freeInt (free + k))) 0)).sum
  let b : Int := bnd - 2 ^ 25
  let u := max (-((b - g) * (127 * n) / 2 ^ 40)) (min ((g + b) * (127 * n) / 2 ^ 40) u)
  max (-16384) (min 16384 (rintFrac (u * 16384) (127 * n)))

/-- The codes of an array, cell (i, j) at place 1,024 j + i (R452, R455). -/
def readArray (t f : Nat) (x : Facet) (isC : Bool) (n ticks free : Nat) : List Nat :=
  let err := readBound [127] ticks
  let bnd := imageBound n ticks
  (List.range 1048576).map (fun m => wrap 16 (readCell (cellOf t f x isC (m % 1024) (m / 1024)) n err bnd (free + n * m)))

/-- Codes of 2 bytes, four to a word. -/
def packCodes : List Nat → List Nat
  | a :: b :: c :: d :: l => (a + b * 2 ^ 16 + c * 2 ^ 32 + d * 2 ^ 48) :: packCodes l
  | _ => []

/-- The words of a facet section (R455). -/
def facetSection (t f b : Nat) (x : Facet) (qne : Bool) (n ticks free : Nat) : List Nat :=
  padTo 8 [b + b2n qne * 512] ++ wordsOf 4 x.fcfg.toNat ++ padTo 116 [x.pctr.toNat] ++ wordsOf 256 x.symImage ++
    List.replicate 128 0 ++ wordsOf 512 (blockImage x.rwa) ++ padTo 1024 (wordsOf 512 (blockImage x.rwc)) ++
    packCodes (readArray t f x false n ticks free) ++ packCodes (readArray t f x true n ticks (free + n * 1048576))

/-- The group moves on by one facet; the next 64 are taken up when it is empty (R451). -/
def nextGroup (s : State) (d b : Nat) : State :=
  s.onLock d (fun x =>
    let g := x.group.filter (· != b)
    let x := { x with taken := x.taken.filter (· != b) }
    if g = [] then { x with group := x.todo.take 64, todo := x.todo.drop 64, since := s.hub.gtc } else { x with group := g })

/-- A Locket step on the FMASK bit of operand 1. -/
def facetBitStep (s : State) (f : State → Nat → Nat → Lock → State) : Out :=
  if 512 ≤ s.arg 1 then .fault (.noSuchAgent (s.arg 1)) else lockStep s (fun s d x => f s d (s.arg 1) x)

/-- LOCKET_FACET_READOUT: a facet of the present group whose queue is empty, or that the Locket has taken, is read and its section
written (R451, R452). -/
def execLocketFacetReadout (s : State) : Out :=
  facetBitStep s (fun s d b x =>
    let t := 64 * d + b / 8
    let y := (s.tile t).facet (b % 8)
    let qne := x.taken.contains b
    match x.section? b with
    | none => s
    | some off =>
      if x.st ≠ 2 ∨ x.group.contains b = false ∨ (y.queue ≠ [] ∧ qne = false) then s
      else
        let s := s.corrects (.staging d)
        lockDo d ((lockWrite s d (x.w 1) off (facetSection t (b % 8) b y qne x.reads (y.age s.hub.gtc) s.free)).andThen (fun _ s =>
          .got () (onFacet (nextGroup { s with free := s.free + 2097152 * x.reads } d b) d b (fun f => { f with held := false })))))

/-- LOCKET_QUEUE_TIMEOUT: 100 microseconds have passed and the facet's queue is not empty: the Locket takes it between two commands
(R243, R452). -/
def execLocketQueueTimeout (s : State) : Out :=
  facetBitStep s (fun s d b x =>
    let y := (s.tile (64 * d + b / 8)).facet (b % 8)
    if x.st = 2 ∧ x.group.contains b ∧ x.taken.contains b = false ∧ y.queue ≠ [] ∧ x.since + 100000 ≤ s.hub.gtc then
      onFacet (s.onLock d (fun x => { x with taken := x.taken ++ [b] })) d b (fun f => { f with held := true })
    else s)

/-- LOCKET_IMAGE_MARK: with every section written, header words 4 to 6, with every trigger missed, and then word 31 are written and the
job ends (R450, R451, R455). -/
def execLocketImageMark (s : State) : Out :=
  lockStep s (fun s d x =>
    if x.st ≠ 2 ∨ x.group ≠ [] ∨ x.todo ≠ [] then s
    else
      let s := countMissed s d
      let x := (s.die d).lock
      lockDo d ((lockWrite s d (x.w 1) 32 [s.hub.gtc, x.facets.length, x.miss]).andThen (fun _ s =>
        (lockWrite s d (x.w 1) 248 [1]).andThen (fun _ s => .got () (endLock s d 0)))))

/-! ## Restore -/

/-- Why a part is rejected by its header: status 2 or 1, 0 if it is not (R456). -/
def partBad (x : Lock) (h : Nat) : Nat :=
  let w (i : Nat) := bits h (64 * i) 64
  if bit (w 31) 0 = false ∨ bits (w 0) 0 48 ≠ 0x4C4B4131 + 2 ^ 32 then 2
  else if bits (w 1) 4 5 ≠ popc 16 (x.w 5) ∨ (List.range 8).any (fun i => w (7 + i) != x.w (8 + i)) ∨ bits (w 1) 9 3 ≠ 7 ∨
      bits (w 1) 12 10 ≠ 1023 ∨ bits (w 1) 22 10 ≠ 1023 then 1
  else 0

/-- A range length of a part differs from the job's list (R456). -/
def rangesBad (img rl : Nat) : Bool := (List.range 16).any (fun i => bits img (128 * i + 64) 64 != bits rl (128 * i + 64) 64)

/-- LOCKET_RESTORE: the header is checked before the range lists are read; a part that is not rejected has HOLDSET held first (R448, R456). -/
def execLocketRestore (s : State) : Out :=
  lockRec s 2 (fun s q d w => lockDesc s q d w (fun x s =>
    let r := (lockRead s d (x.w 1) 0 32).andThen (fun h s =>
      if partBad x h ≠ 0 then .got () (runRec s q (partBad x h) 0)
      else
        (lockRead s d (x.w 1) 0x1400 32).andThen (fun img s =>
          (lockRead s d (x.w 6) 0 (2 * x.ranges)).andThen (fun rl s =>
            if rangesBad img rl then .got () (runRec s q 1 0)
            else .got () (startHold (startRec s q 0) d 3 0 x (some (q, (s.queue q).nid))))))
    r.orBad (fun s => .got () (runRec s q 4 0))))

/-- A cell after closed-loop write and verify: within 2^-7 of its stored value unless it is free (R456; log A10). -/
def restoreCell (free isFree stored : Nat) (m : Nat) : Int :=
  let v := Config.freeInt (free + m)
  if isFree = 1 then clampG v else clampG (sext stored 16 * 67108864 + (v % 17179869185 - 8589934592))

/-- A stored code that no conductance from -1 to 1 lies within 2^-7 of (R239, R456). -/
def farCode (code : Nat) : Bool := decide (16512 < (sext code 16).natAbs)

/-- The code of cell (i, j) in an array of a section (R455). -/
def codeAt (codes i j : Nat) : Nat := bits codes (16 * (1024 * j + i)) 16

/-- The cells of each column that no programming brings within tolerance (R456). -/
def farCells (codes : Nat) : Vector Nat 1024 :=
  Vector.ofFn (fun j => (List.range 1024).countP (fun i => farCode (codeAt codes i j.val)))

/-- Some column keeps more than ten cells outside tolerance whatever is done (R456). -/
def farColumn (codes : Nat) : Bool := (farCells codes).toList.any (fun u => decide (10 < u))

/-- The cells of an array restored from its codes. Of each column the cells that cannot come within tolerance, and as many rows that free
values name as make ten with them, keep any value; every cell of a column with more than ten such cells does, and every cell does where
operand 2 tells that a column did not converge (R456). -/
def restoreArray (free codes : Nat) (stuck : Bool) : List (Nat × Int) :=
  let far := farCells codes
  (List.range 1048576).map (fun k =>
    let i := k / 1024
    let j := k % 1024
    let u := far.toList.getD j 0
    let out := stuck || decide (10 < u) || farCode (codeAt codes i j) ||
      (List.range (10 - u)).any (fun r => (Config.freeInt (free + 1048576 + 1024 * r + j)).natAbs % 1024 == i)
    (k, restoreCell free (b2n out) (codeAt codes i j) k))

/-- The 2-MiB array of codes at an offset of a section (R455). -/
def sectionCodes (v off : Nat) : Nat := bits v (8 * off) (8 * 2097152)

/-- The restore of a facet from a section fails: a column of A or C keeps more than ten cells outside tolerance (R456). -/
def restoreFails (v : Nat) (stuck : Bool) : Bool :=
  stuck || farColumn (sectionCodes v 0x4000) || farColumn (sectionCodes v 0x204000)

/-- A facet restored from its section: ERR and ECODE are 0 again unless the restore fails (R241, R456). -/
def restoreFacet (x : Facet) (v free gtc : Nat) (stuck : Bool) : Facet :=
  let block (off : Nat) := sparse (int8s (bits v (8 * off) 32768) 4096) 0
  let bad := restoreFails v stuck
  { x with
    a := restoreArray free (sectionCodes v 0x4000) stuck, c := restoreArray (free + 1058816) (sectionCodes v 0x204000) stuck,
    sym := tableOf 1024 (fun j => sext (bits v (8 * 0x400 + 16 * j) 16) 16), fcfg := BitVec.ofNat 256 (bits v 512 256),
    pctr := BitVec.ofNat 64 (bits v 768 64), rwa := block 0x1000, rwc := block 0x2000, drift := gtc,
    err := bad && x.err, ecode := if bad then x.ecode else 0 }

/-- LOCKET_FACET_RESTORE: a facet of the present group is programmed from its section and credits its barrier; with the last the job ends.
Operand 2 = 1 tells that a column did not converge, though it could, which fails the facet as one that cannot does (R241, R456). -/
def execLocketFacetRestore (s : State) : Out :=
  facetBitStep s (fun s d b x =>
    let t := 64 * d + b / 8
    match x.section? b with
    | none => s
    | some off =>
      if x.st ≠ 4 ∨ x.group.contains b = false then s
      else
        lockDo d ((lockRead s d (x.w 1) off 526336).andThen (fun v s =>
          let stuck := restoreFails v (s.arg 2 == 1)
          let y := restoreFacet ((s.tile t).facet (b % 8)) v s.free s.hub.gtc (s.arg 2 == 1)
          let s := if stuck then facetFail s t (b % 8) 3 y else onFacet s d b (fun _ => y)
          let s := { s with free := s.free + 2117632 }
          let s := if bit (x.w 7) 22 then barUpdate s (scratchKey t (bits (x.w 7) 0 22)) (-4194304) false 0 else s
          let s := nextGroup (s.onLock d (fun y => { y with failed := y.failed || stuck })) d b
          let y := (s.die d).lock
          .got () (if y.group = [] ∧ y.todo = [] then endLock s d (if y.failed then 5 else 0) else s))))

end Sys2Proof.Machine
end

