-- ==== Sys2Proof/Machine/Clasp.lean ====
section
/-! DEFINITION. The clasp: dissent, resynchronisation, break and restore of the voted machines (R411 to R423). -/

namespace Sys2Proof.Machine

/-- The host reaches the registers of a machine: they are offered, and the spine of its die is in service (R462, R481). -/
def claspReach (s : State) (x : Nat) : Bool := s.hub.rot && (x == 80 || linkState s (16 + (if x < 64 then x / 4 else x - 64)) != 0)

/-- A clasp step on the machine of operand 0 (R411). -/
def claspStep (s : State) (f : Nat → Clasp → State) : Out :=
  if 81 ≤ s.arg 0 then .fault (.noSuchAgent (s.arg 0)) else .next (f (s.arg 0) (s.clasp (s.arg 0)))

/-- The cycles of a resynchronisation (R411). -/
def resyncCycles (x : Nat) : Nat :=
  if x = 80 then 256
  else if 64 ≤ x then 768
  else match x % 4 with | 0 => 2048 | 1 => 1536 | 2 => 1024 | _ => 512

/-- An 8-dissent window's length in cycles (R418). -/
def retireWindow : Nat := 1048576

/-! ## Break -/

/-- The event queues bound to a queue of a die; an unlisted queue is bound to event queue 0 (R421, R465). -/
def boundEqs (s : State) (d : Nat) : List Nat :=
  (List.range 64).filter (fun e =>
    (s.die d).queues.any (fun p => fld p.2.evq 0 6 == e) || (e == 0 && decide ((s.die d).queues.length < 1024)))

/-- Event 0x0A (R421, R468). -/
def breakEvent (x : Nat) (c : Clasp) : Ev :=
  { w0 := evW0 0x0A (if x < 64 then x / 4 else 0) 0 0, w1 := c.brk, w2 := x + c.bcause * 256, w3 := c.brk, w4 := 0, w5 := 0 }

/-- A queue of a command processor that breaks: STATE 4, no record of it starts or completes, and the number of a TASK record half placed
is not used again, so that its tiles report to no later record (R420). -/
def Queue.broken (x : Queue) : Queue :=
  { x with state := 4, head := none, placed := 0, image := none, running := [], held := false,
           nid := if x.image.isSome then x.nid + 1 else x.nid }

/-- The beads of a die that wait for room or a route are lost with their scheduler's state; those that can go on are on their way (R376,
R420, R422; log 62). -/
def loseWaiting (s : State) (d : Nat) : State :=
  let l := (s.die d).transit
  let goes (k dest : Nat) : Bool := decide (dest < 128) && (arrivals s (dest % 64)).any (fun p => p.1 == d && p.2.1 == k)
  let kept := ((List.range l.length).zip l).filter (fun p => goes p.1 p.2.1)
  let lost := ((List.range l.length).zip l).filter (fun p => !goes p.1 p.2.1)
  lost.foldl (fun s p => loseBead s p.2.2.2) (s.onDie d (fun x => { x with transit := kept.map (·.2) }))

/-- What a break does to the work that a machine serves (R420). -/
def breakWork (s : State) (x : Nat) : State :=
  let d := x / 4
  if 64 ≤ x then s
  else
    match x % 4 with
    | 0 => s.onDie d (fun y => { y with queues := (List.range 1024).map (fun i => (i, (mget Queue.reset y.queues i).broken)) })
    | 1 => (List.range 64).foldl (fun s i => faultStage s d i 3) (loseWaiting s d)
    | 2 => s
    | _ =>
      let s := if (s.die d).lock.st = 0 then s else endLock s d 6
      s.onLock d (fun y => { Lock.reset with relDies := y.relDies })

/-- A clasp breaks with a cause: MODE 4, BCAUSE and CLBRK, the events, and the effects on its work (R419 to R421). -/
def breakClasp (s : State) (x cause : Nat) : State :=
  let c := { s.clasp x with mode := 4, bcause := if (s.clasp x).bcause = 0 then cause else (s.clasp x).bcause, brk := s.hub.gtc, marked := 0 }
  let s := breakWork (s.setClasp x c) x
  let s := s.postMgmt 0x0A (x + c.bcause * 256) c.brk
  if x < 64 ∧ x % 4 = 0 then (boundEqs s (x / 4)).foldl (fun s e => s.postDie (x / 4) e (breakEvent x c)) s else s

/-- CLASP_BREAK: two live copies disagree in dual mode or with a copy retired (causes 1, 2), all three differ in triple mode (3), or a
resynchronisation restarts for the 16th time (4) (R419). -/
def execClaspBreak (s : State) : Out :=
  claspStep s (fun x c =>
    let due := match s.arg 1 with
      | 1 => c.mode == 2 || c.mode == 3
      | 2 => c.mode == 2 || c.mode == 3
      | 3 => c.mode == 1
      | 4 => c.mode == 2 && c.restarts == 15
      | _ => false
    if due then breakClasp s x (s.arg 1) else s)

/-! ## Dissent and resynchronisation -/

/-- A dissent counted: DISS, LAST and the copy's history within the window (R415, R418). -/
def Clasp.dissent (c : Clasp) (cp now : Nat) : Clasp :=
  { c with diss := Nat.min (c.diss + 1) (2 ^ 32 - 1), last := cp,
           hist := c.hist.filter (fun p => p.1 != cp || decide (now < p.2 + retireWindow)) ++ [(cp, now)] }

/-- The dissents of a copy within the window. -/
def Clasp.count (c : Clasp) (cp : Nat) : Nat := (c.hist.filter (fun p => p.1 == cp)).length

/-- The mode that stands at a tick: a change takes effect in the cycle after its dissent (R415, R418). -/
def Clasp.shown (c : Clasp) (now : Nat) : Nat := if (c.mode = 2 ∨ c.mode = 3) ∧ now < c.start then c.prev else c.mode

/-- Dual mode from a tick with a copy marked, the mode being prev until then: its resynchronisation starts (R415, R416). -/
def Clasp.resync (c : Clasp) (cp tick prev : Nat) : Clasp :=
  { c with mode := 2, marked := cp, start := tick, prev := prev, since := tick, restarts := 0 }

/-- The copy whose injected bit differs from the other two's, 0 if there is none (R415, R424). -/
def Clasp.dissenter (c : Clasp) : Nat :=
  let b (k : Nat) := bit c.upset k
  if b 1 != b 2 && b 2 == b 3 then 1 else if b 2 != b 1 && b 1 == b 3 then 2 else if b 3 != b 1 && b 1 == b 2 then 3 else 0

/-- The two live copies differ in an injected bit, in dual mode or with a copy retired (R417, R418, R424). -/
def Clasp.liveDiffer (c : Clasp) : Bool :=
  let out := if c.mode = 2 then c.marked else c.ret
  let live := [1, 2, 3].filter (· != out)
  (c.mode == 2 || c.mode == 3) && live.any (fun a => live.any (fun b => bit c.upset a != bit c.upset b))

/-- CLASP_DISSENT: a copy differs from two that agree, in triple mode, or while it is being resynchronised; the eighth dissent within
1,048,576 cycles retires it (R415, R416, R418). -/
def execClaspDissent (s : State) : Out :=
  let cp := s.arg 1
  if cp = 0 ∨ 4 ≤ cp then .fault (.noSuchAgent cp)
  else
    claspStep s (fun x c =>
      let now := s.hub.gtc
      if c.mode = 1 ∨ (c.mode = 2 ∧ c.marked = cp) then
        let y := c.dissent cp now
        if 8 ≤ y.count cp then
          s.setClasp x { y with mode := 3, ret := cp, marked := 0, start := now + 1, prev := c.shown now,
                                hist := y.hist.filter (fun p => p.1 != cp) }
        else if c.mode = 1 then s.setClasp x (y.resync cp (now + 1) 1)
        else if y.restarts = 15 then breakClasp (s.setClasp x y) x 4
        else s.setClasp x { y with since := now + 1, restarts := y.restarts + 1 }
      else s)

/-- RESYNC_COMPLETE: the last word has been copied: triple mode, RSYN and LRT; live copies that differ break the clasp (R416, R417). -/
def execResyncComplete (s : State) : Out :=
  claspStep s (fun x c =>
    let done := c.since + resyncCycles x
    if c.liveDiffer then breakClasp s x 2
    else if c.mode = 2 ∧ done ≤ s.hub.gtc then
      s.setClasp x { c with mode := 1, marked := 0, restarts := 0, upset := 0, rsyn := Nat.min (c.rsyn + 1) 65535,
                            lrt := Nat.min (done - c.start) 65535 }
    else s)

/-- CLASP_RETCLR: in MODE 3 the retired copy returns to service with a resynchronisation (R418, R423). -/
def execClaspRetclr (s : State) : Out :=
  claspStep s (fun x c => if c.shown s.hub.gtc = 3 ∧ claspReach s x then s.setClasp x { c.resync c.ret s.hub.gtc 3 with ret := 0 } else s)

/-- CLASP_INJGO: in MODE 1 bit 0 of state word 0 of copy INJ is flipped, for a comparison to find (R423). -/
def execClaspInjgo (s : State) : Out :=
  claspStep s (fun x c => if c.shown s.hub.gtc = 1 ∧ c.inj ≠ 0 ∧ claspReach s x then s.setClasp x { c with upset := c.upset ^^^ 2 ^ c.inj } else s)

/-! ## Restore -/

/-- CLASP_RESTORE: every state word of a broken machine goes to its reset value (R422). -/
def execClaspRestore (s : State) : Out :=
  claspStep s (fun x c =>
    if c.mode = 4 ∧ claspReach s x then s.setClasp x { c with mode := 5, bcause := 0, last := 0, ret := 0, marked := 0, upset := 0, restarts := 0, hist := [] } else s)

/-- One stage after its scheduler's restore: FAULTED, RW fields kept, queues empty, their beads lost, its open entries failed with 0xFB, its
waiting HOLD records complete (R420, R444). -/
def restoreStage (s : State) (d i : Nat) : State :=
  let x := s.stage d i
  let s := (x.ctl ++ x.fwd ++ x.bwd).foldl loseBead s
  let s := s.setStage d i { Stage.reset with st := .faulted, w0 := x.w0, w1 := x.w1, w2 := x.w2 }
  let s := x.opens.foldl (fun s o =>
    let s := s.postDev d 6 (stageName s d i + o.step * 2 ^ 32) (o.mb + 0xFB * 65536)
    passNotice (passNotice s d i o.step o.mb true) d i o.step o.mb false) s
  x.holdRec.foldl (fun s p => completeRec s p.1 p.2 0 0 false) s

/-- The records of a restored Pendant: START of every job that was not IDLE, ABORT, and LOADTAB and READ in progress, complete with
status 0x04 (R447). -/
def restorePendant (s : State) (d : Nat) : State :=
  let jobs := ((s.die d).pend.jobs.toList).filter (fun j => j.st != 0)
  let rs := jobs.foldl (fun l j => l ++ [j.startRec] ++ j.abortRecs) []
  let s := s.onPend d (fun _ => Pend.reset)
  let s := rs.foldl (fun s p => completeRec s p.1 p.2 4 0 false) s
  let heads := (s.die d).queues.filter (fun p =>
    match p.2.head with | some w => recKind w == 4 && p.2.placed == 1 && (recOp w == 0 || recOp w == 4) | none => false)
  heads.foldl (fun s p => runRec s (1024 * d + p.1) 4 0) s

/-- What a restore does to the work that a machine serves: the machine's own words go to their reset values, the credits of its queues
and the stage that it served last among them; failures that its scheduler had not yet told are lost (R365, R381, R420, R422, R447). -/
def restoreWork (s : State) (x : Nat) : State :=
  let d := x / 4
  if x = 80 then s
  else if 64 ≤ x then s.setMb (x - 64) { s.mb (x - 64) with tlb := [], walk := [] }
  else
    match x % 4 with
    | 0 => s.onDie d (fun y => { y with queues := y.queues.map (fun p => (p.1, { p.2 with credits := 0 })) })
    | 1 =>
      let lost := (s.die d).retire.filter (fun r => r.2.2.2 != 0)
      let s := lost.foldl (fun s r => loseBead s r.2.2.1) s
      (List.range 64).foldl (fun s i => restoreStage s d i) (s.onDie d (fun y => { y with retire := [], notices := [], lastStage := 63 }))
    | 2 => restorePendant s d
    | _ => s.onLock d (fun y => { Lock.reset with relDies := y.relDies })

/-- CLASP_RESTORE_DONE: MODE 1 again, with the effects of R420 (R422). -/
def execClaspRestoreDone (s : State) : Out :=
  claspStep s (fun x c => if c.mode = 5 then restoreWork (s.setClasp x { c with mode := 1, restores := c.restores + 1 }) x else s)

/-! ## Registers -/

/-- CLSTAT; in the cycle of a dissent MODE and RET are still as they were (R415, R418, R423). -/
def Clasp.stat (c : Clasp) (now : Nat) : Nat :=
  c.shown now + c.last * 256 + (if c.shown now = c.mode then c.ret else 0) * 1024 + c.bcause * 65536

/-- CLCNT (R423). -/
def Clasp.cnt (c : Clasp) : Nat := c.lrt + c.rsyn * 65536 + c.diss * 2 ^ 32

/-- CLCNT_READ: the read's value is what rdData then holds; DISS and RSYN are cleared (R11, R423). -/
def execClcntRead (s : State) : Out :=
  claspStep s (fun x c => if !claspReach s x then s else (s.setClasp x { c with diss := 0, rsyn := 0 }).onHub (fun h => { h with rdData := c.cnt }))

end Sys2Proof.Machine
end

