-- ==== Sys2Proof/Machine/Bringup.lean ====
section
/-! DEFINITION. Bring-up, readiness, power states, thermal trip and the root of trust (R473 to R481). -/

namespace Sys2Proof.Machine

/-- The bits of a 16-bit field that are set in both, or in the first and not in the second. -/
def without (a b : Nat) : Nat := (List.range 16).foldl (fun v k => if bit a k && !bit b k then v + 2 ^ k else v) 0

/-! ## Reset and the root of trust -/

/-- The conductances of a facet, which outlast reset (R476, R479). -/
def Facet.cells (x : Facet) : Facet := { Facet.reset with a := x.a, c := x.c, aEpoch := x.aEpoch, cEpoch := x.cEpoch, cols := x.cols }

/-- A tile after module reset, its facets' conductances as they were. -/
def Tile.cells (t : Tile) : Tile := { Tile.reset with facets := t.facets.map Facet.cells }

/-- The module after a loss of all state but the contents of HBM, second tier and the memories outside, the flash, and the conductances
(R474, R479, R480). What the slices hold of HBM counts as its contents (log 9). -/
def loseState (s : State) : State :=
  let r := State.reset
  let kept (f : Flaw) : Bool := match f with | .unit k _ => decide (2 ^ 56 ≤ k) | _ => false
  { r with
    core := s.core.cells, self := s.self, others := s.others.map (fun p => (p.1, p.2.cells)),
    mem := s.mem.filter (fun c => decide (2 ^ 56 ≤ c.1)), poison := s.poison.filter (fun k => decide (2 ^ 56 ≤ k)),
    codes := { Codes.reset with flaws := s.codes.flaws.filter kept },
    hub := { Hub.reset with ctr := s.hub.ctr, flash := s.hub.flash, flashNew := s.hub.flashNew }, args := s.args, free := s.free }

/-- A record, image or statement is accepted only where both its RSA-3072 and its SLH-DSA signature verify (R5). -/
def accepted (rsa slh : Bool) : Bool := rsa && slh

/-- What the boot sequencer finds of a configuration record: the FAIL code, 0 where all verifies (R480, R481). Operand 0 of MODULE_RESET
has bit 0 set where the flash cannot be read, bits 1 and 2 where the RSA and the SLH-DSA signature of the record fail; operands 1 and 2
name the images whose RSA and SLH-DSA signatures fail; the operands from 3 on are the versions of the images, the least one that is
allowed where none is given (log A17). -/
def bootFail (s : State) (c : CfgRecord) : Nat :=
  let images := List.range c.minVer.length
  if bit (s.arg 0) 0 then 5
  else if !accepted (!bit (s.arg 0) 1) (!bit (s.arg 0) 2) then 1
  else if c.v < s.hub.ctr then 2
  else if images.any (fun i => !accepted (!bit (s.arg 1) i) (!bit (s.arg 2) i)) || s.arg 1 / 2 ^ c.minVer.length != 0 ||
      s.arg 2 / 2 ^ c.minVer.length != 0 then 3
  else if images.any (fun i => decide (s.args.getD (3 + i) (c.minVer.getD i 0) < c.minVer.getD i 0)) then 4
  else 0

/-- MODULE_RESET: the boot sequencer verifies the configuration record, an update of it where one has been written whole, and the images.
Once everything has verified, C is raised to V and an update is the record (R474, R480, R481). -/
def execModuleReset (s : State) : Out :=
  let c := s.hub.flashNew.getD s.hub.flash
  let fail := bootFail s c
  .next ((loseState s).onHub (fun h =>
    if fail = 0 then { h with fail := 0, booted := true, ctr := max h.ctr c.v, flash := c, flashNew := none }
    else { h with fail := fail, booted := false }))

/-- SIGNED_UPDATE: an update that is written whole (operand 0 = 1) is a configuration record with the rollback value of operand 1, and
where the operands from 2 on are given their FEATCAP, serial number and minimum versions; it is verified at the next reset (R480, R481). -/
def execSignedUpdate (s : State) : Out :=
  let c := s.hub.flash
  let new : CfgRecord := { c with v := s.arg 1, featcap := s.args.getD 2 c.featcap, serial := s.args.getD 3 c.serial,
                                  minVer := if s.args.length ≤ 4 then c.minVer else s.args.drop 4 }
  if s.arg 0 = 1 ∧ s.claspUp 80 then .next (s.onHub (fun h => { h with flashNew := some new })) else .next s

/-! ## Readiness -/

/-- A number with bit k set. -/
def withBit (x k : Nat) : Nat := if bit x k then x else x + 2 ^ k

/-- A bit of a raw readiness word set; events that waited for it are written (R467, R474). -/
def setRdy (s : State) (d k : Nat) : State :=
  pumpAll (s.onHub (fun h => { h with rdy := h.rdy.setIfInBounds d (withBit (h.rdy.getD d 0) k) }))

/-- A bit of the hub dies' readiness set (R474). -/
def setRdyh (s : State) (k : Nat) : State := pumpAll (s.onHub (fun h => { h with rdyh := withBit h.rdyh k }))

/-- FUNCTION_READY: a function finishes its self-test: 0 to 15 the compute dies, then the base dies, HBM stacks, Pendants, Lockets and
second-tier channels, 16 each, 96 HD1 and 97 HD0; a compute die waits for its hub die, a gated die takes no part, and start-up needs
the boot sequencer's clasp (R420, R474, R478). -/
def execFunctionReady (s : State) : Out :=
  let fn := s.arg 0
  let d := fn % 16
  let h := s.hub
  if 98 ≤ fn then .fault (.noSuchAgent fn)
  else if !h.rot || !s.claspUp 80 then .next s
  else
    match fn / 16 with
    | 0 => .next (if bit h.rdyh (d / 8) && !bit h.gate d then setRdy s d 0 else s)
    | 1 => .next (setRdy s d 1)
    | 2 => .next (setRdy s d 2)
    | 3 => .next (if bit h.gate d then s else setRdy s d 3)
    | 4 => .next (if bit h.gate d then s else setRdy s d 4)
    | 5 => .next (setRdyh s (8 + d))
    | _ => .next (setRdyh s (if fn = 96 then 1 else 0))

/-- Every facet of a die is ready: FCAL (R474). -/
def facetsReady (s : State) (d n : Nat) : Bool :=
  (List.range n).all (fun b => ((s.tile (64 * d + b / 8)).facet (b % 8)).ready)

/-- RDYd (R474). -/
def rdyWord (s : State) (d : Nat) : Nat :=
  let raw := s.hub.rdy.getD d 0
  b2n (bit raw 0 && s.claspUp (4 * d) && s.claspUp (4 * d + 1)) + 2 * b2n (bit raw 1) + 4 * b2n (bit raw 2 && !bit s.hub.sref d) +
    8 * b2n (bit raw 3 && s.claspUp (4 * d + 2)) + 16 * b2n (bit raw 4 && s.claspUp (4 * d + 3)) +
    32 * b2n (s.hub.rot && linkState s d != 0) + 64 * b2n (s.hub.rot && linkState s (16 + d) != 0) +
    128 * b2n (bit raw 0 && facetsReady s d 512)

/-- RDYH (R474). -/
def rdyhWord (s : State) : Nat :=
  let h := s.hub
  let up := h.rot
  b2n (bit h.rdyh 0 && s.claspUp 80) + 2 * b2n (bit h.rdyh 1) + 4 * b2n up + 8 * b2n (up && linkState s 33 != 0) +
    16 * b2n (up && linkState s 34 != 0) + 32 * b2n (up && linkState s 32 != 0) + 256 * without (bits h.rdyh 8 16) h.tgate

/-- A facet f of tile t after its calibration at start, an XSYM.CAL and an XRST.all in normal mode: FCFG at reset, PCTR, RWA and RWC zero,
SYM the column means, every cell of A within 2^-6 of SYM, C and FOB as they were; one that fails has ERR and ECODE 0x03, and any A (R476,
R478; log A10). -/
def Facet.calibrated (x : Facet) (t f free gtc : Nat) (bad : Bool) : Facet :=
  let y := { (Facet.reset.settle t f free gtc) with c := x.c, cEpoch := x.cEpoch, fob := x.fob, ready := true }
  if bad then { y with err := true, ecode := 3, cols := [] }
  else { y with cols := (List.range 1024).map (fun j => (j, free + 1, some (y.symG j), true)) }

/-- FACET_STARTUP_CALIBRATION: once DIE is 1, a facet of the first 64 that are not all ready calibrates; operand 2 = 1 where it fails
(R476). -/
def execFacetStartupCalibration (s : State) : Out :=
  let t := s.arg 0
  let f := s.arg 1
  let d := tileDie t
  let b := 8 * (t % 64) + f
  if 1024 ≤ t then .fault (.noSuchAgent t)
  else if 8 ≤ f then .fault (.noSuchAgent f)
  else if bit (rdyWord s d) 0 && !((s.tile t).facet f).ready && facetsReady s d (b / 64 * 64) then
    .next { s.onTile t (fun x => x.setFacet f ((x.facet f).calibrated t f s.free s.hub.gtc (s.arg 2 == 1))) with free := s.free + 2 }
  else .next s

/-! ## Power states -/

/-- CLK_WRITE: settings 10 to 15 are ignored, and nothing is taken before the configuration has verified (R477, R481). -/
def execClkWrite (s : State) : Out :=
  dieStep s (fun d => if !s.hub.rot || decide (10 ≤ s.arg 1 % 16) then s else s.onDie d (fun x => { x with clkNext := some (s.arg 1 % 16) }))

/-- CLOCK_SWITCH (R478). -/
def execClockSwitch (s : State) : Out :=
  dieStep s (fun d => s.onDie d (fun x => match x.clkNext with | some v => { x with clk := v, clkNext := none } | none => x))

/-- A die is busy: a queue has EN = 1, or a tile holds a task (R478). -/
def dieBusy (s : State) (d : Nat) : Bool :=
  (s.die d).queues.any (fun p => fld p.2.cfg 4 1 == 1) ||
    (List.range 64).any (fun k =>
      let x := (s.tile (64 * d + k)).task
      x.launch.isSome || x.placed.isSome || !x.drains.isEmpty)

/-- A die gated: DIE, PEND, LOCK and FCAL fall, its scratchpads and its stage table are lost (R478), with what was wrong in them and with the beads in its queues (R444). -/
def gateDie (s : State) (d : Nat) : State :=
  let lost (k : Nat) : Bool := decide (scratchKey (64 * d) 0 ≤ k) && decide (k < scratchKey (64 * (d + 1)) 0)
  let s := s.onHub (fun h => { h with rdy := h.rdy.setIfInBounds d (bits (h.rdy.getD d 0) 1 2 * 2) })
  let s := ((s.die d).stages.flatMap (fun p => p.2.ctl ++ p.2.fwd ++ p.2.bwd)).foldl loseBead s
  let s := s.onDie d (fun x => { x with stages := [] })
  let s := s.mapTiles (fun t x => if tileDie t = d then { x with facets := x.facets.map (fun f => { f with ready := false }) } else x)
  let kept (f : Flaw) : Bool := match f with | .unit k _ => !lost k | .stage k _ => k != d | .soft (.stage k _) => k != d | _ => true
  { s with mem := s.mem.filter (fun c => !lost c.1), poison := s.poison.filter (fun k => !lost k),
           view := s.view.filter (fun v => !lost (4 * v.word)), codes := { s.codes with flaws := s.codes.flaws.filter kept } }

/-- The part of a write of GATE, SREF or TGATE for die d: a busy die refuses its gate, with its REF bit set; another is gated; a die whose
bit falls is ungated, and its functions come up again (R477, R478). -/
def dieBit (off d : Nat) (b : Bool) (s : State) : State :=
  let put (v : Nat) : Nat := setBits v d 1 (b2n b)
  if off = 0x1001080 then
    if b && !bit s.hub.gate d then
      (if dieBusy s d then s.onHub (fun h => { h with ref := withBit h.ref d }) else gateDie (s.onHub (fun h => { h with gate := put h.gate })) d)
    else s.onHub (fun h => { h with gate := put h.gate })
  else if off = 0x1001088 then s.onHub (fun h => { h with sref := put h.sref })
  else s.onHub (fun h => { h with tgate := put h.tgate })

/-- Which of the sixteen bits of GATE, SREF or TGATE stand (R477). -/
def dieBits (h : Hub) (off : Nat) : Nat := if off = 0x1001080 then h.gate else if off = 0x1001088 then h.sref else h.tgate

/-- A write of GATE, SREF or TGATE: each die does its part, and where no spine leads from HD0 to it that waits (R462, R477, R478). DESIGN
CHOICE: a bit reads as written once its die has it (log 73). -/
def dieBitsWrite (s : State) (off v : Nat) : State :=
  let s := s.onHub (fun h => { h with writes := h.writes.filter (fun w => !(w.headD 0 == off && w.length == 4)) })
  (List.range 16).foldl (fun s d =>
    if spineOk s d 0 then dieBit off d (bit v d) s
    else if bit v d = bit (dieBits s.hub off) d then s
    else s.onHub (fun h => { h with writes := h.writes ++ [[off, b2n (bit v d), 0, d]] })) s

/-- GATE_WRITE: REF bits written 1 are cleared, and the dies are gated and ungated (R12, R477, R478). -/
def execGateWrite (s : State) : Out :=
  if !s.hub.rot then .next s else
  let v := s.arg 0
  .next (dieBitsWrite (s.onHub (fun h => { h with ref := without h.ref (bits v 16 16) })) 0x1001080 v)

/-- SREF_WRITE (R478). -/
def execSrefWrite (s : State) : Out := if !s.hub.rot then .next s else .next (pumpAll (dieBitsWrite s 0x1001088 (s.arg 0)))

/-- TGATE_WRITE (R478). -/
def execTgateWrite (s : State) : Out := if !s.hub.rot then .next s else .next (pumpAll (dieBitsWrite s 0x1001098 (s.arg 0)))

/-- LANES as last written. -/
def Hub.lanesReg (h : Hub) : Nat := h.lanesNext.getD h.lanes

/-- LANES_WRITE: code 0b11 leaves a hop as it is; the others retrain (R477, R478). -/
def execLanesWrite (s : State) : Out :=
  if !s.hub.rot then .next s else
  let v := s.arg 0
  .next (s.onHub (fun h =>
    let old := h.lanesReg
    { h with lanesNext := some (packFields 2 (fun k => if bits v (2 * k) 2 = 3 then bits old (2 * k) 2 else bits v (2 * k) 2) 16) }))

/-- A link's state changed, with event 0x0C; answers and events that waited for the route go on (R349, R461, R467, R468). -/
def setLink (s : State) (l st : Nat) : State :=
  if linkState s l = st then s
  else (if st = 0 then pumpAll else fun s => pumpAll (pumpAnswers s)) ((s.onHub (fun h => { h with links := mset h.links l st })).postMgmt 0x0C (l + st * 256) 0)

/-- HOP_RETRAIN: a hop whose width was written, and to whose die a spine leads, retrains at that width, and is then UP (R461, R462, R478). -/
def execHopRetrain (s : State) : Out :=
  let k := s.arg 0
  if 16 ≤ k then .fault (.noSuchAgent k)
  else if !spineOk s k 0 then .next s
  else
    match s.hub.lanesNext with
    | none => .next s
    | some v => .next (setLink (s.onHub (fun h => { h with lanes := setBits h.lanes (2 * k) 2 (bits v (2 * k) 2) })) k 1)

/-! ## Thermal trip -/

/-- The trip's event: it is dropped, with OVF, where the queue has no room or EN = 0 (R479). -/
def tripEvent (s : State) (u reading : Nat) : State :=
  let h := s.hub
  let e : Ev := { w0 := evW0 0x0D 0 0 0, w1 := h.gtc, w2 := u + reading % 65536 * 65536, w3 := h.gtc, w4 := 0, w5 := 0 }
  match if h.mgmtWait = [] then evWrite s 16 0 e else (false, s) with
  | (true, s) => s
  | (false, s) => s.onHub (fun h => { h with mgmt := { h.mgmt with cfg := setFld h.mgmt.cfg 6 1 1 } })

/-- A facet's command interrupted by a trip: XUPD and XFER leave their array with some of their pulses applied, as a failed self-check
does; the spec says nothing of XRST and XSYM.CAL, after which A is free (R241, R479; log A10). -/
def interrupt (s : State) (t f : Nat) : State :=
  let s := { s with args := [t, f, 1] }
  let x := (s.tile t).facet f
  match x.queue with
  | c :: _ =>
    if x.busy = false ∨ x.held then s
    else if c.op = 3 then runXupd s t f c x
    else if c.op = 5 then runXfer s t f c x
    else if (c.op = 6 ∨ c.op = 7) ∧ x.isRef = false then
      { s.onTile t (fun y => y.setFacet f { x with a := [], cols := [], aEpoch := s.free }) with free := s.free + 1 }
    else s
  | [] => s

/-- THERMAL_TRIP: a sensor of unit u has reached 105 degrees: the module halts, READY bits fall but HD0's, and everything is lost but HBM
and second-tier contents and the record of the trip (R479). -/
def execThermalTrip (s : State) : Out :=
  let u := s.arg 0
  let reading := s.arg 1
  if 34 ≤ u then .fault (.noSuchAgent u)
  else if reading < 1680 then .next s
  else if s.hub.tripped then .next (s.onHub (fun h => { h with trips := mset h.trips u reading }))
  else
    let s1 := tripEvent s u reading
    let cut := loseState (s1.tileNums.foldl (fun s t => (List.range 8).foldl (fun s f => interrupt s t f) s) s1)
    .next { loseState s1 with
      core := cut.core, others := cut.others, free := cut.free,
      hub := { Hub.reset with ctr := s1.hub.ctr, flash := s1.hub.flash, flashNew := s1.hub.flashNew, gtc := s1.hub.gtc, mgmt := s1.hub.mgmt,
                              rdyh := s1.hub.rdyh % 2, booted := s1.hub.booted, tripped := true, sref := 65535, tgate := 65535,
                              trips := mset s1.hub.trips u reading } }

end Sys2Proof.Machine
end

