-- ==== Sys2Proof/Machine/Host.lean ====
section
/-! DEFINITION. What the host, the links and the peer modules do: register space, apertures, features, events, link states (R457 to
R473). -/

namespace Sys2Proof.Machine

/-! ## Links -/

/-- LINK_RETRY: a flit is resent and delivered once, in order; nothing but time passes (R460; log A14). -/
def execLinkRetry (s : State) : Out := if 35 ≤ s.arg 0 then .fault (.noSuchAgent (s.arg 0)) else .next s

/-- HOP_DOWN: a hop, spine or other link that fails goes DOWN, with event 0x0C (R461, R462). -/
def execHopDown (s : State) : Out := if 35 ≤ s.arg 0 then .fault (.noSuchAgent (s.arg 0)) else .next (setLink s (s.arg 0) 0)

/-- PEER_PORT_UP: port 0 east, 1 west, once enabled, when both ends have the same M and adjacent positions; operands 1 and 2 are M and the
position of the far end (R469; log 17). -/
def execPeerPortUp (s : State) : Out :=
  let p := fld s.hub.prcfg 0 5
  let m := fld s.hub.prcfg 5 5 + 1
  if 2 ≤ s.arg 0 then .fault (.noSuchAgent (s.arg 0))
  else if fld s.hub.prcfg 10 1 = 1 ∧ p < m ∧ s.arg 1 = m ∧ s.arg 2 = (if s.arg 0 = 0 then p + 1 else p + m - 1) % m then
    .next (setLink s (34 - s.arg 0) 1)
  else .next s

/-- GTC_SYNC: operand 0 is the skew from position 0 in ns, operand 1 is 1 where this module is ahead; SYNC tells that the skew is within
20 ns, and GTC is slewed by it, but for position 0, which is the source (R471; log A14). -/
def execGtcSync (s : State) : Out :=
  let skew : Int := if fld s.hub.prcfg 0 5 = 0 then 0 else if s.arg 1 = 1 then -(s.arg 0 : Int) else s.arg 0
  .next (s.onHub (fun h => { h with prcfg := setFld h.prcfg 11 1 (b2n (decide (s.arg 0 ≤ 20))), slew := skew }))

/-! ## Features -/

/-- FEATACC_WRITE: the first write that is a subset of FEATCAP with bit 0 set is taken; FSTAT tells of the others (R472); none is offered before
the configuration has verified (R481). -/
def execFeataccWrite (s : State) : Out :=
  let v := s.arg 0 % 2 ^ 256
  if !s.hub.rot then .next s
  else .next (s.onHub (fun h =>
    if bit h.featacc 0 then { h with fstat := withBit h.fstat 1 }
    else if bit v 0 ∧ v &&& h.flash.featcap = v then { h with featacc := v }
    else { h with fstat := withBit h.fstat 0 }))

/-! ## Event queues -/

/-- Event queue e: 64 d + eq, or 1024 for the management event queue. -/
def evqOf (s : State) (e : Nat) : EvQ := if e = 1024 then s.hub.mgmt else mget EvQ.reset (s.die (e / 64)).evqs (e % 64)

/-- An event queue replaced, and its waiting events written where they now may be (R467). -/
def setEvq (s : State) (e : Nat) (q : EvQ) : State :=
  if e = 1024 then pumpMgmt (s.onHub (fun h => { h with mgmt := q }))
  else pumpDie (s.onDie (e / 64) (fun d => { d with evqs := mset d.evqs (e % 64) q })) (e / 64)

/-- EQRC_WRITE: the read count, the end of the outstanding interrupt, and the events that now have room (R466, R467). -/
def execEqrcWrite (s : State) : Out :=
  let e := s.arg 0
  if 1025 ≤ e then .fault (.noSuchAgent e)
  else if !s.hub.rot then .next s
  else .next (setEvq s e { evqOf s e with rc := s.arg 1 % 2 ^ 64, out := false })

/-- EQCFG as written: OVF is cleared by 1, EN needs accepted features, a reserved depth stays (R466, R472). -/
def eqcfgWrite (s : State) (old : Word) (v : Nat) : Word :=
  let o := old.toNat
  let ld := if 13 ≤ bits v 0 4 then bits o 0 4 else bits v 0 4
  let en := if bit s.hub.featacc 0 then bits v 4 1 else bits o 4 1
  BitVec.ofNat 64 (ld + en * 16 + bits v 5 1 * 32 + b2n (bit o 6 && !bit v 6) * 64 + bits v 16 11 * 65536)

/-- A write of a register of an event queue; EQBASE is written like QBASE, EQWC is read only (R465, R466). -/
def eqWrite (s : State) (e r v : Nat) : State :=
  let q := evqOf s e
  match r with
  | 0 => if fld q.cfg 4 1 = 1 ∨ locBad v 4096 3 ≠ 0 then s else setEvq s e { q with base := BitVec.ofNat 64 v }
  | 8 => setEvq s e { q with cfg := eqcfgWrite s q.cfg v }
  | 24 => setEvq s e { q with rc := v, out := false }
  | _ => s

/-- A register of an event queue as read (R466). -/
def eqRead (s : State) (e r : Nat) : Nat :=
  let q := evqOf s e
  match r with | 0 => q.base.toNat | 8 => q.cfg.toNat | 16 => q.wc | 24 => q.rc | _ => 0

/-! ## Queue blocks -/

/-- An alignment of a ring: the smaller of 64 x depth and 4,096 (R465). -/
def ringAlign (x : Queue) : Nat := Nat.min (64 * depthOf x.cfg) 4096

/-- A step of the table made with operands of its own, its outcome's operands put back. -/
def viaStep (s : State) (f : State → Out) (args : List Nat) : Out :=
  match f { s with args := args } with
  | .next s' => .next { s' with args := s.args }
  | .fault x => .fault x
  | .refused x => .refused x

/-- A write of a register of a queue block (R465). -/
def qWrite (s : State) (q r v : Nat) : Out :=
  let x := s.queue q
  match r with
  | 0x00 => viaStep s execQcfgWrite [q, v]
  | 0x08 => viaStep s execQwcWrite [q, v]
  | 0x18 => viaStep s execQrstWrite [q, v]
  | 0x28 => .next (if fld x.cfg 4 1 = 1 ∨ locBad v (ringAlign x) 3 ≠ 0 then s else s.setQueue q { x with base := BitVec.ofNat 64 v })
  | 0x30 => .next (if fld x.cfg 4 1 = 1 ∨ 64 ≤ v then s else s.setQueue q { x with evq := BitVec.ofNat 64 v })
  | _ => .next s

/-- A register of a queue block as read (R363, R465). -/
def qRead (s : State) (q r : Nat) : Nat :=
  let x := s.queue q
  match r with
  | 0x00 => x.cfg.toNat
  | 0x08 => x.wc
  | 0x10 => x.rc
  | 0x18 => x.rst.toNat
  | 0x20 => x.ecode * 256 + x.state
  | 0x28 => x.base.toNat
  | 0x30 => x.evq.toNat
  | _ => 0

/-! ## Management space -/

/-- PRCFG as written: POS and MM1 stay while EN = 1, EN needs the peer-ring feature; a port that is disabled goes DOWN (R469, R472). -/
def prcfgWrite (s : State) (v : Nat) : State :=
  let o := s.hub.prcfg.toNat
  let low := if bit o 10 then bits o 0 10 else bits v 0 10
  let en := if bit s.hub.featacc 9 then bits v 10 1 else bits o 10 1
  let s := s.onHub (fun h => { h with prcfg := BitVec.ofNat 64 (low + en * 1024 + bits o 11 1 * 2048) })
  if bit o 10 ∧ en = 0 then setLink (setLink s 33 0) 34 0 else s

/-- A write of CLCTL: INJ is stored, then each command bit that is 1 acts (R423). -/
def clctlWrite (s : State) (x v : Nat) : Out :=
  let s := s.setClasp x { s.clasp x with inj := bits v 6 2 }
  let go (b : Nat) (f : State → Out) (o : Out) : Out := match o with | .next s => if bit v b then viaStep s f [x] else .next s | e => e
  go 0 execClaspRestore (go 1 execClaspInjgo (go 4 execClaspRetclr (.next s)))

/-- A write of FRES: another ACT, an unknown number or a reserved bit is ignored and counted (R349). -/
def fresWrite (s : State) (m v : Nat) : Out :=
  if bits v 18 46 ≠ 0 then .next (fresIgnored s m)
  else
    match bits v 16 2 with
    | 1 => viaStep s execFresRetry [m, bits v 0 16]
    | 2 => viaStep s execFresEnd [m, bits v 0 16]
    | _ => .next (fresIgnored s m)

/-- A write of INVC, number 16 the broadcast copy, which stores the fields at each MTU that a spine leads to: GO starts the command unless a
field is reserved (R351, R462). -/
def invcWrite (s : State) (m v : Nat) : Out :=
  let keep := v / 256 * 256 + bits v 2 4 * 4
  let put (s : State) (k : Nat) : State := s.setMb k { s.mb k with inv := BitVec.ofNat 64 (keep + fld (s.mb k).inv 1 1 * 2) }
  let s := if m = 16 then ((List.range 16).filter (fun k => spineOk s k 0)).foldl put (put s 16) else put s m
  if bit v 0 = false then .next s
  else
    match bits v 4 2 with
    | 0 => if bits v 2 2 = 3 then .next s else viaStep s execInvcAll [m]
    | 1 => if bits v 2 2 = 3 then .next s else viaStep s execInvcSpace [m, bits v 2 2]
    | 2 => if bits v 2 2 = 3 then .next s else viaStep s execInvcRange [m, bits v 2 2, v / 4096, bits v 8 4 + 1]
    | _ => .next s

/-- A write of a register of a base die (R341, R349, R351). -/
def mbWrite (s : State) (m r v : Nat) : Out :=
  let root : Word := BitVec.ofNat 64 (bits v 8 44 * 256)
  match r with
  | 0x00 => .next (s.setMb m { s.mb m with ptb0 := root })
  | 0x08 => .next (s.setMb m { s.mb m with ptb1 := root })
  | 0x10 => .next (s.setMb m { s.mb m with ptb2 := root })
  | 0x18 => fresWrite s m v
  | 0x20 => invcWrite s m v
  | _ => .next s

/-- A write of a monitor register of a tile; one with a reserved bit set is ignored (R394). -/
def monWrite (s : State) (t r v : Nat) : State :=
  match r with
  | 0 =>
    if bits v 0 4 ≠ 0 ∨ bits v 56 8 ≠ 0 then s
    else s.onTile t (fun x => x.onSpr (fun p => { p with mvec := BitVec.ofNat 64 v }))
  | 8 => s.onTile t (fun x => x.onSpr (fun p => { p with mrng := BitVec.ofNat 64 v }))
  | 16 =>
    if 128 ≤ v ∨ 48 ≤ v % 64 then s
    else s.onTile t (fun x => x.onSpr (fun p => { p with mcsb := BitVec.ofNat 64 v }))
  | _ => s

/-- A write in the management space at an offset of it (R473). -/
def mgmtWrite (s : State) (m v : Nat) : Out :=
  if 0x1000 ≤ m ∧ m < 0x1080 then viaStep s execClkWrite [(m - 0x1000) / 8, v]
  else if m = 0x1080 then viaStep s execGateWrite [v]
  else if m = 0x1088 then viaStep s execSrefWrite [v]
  else if m = 0x1090 then viaStep s execLanesWrite [v]
  else if m = 0x1098 then viaStep s execTgateWrite [v]
  else if 0x4000 ≤ m ∧ m < 0x4000 + 64 * 81 then (if m % 64 = 0x18 then clctlWrite s ((m - 0x4000) / 64) v else .next s)
  else if 0x6000 ≤ m ∧ m < 0x6040 then
    .next (s.onHub (fun h => { h with hwin := h.hwin.setIfInBounds ((m - 0x6000) / 8) (BitVec.ofNat 64 v) }))
  else if 0x100000 ≤ m ∧ m < 0x200000 then
    (if m % 65536 < 2048 then .next (monWrite s (64 * ((m - 0x100000) / 65536) + m % 65536 / 32) (m % 32) v) else .next s)
  else if 0x200000 ≤ m ∧ m < 0x210000 then mbWrite s ((m - 0x200000) / 4096) (m % 4096) v
  else if m = 0x2FF000 then invcWrite s 16 v
  else .next s

/-- A word of the activation log of base die m, the ring of its last 64 records of 16 bytes: a function of the record that stands there, of
whose fields the spec does not give the places; a slot without one reads zero (R331, R479; log A18). -/
def logWord (s : State) (m w : Nat) : Nat :=
  let x := s.mb m
  match (List.range x.log.length).find? (fun p => (x.alerts + p - x.log.length) % 64 == w / 2) with
  | some p =>
    let r := x.log.getD p (0, 0)
    Config.freeNat (((2 ^ 192 + r.1) * 2 ^ 64 + r.2) * 32 + 2 * m + w % 2) % 2 ^ 64
  | none => 0

/-- A register of a base die as read; DONE of the broadcast copy is 1 only when every MTU has completed (R351). -/
def mbRead (s : State) (m r : Nat) : Nat :=
  let x := s.mb m
  match r with
  | 0x00 => x.ptb0.toNat
  | 0x08 => x.ptb1.toNat
  | 0x10 => x.ptb2.toNat
  | 0x20 => x.inv.toNat
  | _ => if 0x800 ≤ r ∧ r < 0xC00 then logWord s m ((r - 0x800) / 8) else 0

/-- A word of a telemetry unit: counters where the module keeps them, sensors free; so are the hub dies' counts, whose storage has no
state here (R479; log A18). -/
def telRead (s : State) (u w : Nat) : Nat :=
  let m := u - 16
  let isMb : Bool := 16 ≤ u && decide (u < 32)
  let count (i : Nat) : Nat :=
    if u < 32 then mget 0 s.codes.tally (if isMb then 2 * m + i else 32 + 2 * u + i) else Config.sensor u (2 ^ (64 + i) + s.hub.gtc)
  match w with
  | 0 => match s.hub.trips.find? (fun p => p.1 == u) with
         | some p => p.2 % 65536 + 65536
         | none => let r := Config.sensor u s.hub.gtc % 65536; r + b2n (decide (1520 ≤ r)) * 65536
  | 3 => count 0
  | 4 => count 1
  | 5 => if isMb then (s.mb m).scrub else 0
  | 6 => if isMb then (s.mb m).alerts else 0
  | 7 => s.hub.gtc
  | n => Config.sensor u (2 ^ (65 + n) + s.hub.gtc)

/-- SECSTAT (R481). -/
def secstat (h : Hub) : Nat := h.fail % 16 + h.ctr % 2 ^ 32 * 256

/-- A read in the management space (R473, R474, R477, R481); CLCNT's effect on itself is CLCNT_READ's. DESIGN CHOICE: DONE of the broadcast
copy is that of its own last command, and stays 1 while an MTU runs a command of its own INVC (R351; log 73). -/
def mgmtRead (s : State) (m : Nat) : Nat :=
  if m < 0x80 then rdyWord s (m / 8)
  else if m = 0x80 then rdyhWord s
  else if 0x100 ≤ m ∧ m < 0x500 then
    let d := (m - 0x100) / 64
    let w := m % 64 / 8
    packFields 1 (fun b => b2n ((s.tile (64 * d + 8 * w + b / 8)).facet (b % 8)).ready) 64
  else if 0x1000 ≤ m ∧ m < 0x1080 then (let x := s.die ((m - 0x1000) / 8); x.clkNext.getD x.clk)
  else if m = 0x1080 then s.hub.gate + s.hub.ref * 65536
  else if m = 0x1088 then s.hub.sref
  else if m = 0x1090 then s.hub.lanesReg
  else if m = 0x1098 then s.hub.tgate
  else if 0x2000 ≤ m ∧ m < 0x2000 + 64 * 34 then telRead s ((m - 0x2000) / 64) (m % 64 / 8)
  else if 0x4000 ≤ m ∧ m < 0x4000 + 64 * 81 then
    let c := s.clasp ((m - 0x4000) / 64)
    match m % 64 with | 0 => c.stat s.hub.gtc | 8 => c.cnt | 16 => c.brk | 24 => c.inj * 64 | _ => 0
  else if 0x6000 ≤ m ∧ m < 0x6040 then (s.hub.hwin.getD ((m - 0x6000) / 8) 0).toNat
  else if m = 0x7000 then secstat s.hub
  else if 0x100000 ≤ m ∧ m < 0x200000 ∧ m % 65536 < 2048 then
    let p := (s.tile (64 * ((m - 0x100000) / 65536) + m % 65536 / 32)).spr
    match m % 32 with | 0 => p.mvec.toNat | 8 => p.mrng.toNat | 16 => p.mcsb.toNat | _ => 0
  else if 0x200000 ≤ m ∧ m < 0x210000 then mbRead s ((m - 0x200000) / 4096) (m % 4096)
  else if m = 0x2FF000 then (s.mb 16).inv.toNat
  else 0

/-! ## BAR0 -/

/-- Whether BAR0 offers an offset while the configuration is not verified: readiness and SECSTAT only (R481). -/
def offered (h : Hub) (off : Nat) : Bool :=
  (h.booted && !h.tripped) || (decide (0x1000000 ≤ off) && decide (off < 0x1000500)) || off == 0x1007000 ||
    (h.tripped && decide (0x1002000 ≤ off) && decide (off < 0x1002000 + 64 * 34))

/-- An 8-byte register of BAR0 as read (R464, R473). -/
def regRead (s : State) (off : Nat) : Nat :=
  if off % 8 ≠ 0 ∨ offered s.hub off = false then 0
  else if off < 0x20 then bits s.hub.flash.featcap (8 * off) 64
  else if off < 0x40 then bits s.hub.featacc (8 * (off - 0x20)) 64
  else if off = 0x40 then s.hub.fstat
  else if off = 0x60 then s.hub.prcfg.toNat
  else if 0x10000 ≤ off ∧ off < 0x20000 then
    let d := (off - 0x10000) / 4096
    let r := off % 4096
    if r < 0x800 then eqRead s (64 * d + r / 32) (r % 32) else if r = 0x800 then (s.die d).devq.toNat else 0
  else if 0x20000 ≤ off ∧ off < 0x20020 then eqRead s 1024 (off - 0x20000)
  else if 0x100000 ≤ off ∧ off < 0x100000 + 64 * 16384 then qRead s ((off - 0x100000) / 64) (off % 64)
  else if 0x1000000 ≤ off then mgmtRead s (off - 0x1000000)
  else 0

/-- The dies, besides the hub die, that a write at an offset of BAR0 has to reach: that of an event queue, a work queue, a clock, a tile or a
clasped machine, or that on which a base die stands (R411, R462, R464, R473). -/
def regDies (off : Nat) : List Nat :=
  let m := off - 0x1000000
  if 0x10000 ≤ off ∧ off < 0x20000 then [(off - 0x10000) / 4096]
  else if 0x100000 ≤ off ∧ off < 0x200000 then [(off - 0x100000) / 64 / 1024]
  else if off < 0x1000000 then []
  else if 0x1000 ≤ m ∧ m < 0x1080 then [(m - 0x1000) / 8]
  else if 0x4000 ≤ m ∧ m < 0x4000 + 64 * 64 then [(m - 0x4000) / 256]
  else if 0x5000 ≤ m ∧ m < 0x5000 + 64 * 16 then [(m - 0x5000) / 64]
  else if 0x100000 ≤ m ∧ m < 0x200000 then [(m - 0x100000) / 65536]
  else if 0x200000 ≤ m ∧ m < 0x210000 then [(m - 0x200000) / 4096]
  else []

/-- The way of a register write from the endpoint at a hub die: to HD0 for its own registers, else to the dies (R462). -/
def regRoute (s : State) (hub off : Nat) : Bool :=
  if regDies off = [] then hub == 0 || linkState s 32 != 0 else (regDies off).all (fun d => spineOk s d hub)

/-- A waiting register write, or the part of one for a die, can be made (R462). -/
def writeGoes (s : State) (w : List Nat) : Bool :=
  match w with | [_, _, _, d] => spineOk s d 0 | _ => regRoute s (w.getD 2 0) (w.headD 0)

/-- A write of an 8-byte register that has its way (R11, R464, R473). -/
def regWrite (s : State) (off v : Nat) : Out :=
  if off % 8 ≠ 0 ∨ offered s.hub off = false then .next s
  else if 0x20 ≤ off ∧ off < 0x40 then
    (if off ≠ 0x20 ∧ v = 0 then .next s else viaStep s execFeataccWrite [v * 2 ^ (8 * (off - 0x20))])
  else if off = 0x60 then .next (prcfgWrite s v)
  else if 0x10000 ≤ off ∧ off < 0x20000 then
    let d := (off - 0x10000) / 4096
    let r := off % 4096
    if r < 0x800 then .next (eqWrite s (64 * d + r / 32) (r % 32) v)
    else if r = 0x800 then .next (s.onDie d (fun x => { x with devq := BitVec.ofNat 64 (v % 64) }))
    else .next s
  else if 0x20000 ≤ off ∧ off < 0x20020 then .next (eqWrite s 1024 (off - 0x20000) v)
  else if 0x100000 ≤ off ∧ off < 0x100000 + 64 * 16384 then qWrite s ((off - 0x100000) / 64) (off % 64) v
  else if 0x1000000 ≤ off then mgmtWrite s (off - 0x1000000) v
  else .next s

/-- The register writes that waited for a route and now have it made, in order (R458, R462). -/
def pumpWrites (s : State) : State :=
  s.hub.writes.foldl (fun s w =>
    if !(writeGoes s w && s.hub.writes.contains w) then s
    else
      let s := s.onHub (fun h => { h with writes := h.writes.erase w })
      match w with
      | [off, v, _] => (match regWrite s off v with | .next s => s | _ => s)
      | [off, b, _, d] => pumpAll (dieBit off d (b == 1) s)
      | _ => s) s

/-- REGISTER_WRITE: an 8-byte write of operand 1 at offset operand 0 of BAR0, by the endpoint at hub die operand 2; reserved offsets and
read-only registers ignore it, and one without a route waits; without operands the writes that have waited are made (R11, R462, R464,
R473). -/
def execRegisterWrite (s : State) : Out :=
  let s := pumpWrites s
  match s.args with
  | off :: v :: l =>
    let hub := l.headD 0 % 2
    if regRoute s hub off then regWrite s off (v % 2 ^ 64)
    else .next (s.onHub (fun h => { h with writes := h.writes ++ [[off, v % 2 ^ 64, hub]] }))
  | _ => .next s

/-! ## Memory from outside -/

/-- How an access from outside the module goes at its home: done with the bytes read, or not. -/
inductive OutRes where
  | done (v : Nat) (s : State)
  | wait
  | fault (m reason : Nat) (s : State)
  | poison (s : State)

/-- An access from outside, from hub die hub, within one 4 KiB granule: n bytes of a DIA, poisoned data marked (R315, R327, R328, R462,
R464). -/
def outAccess (s : State) (hub cls tgt dia n data : Nat) (wr pois : Bool) : OutRes :=
  let m := homeOf cls tgt dia
  if !routeOk s (16 + hub) cls tgt dia then .wait
  else
    match xlate s cls tgt dia (!wr) wr with
    | (.wait, _) => .wait
    | (.fault r, s) => .fault m r s
    | (.ok k, s) =>
      if wr then
        let s' := writeEnb s k n data (2 ^ n - 1) pois
        if backedWrite s s' k n then .done 0 s' else .wait
      else if !backed s k n then .wait
      else
        let s := s.reads k n
        if (poisonAt s k n).isSome then .poison s else .done (readN s k n) s

/-- A host access, by the endpoint at hub die hub, of n bytes at an aperture offset, granule by granule; the count bounds the granules. A byte whose window or page leads
nowhere is not written, and reads as a free value (R464; log A16); a mark tells that poison was read (R328). -/
def hostMove (wr : Bool) (hub : Nat) : Nat → Nat → Nat → Nat → State → Option (Nat × Bool × State)
  | 0, _, _, _, s => some (0, false, s)
  | fuel + 1, off, n, data, s =>
    if n = 0 then some (0, false, s)
    else
      let l := (s.hub.hwin.getD (off / 2 ^ 33 % 8) 0).toNat
      let dia := locDia l + off % 2 ^ 33
      let k := Nat.min n (4096 - dia % 4096)
      let lost : Nat × Bool × State := (Config.freeNat s.free % 2 ^ (8 * k), false, { s with free := s.free + 1 })
      let here : Option (Nat × Bool × State) :=
        if locBad l 1 2 ≠ 0 then some lost
        else
          match outAccess s hub (locCls l) (locTgt l) dia k (data % 2 ^ (8 * k)) wr false with
          | .wait => none
          | .done v s => some (v, false, s)
          | .fault _ _ s => some (lost.1, false, { s with free := s.free + 1 })
          | .poison s => some (0, true, s)
      match here with
      | none => none
      | some (v, bad, s) =>
        match hostMove wr hub fuel (off + k) (n - k) (data / 2 ^ (8 * k)) s with
        | none => none
        | some (w, bad', s) => some (v + 2 ^ (8 * k) * w, bad || bad', s)

/-- HOST_APERTURE_ACCESS: a read (operand 0 = 0) or write of operand 2 bytes at offset operand 1 of the 64 GiB aperture of the endpoint at
hub die operand 4, performed at the home, or waiting for it; a read leaves its value in rdData, or a mark in place 8 n for a completion that
is poisoned (R315, R328, R464). -/
def execHostApertureAccess (s : State) : Out :=
  let off := s.arg 1
  let n := s.arg 2
  if 2 ^ 36 < off + n then .fault (.noSuchAgent off)
  else if !s.hub.rot then .next s
  else
    match hostMove (s.arg 0 == 1) (s.arg 4 % 2) (n / 4096 + 3) off n (s.arg 3) s with
    | none => .next s
    | some (v, bad, s') => .next (if s.arg 0 = 1 then s' else s'.onHub (fun h => { h with rdData := if bad then 2 ^ (8 * n) else v }))

/-- The hub die of a peer port that is UP and has a way to a home, east first (R462, R469, R470). -/
def peerHub (s : State) (cls tgt dia : Nat) : Option Nat :=
  [1, 0].find? (fun h => linkState s (33 + h) != 0 && routeOk s (16 + h) cls tgt dia)

/-- An access of another module at its home: a read (first of ops 0) or write of ops 2 bytes at the DIA of class 4 that is ops 1, performed as
its own access of the class that the DIA holds; data poisoned where ops 4 is 1. rdData holds what the module gets: bytes, or a mark in place
8 n for a poisoned completion; a fault is recorded for the home's die, and the access waits on it. None where it waits for a route or its
home (R328, R340, R348, R461; log 17). -/
def peerAccess (s : State) (ops : List Nat) : Option State :=
  let wr := ops.getD 0 0 == 1
  let a := ops.getD 1 0
  let n := ops.getD 2 0
  let cls := bits a 44 3
  let tgt := bits a 40 4
  match peerHub s cls tgt (bits a 0 40) with
  | none => none
  | some hub =>
    match outAccess s hub cls tgt (bits a 0 40) n (ops.getD 3 0) wr (ops.getD 4 0 == 1) with
    | .wait => none
    | .poison s' => some (s'.onHub (fun h => { h with rdData := 2 ^ (8 * n) }))
    | .done v s' => some (if wr then s' else s'.onHub (fun h => { h with rdData := v }))
    | .fault m r s' =>
      let fr (k : Nat) : Nat := Config.freeNat (s.free + k)
      let (q, s') := faultRec { s' with free := s.free + 3 } m
        { cls := cls, tgt := if cls = 1 then tgt else 0, dia := bits a 0 40, va := fr 0 % 2 ^ 56, reason := r, acc := b2n wr,
          agent := fr 1 % 7, ch := 0, tile := fr 2 % 64, die := m }
      some (s'.onHub (fun h => { h with peers := h.peers ++ [(m, q, ops)] }))

/-- A way leads from a base die to another module: by a port that is UP (R462, R470). -/
def peerBack (s : State) (m : Nat) : Bool := [1, 0].any (fun h => linkState s (33 + h) != 0 && spineOk s m h)

/-- What a due access of another module comes to: made again, or PERM for its requester, a mark in place 8 n + 1 (R340, R349, R461). -/
def peerGo (s : State) (p : Nat × Bool × List Nat) : Option State :=
  if p.2.1 then (if peerBack s p.1 then some (s.onHub (fun h => { h with rdData := 2 ^ (8 * p.2.2.getD 2 0 + 1) })) else none)
  else peerAccess s p.2.2

/-- The place of the first due access of another module that can go on. -/
def nextPeer (s : State) : Option Nat := lfind (fun p => (peerGo s p).isSome) s.hub.peerDue

/-- PEER_MEMORY_ACCESS: an access by another module to a DIA that names this one, with operands as for peerAccess; it arrives by a port that
is UP, and waits in the module where it cannot go on. Without operands the first due one that can goes on (R340, R461, R469, R470; log
17). -/
def execPeerMemoryAccess (s : State) : Out :=
  if s.args = [] then
    .next (match nextPeer s with
      | some k =>
        (match peerGo (s.onHub (fun h => { h with peerDue := ldel h.peerDue k })) (lget (0, false, []) s.hub.peerDue k) with
         | some s' => s'
         | none => s)
      | none => s)
  else if bits (s.arg 1) 47 5 ≠ fld s.hub.prcfg 0 5 ∨ !s.hub.rot ∨ (linkState s 33 = 0 ∧ linkState s 34 = 0) then .next s
  else if 2 < bits (s.arg 1) 44 3 then .next (s.onHub (fun h => { h with rdData := 2 ^ (8 * s.arg 2 + 1) }))
  else
    match peerAccess s s.args with
    | some s' => .next s'
    | none => .next (s.onHub (fun h =>
        { h with peerDue := h.peerDue ++ [(homeOf (bits (s.arg 1) 44 3) (bits (s.arg 1) 40 4) (bits (s.arg 1) 0 40), false, s.args)] }))

end Sys2Proof.Machine
end

