-- ==== Sys2Proof/Machine/Auto.lean ====
section
/-! DEFINITION. Which step comes next when none is on the agenda: each unit that may have something to do gets its turn (log A4). -/

namespace Sys2Proof.Machine

/-- A unit step with its operands. -/
abbrev Act := Instr × List Nat

/-- The tile in focus issues in this step: it runs, and a step of a unit has come since its last attempt. -/
def State.mayIssue (s : State) : Bool := s.core.task.run == .running && (s.core.iss.out == .done || s.core.iss.out == .doneRecv)

/-- The steps of an outstanding request. -/
def reqActs (t k : Nat) (r : Req) : List Act :=
  if r.kind = .barUpd then [(.barrierUpdate, [t, k])]
  else if r.failing ∨ r.st = .done then [(.scoreboardReturn, [t, k])]
  else if r.st = .walking then [(.pageWalkEnd, [t, k])]
  else if r.st = .held then []
  else if r.st = .waiting ∧ r.cls < 3 then [(.mtuLookup, [t, k])]
  else if r.kind = .amo then [(.amoPerform, [t, k])]
  else if r.st = .waiting ∧ r.cls = 8 then [(.scoreboardReturn, [t, k])]
  else [(.sliceAccess, [t, k])]

/-- The steps of a channel. -/
def chanActs (t c : Nat) (x : Chan) : List Act :=
  match x.cmds with
  | [] => []
  | y :: _ =>
    let run : Instr := match y.cmd.op with
      | 24 => .cpyCopy | 25 => .cpywCopy | 26 => .fillWrite | _ => if y.started then .strideGatherRead else .gather
    if y.held then [] else if y.ended then [(.engineCredit, [t, c, y.owed])] else [(run, [t, c]), (.engineCredit, [t, c, y.owed])]

/-- A list's entries, with their places, each turned into steps. -/
def eachActs {α : Type} (l : List α) (f : Nat → α → List Act) : List Act :=
  ((List.range l.length).zip l).flatMap (fun p => f p.1 p.2)

/-- A step that stands where a condition holds. -/
def whenAct (c : Bool) (a : Act) : List Act := if c then [a] else []

/-- The steps of the units of a tile. -/
def tileActs (s : State) (t : Nat) : List Act :=
  let x := s.tile t
  eachActs x.reqs (reqActs t) ++ eachActs x.tcq (fun k e => whenAct (e.op != 16) (.engineAccept, [t, k])) ++
    eachActs x.chans.toList (chanActs t) ++
    whenAct (x.osb.toList.any (·.refill) || x.tcq.any (fun e => e.op == 16) || x.casts.any (·.free s)) (.mxldFill, [t]) ++
    eachActs x.osb.toList (fun b o => whenAct o.arr (.fillArrival, [t, b])) ++
    eachActs x.slots.toList (fun b o => whenAct o.isSome (.multicastDelivery, [t, b])) ++
    eachActs x.facets.toList (fun f y => match y.queue with | c :: _ => whenAct (!y.held) (facetUnit c.op, [t, f]) | [] => []) ++
    whenAct (x.rng.run && decide (x.rng.count < 16)) (.randomBitAppend, [t]) ++
    whenAct (!x.task.rel.isEmpty || x.task.drains.any (fun d => !d.rel.isEmpty)) (.bankFree, [t]) ++
    whenAct (!x.beads.sends.isEmpty || (peerReady s (tileDie t) t).isSome) (.beadSendRelease, [t]) ++ whenAct (!x.beads.dones.isEmpty) (.beadDonePass, [t]) ++
    whenAct x.task.placed.isSome (.taskEntry, [t]) ++ whenAct (!x.task.drains.isEmpty) (.taskCompletionReport, [t]) ++
    whenAct (t != s.self && (x.task.run == .running || x.task.run == .frozen || x.task.rst.isSome)) (.tileCycle, [t])

/-- The step of a record at the head of a queue. -/
def recordAct (q : Nat) (x : Queue) (w : Nat) : List Act :=
  let op := recOp w
  let a (i : Instr) : List Act := [(i, [q])]
  match recKind w with
  | 1 => a (if x.image.isSome then .taskPlace else .taskRecord)
  | 2 => a (match op with | 0 => .stageConfig | 1 => .stageHold | 2 => .stageRelease | 3 => .stageEvict | 4 => .stageClearflt | _ => .stageRead)
  | 3 => a .beadRecord
  | 4 => a (match op with | 0 => .pendantLoadtab | 1 => .pendantStart | 2 => .pendantStop | 3 => .pendantAbort | _ => .pendantRead)
  | 5 => a (match op with | 0 => .locketArm | 1 => .locketTrigger | 2 => .locketRestore | _ => .locketDisarm)
  | 6 => a (if op = 0 then .signalStore else .signalAmoAdd)
  | 7 => a (if x.placed = 0 then .waitRecord else .waitPoll)
  | 8 => a (if op = 0 then .profileCopy else .profileCopyClear)
  | _ => a (match op with | 0 => .tilectlRestart | 1 => .tilectlPreempt | _ => .tilectlKill)

/-- The steps of a queue: of its head record, of the beads that a started record still holds, and of a started SIGNAL that is the oldest
record left (R364, R368). -/
def queueActs (q : Nat) (x : Queue) : List Act :=
  (match x.head with
   | some w => recordAct q x w
   | none => whenAct (x.state == 1 && x.dist != 0 && !x.held) (.recordFetch, [q])) ++
    whenAct (x.running.any (fun r => r.todo != [])) (.beadRecord, [q]) ++
    (match x.running with
     | r :: _ => whenAct (recKind r.w == 6 && r.held.isNone) (if recOp r.w = 0 then .signalStore else .signalAmoAdd, [q])
     | [] => [])

/-- The steps of a Pendant. -/
def pendActs (d : Nat) (p : Pend) : List Act :=
  whenAct (!p.inbox.isEmpty || p.undecided.isSome) (.pendantBeadReturn, [d]) ++ whenAct (!p.notices.isEmpty) (.pendantFailureNotice, [d]) ++
    eachActs p.jobs.toList (fun j x =>
      (if x.st = 0 then []
       else whenAct (x.st == 1 || x.dirty || x.reading) (.pendantSwcPoll, [d, j]) ++ [(.batchFormation, [d, j]), (.pendantBeadRelease, [d, j])] ++
         whenAct (x.st != 1) (.pendantJobEnd, [d, j]) ++ x.batches.map (fun b => (Instr.batchTimeout, [d, j, b.buf]))) ++
      whenAct (!x.rejects.isEmpty) (.sampleRetirement, [d, 4096 + j])) ++
    (p.samples.filter (fun k => k.2.fin.isSome)).map (fun k => (Instr.sampleRetirement, [d, k.1]))

/-- The steps of a Locket. -/
def lockActs (d : Nat) (x : Lock) : List Act :=
  let trig := bits (x.w 0) 8 2
  whenAct (x.armed && trig == 1) (.locketPeriodTrigger, [d]) ++ whenAct (!x.reports.isEmpty) (.locketStepTrigger, [d]) ++
    x.reqDies.map (fun k => (Instr.locketHoldRequest, [k])) ++ x.relDies.map (fun k => (Instr.locketReleaseRequest, [k])) ++
    (if x.st = 1 ∨ x.st = 3 then [(.locketHoldComplete, [d]), (.locketHoldTimeout, [d])] else []) ++
    (if x.st = 2 then x.group.flatMap (fun b => [(.locketFacetReadout, [d, b]), (.locketQueueTimeout, [d, b])]) else []) ++
    whenAct (x.st == 2 && x.group.isEmpty && x.todo.isEmpty) (.locketImageMark, [d]) ++
    (if x.st = 4 then x.group.map (fun b => (Instr.locketFacetRestore, [d, b, 0])) else [])

/-- The steps of a die. -/
def dieActs (d : Nat) (x : Die) : List Act :=
  x.queues.flatMap (fun p => queueActs (1024 * d + p.1) p.2) ++
    (x.transit.map (fun p => (Instr.beadArrival, [p.1 % 64]))).filter (fun a => a.2 != [] && decide (a.2.headD 16 < 16)) ++
    whenAct (!x.retire.isEmpty) (.beadRetirement, [d]) ++ whenAct (!x.notices.isEmpty) (.failureNotice, [d]) ++
    whenAct (x.stages.any (fun p => p.2.st == .run && !(p.2.ctl ++ p.2.fwd ++ p.2.bwd).isEmpty)) (.beadDelivery, [d]) ++
    x.stages.flatMap (fun p => whenAct (p.2.st == .holding) (.stageHeld, [d, p.1])) ++
    whenAct (x.transit.any (fun p => p.2.1 == 4096 && decide (128 ≤ p.1))) (.pendantBeadRelease, [d, 0]) ++ pendActs d x.pend ++ lockActs d x.lock ++ whenAct x.clkNext.isSome (.clockSwitch, [d])

/-- The steps of a clasped machine. -/
def claspActs (x : Nat) (c : Clasp) : List Act :=
  whenAct (c.mode == 2) (.resyncComplete, [x]) ++ whenAct (c.mode == 5) (.claspRestoreDone, [x]) ++
    whenAct (c.mode == 1 && c.dissenter != 0) (.claspDissent, [x, c.dissenter]) ++ whenAct c.liveDiffer (.claspBreak, [x, 2])

/-- The functions that have not reported ready, and the first facet of each die that has not calibrated (R474, R476). -/
def readyActs (s : State) : List Act :=
  let h := s.hub
  let have? (fn : Nat) : Bool :=
    if fn < 80 then bit (h.rdy.getD (fn % 16) 0) (fn / 16) else if fn < 96 then bit h.rdyh (fn - 72) else bit h.rdyh (97 - fn)
  ((List.range 98).filter (fun fn => !have? fn)).map (fun fn => (Instr.functionReady, [fn])) ++
    (List.range 16).flatMap (fun d =>
      if bit (h.rdy.getD d 0) 0 then
        match (List.range 512).find? (fun b => !((s.tile (64 * d + b / 8)).facet (b % 8)).ready) with
        | some b => [(.facetStartupCalibration, [64 * d + b / 8, b % 8, 0])]
        | none => []
      else [])

/-- The steps of the hub dies and the base dies. -/
def hubActs (s : State) : List Act :=
  s.hub.clasps.flatMap (fun p => claspActs p.1 p.2) ++
    (s.codes.rows.filter (fun r => decide (2048 ≤ r.2) && decide (r.2 < 2 ^ 32))).map (fun r => (Instr.activationAlert, [r.1 / 2 ^ 64, r.1 % 2 ^ 64])) ++
    whenAct (s.hub.writes.any (writeGoes s)) (.registerWrite, []) ++ whenAct (nextPeer s).isSome (.peerMemoryAccess, []) ++
    s.mbs.flatMap (fun p => whenAct p.2.invBusy (.invalidationDone, [p.1]) ++ p.2.throttle.map (fun b => (Instr.gatherThrottleEnd, [p.1, b.1]))) ++
    (match s.hub.lanesNext with
     | some v => ((List.range 16).filter (fun k => bits v (2 * k) 2 != bits s.hub.lanes (2 * k) 2)).map (fun k => (Instr.hopRetrain, [k]))
     | none => [])

/-- Every unit step that may be made now; a cycle of the tile in focus is among them unless it has just issued. -/
def acts (s : State) : List Act :=
  s.tileNums.flatMap (tileActs s) ++ s.dies.flatMap (fun p => dieActs p.1 p.2) ++ hubActs s ++ readyActs s ++
    whenAct (s.core.iss.out != .issued) (.tileCycle, [s.self])

/-- The unit step that comes next: the boot sequencer's start after a reset, else the unit whose turn it is; none after a trip or a failed
verification (R474, R479, R481). -/
def autoNext (s : State) : Option Act :=
  if s.hub.tripped then none
  else if !s.hub.booted && s.hub.fail == 0 && s.core.task.run == .idle then some (.moduleReset, [0])
  else
    let l := acts s
    l[s.turn % l.length]?

end Sys2Proof.Machine
end

