-- ==== Sys2Proof/Machine/VectorBlock.lean ====
section
/-! DEFINITION. The statistics buffer, BFP24 accumulation and pulse preparation (R74 to R77, R220 to R227). -/

namespace Sys2Proof.Machine

/-! ## Statistics buffer -/

/-- A statistics entry as a 128-bit value (R44). -/
def Tile.stat (t : Tile) (e : Nat) : Nat := mget 0 t.stats e

/-- A statistics entry replaced; a zero entry is not listed (R44). -/
def Tile.setStat (t : Tile) (e v : Nat) : Tile :=
  { t with stats := if v % 2 ^ 128 = 0 then mdel t.stats e else mset t.stats e (v % 2 ^ 128) }

/-- The entry number that a register names (R220). -/
def statEntry (t : Tile) (b : Nat) : Nat := lane (t.vreg b) 0 32

/-- What a statistics instruction finds at issue: an entry beyond the buffer, a block off its boundary, a block form at task
level (R220, R221). -/
def statTrap (i : Instr) (t : Tile) (b : Nat) (blk : Bool) : Option (Cause × Nat) :=
  let e := statEntry t b
  if 4096 ≤ e ∨ (blk ∧ e % 8 ≠ 0) then some (.illegal, slotWordOf i)
  else if blk ∧ t.sup = false then some (.priv, slotWordOf i)
  else none

/-- VSTAT.W vA, vB, and its block form (R221). -/
def execVstatW (o : OpVGab) (s : State) : Out :=
  let blk := extMod o.e == 1
  let e := statEntry s.core o.b
  let a := s.core.vreg o.a
  issue (.vstatW o)
    { trap := statTrap (.vstatW o) s.core o.b blk,
      run := fun s => s.onCore (fun t =>
        (List.range (if blk then 8 else 1)).foldl (fun t m => t.setStat (e + m) (lane a m 128)) t) } s

/-- VSTAT.R vD, vB, and its block form (R221). -/
def execVstatR (o : OpVGdb) (s : State) : Out :=
  let blk := extMod o.e == 1
  let e := statEntry s.core o.b
  issue (.vstatR o)
    { trap := statTrap (.vstatR o) s.core o.b blk,
      run := fun s => s.landV 4 o.d (BitVec.allOnes 64) (ofLanes 128 (fun m => if blk || m == 0 then s.core.stat (e + m) else 0)) } s

/-- A value rounded to FP32 under a FMT (R61). -/
def rfmt (fmt : Word) (v : FVal) : FVal := fval (roundF (rmOf fmt) (satOf fmt) v)

/-- The FP32 code of a value under a FMT. -/
def rcode (fmt : Word) (v : FVal) : Nat := roundF (rmOf fmt) (satOf fmt) v

/-- An entry from its words w0 to w3. -/
def statWords (w0 w1 w2 w3 : Nat) : Nat := w0 + w1 * 2 ^ 32 + w2 * 2 ^ 64 + w3 * 2 ^ 96

/-- The moments update of an entry from enabled lanes (R222), each lane with whether it is enabled; a disabled one counts as -0. DESIGN
CHOICE: where n1 is 0, which only a negative count written by VSTAT.W brings about, a quotient of a nonzero value by it is infinite (log
70). -/
def momentsNew (fmt : Word) (w old : Nat) (lanes : List (FVal × Bool)) : Nat :=
  let rf := rfmt fmt
  let n := fval (bits old 0 32)
  let mu := fval (bits old 32 32)
  let m2 := fval (bits old 64 32)
  let nb := ofInt (lanes.filter (·.2)).length
  let n1 := rf (fadd n nb)
  let zero : FVal := .fin true 0 0
  if lanes.any (fun x => x.2 && x.1.notFinite) then statWords (rcode fmt n1) 0x7FC00000 0x7FC00000 (bits old 96 32)
  else
    let sum := laneTree w (treeAdd fmt) (lanes.map (fun x => if x.2 then x.1 else zero))
    let mb := rf (fdiv sum nb)
    let q := laneTree w (treeAdd fmt) (lanes.map (fun x => if x.2 then (let dv := rf (fsub x.1 mb); rf (fmul dv dv)) else zero))
    let d := rf (fsub mb mu)
    let mu' := fadd mu (rf (fmul d (rf (fdiv nb n1))))
    let m2' := fadd (rf (fadd m2 q)) (rf (fmul (rf (fmul d d)) (rf (fdiv (fmul n nb) n1))))
    statWords (rcode fmt n1) (rcode fmt mu') (rcode fmt m2') (bits old 96 32)

/-- The log-sum update of an entry from enabled lanes (R222; log A22). -/
def logSumNew (fmt : Word) (w old : Nat) (lanes : List (FVal × Bool)) : Nat :=
  let rf := rfmt fmt
  let w0 := fval (bits old 0 32)
  let w1 := fval (bits old 32 32)
  if lanes.any (fun x => x.2 && x.1.isNan) then statWords 0x7FC00000 0x7FC00000 (bits old 64 32) 0x7FC00000
  else
    let m := laneTree w fmax (lanes.map (fun x => if x.2 then x.1 else .inf true))
    if m = .inf true then old
    else
      let mn := if w1.isZero then m else fmax w0 m
      let s0 := if w1.isZero then .fin false 0 0 else rf (fmul w1 (rf (fexp2 (rf (fsub w0 mn)))))
      let terms := lanes.map (fun x => if x.2 then rf (fexp2 (rf (fsub x.1 mn))) else .fin true 0 0)
      let s1 := rf (fadd s0 (laneTree w (treeAdd fmt) terms))
      statWords (rcode fmt mn) (rcode fmt s1) (bits old 64 32) (rcode fmt (fadd mn (rf (flog2 s1))))

/-- VMOM.t vA, vB and VMOM.l.t (R222). -/
def execVmom (o : OpVGabf) (s : State) : Out :=
  let t := s.core
  let w := fltW o.f
  let e := statEntry t o.b
  let g := (guardOf (.vmom o)).mask t
  let lanes := (List.range (lanesOf w)).map (fun j => (t.flane w o.a j, laneOn w g j))
  issue (.vmom o)
    { trap := statTrap (.vmom o) t o.b false,
      run := fun s =>
        if lanes.all (fun x => !x.2) then s
        else s.onCore (fun t =>
          t.setStat e (if extMod o.e = 0 then momentsNew t.spr.fmt w (t.stat e) lanes else logSumNew t.spr.fmt w (t.stat e) lanes)) } s

/-- VNORM.t vD, vA, vB: an entry that counts nothing gives the default NaN (R223). -/
def execVnorm (o : OpVGdabf) (s : State) : Out :=
  let t := s.core
  let w := fltW o.f
  let e := statEntry t o.b
  let fmt := t.spr.fmt
  issue (.vnorm o)
    { trap := statTrap (.vnorm o) t o.b false,
      run := fun s =>
        let x := s.core.stat e
        let wd (i : Nat) := fval (bits x (32 * i) 32)
        let r := rfmt fmt (frsq (rfmt fmt (fadd (rfmt fmt (fdiv (wd 2) (wd 0))) (wd 3))))
        let y (j : Nat) : FVal := if bits x 0 31 = 0 then FVal.dnan else fmul (rfmt fmt (fsub (t.flane w o.a j) (wd 1))) r
        s.landV 8 o.d (pairsOf w ((guardOf (.vnorm o)).mask t)) (ofLanes w (fun j => roundW w (rmOf fmt) (satOf fmt) (y j))) } s

/-- VSMAX.t vD, vA, vB (R223). -/
def execVsmax (o : OpVGdabf) (s : State) : Out :=
  let t := s.core
  let w := fltW o.f
  let e := statEntry t o.b
  let fmt := t.spr.fmt
  issue (.vsmax o)
    { trap := statTrap (.vsmax o) t o.b false,
      run := fun s =>
        let l := fval (bits (s.core.stat e) 96 32)
        s.landV 8 o.d (pairsOf w ((guardOf (.vsmax o)).mask t))
          (ofLanes w (fun j => roundW w (rmOf fmt) (satOf fmt) (fexp2 (rfmt fmt (fsub (t.flane w o.a j) l))))) } s

/-! ## BFP24 -/

/-- The 64 words of a BFP24 pair (R75). -/
def bfpWords (t : Tile) (n : Nat) : List Nat :=
  (List.range 64).map (fun j => lane (t.vreg (n + j / 32)) (j % 32) 32)

/-- Nonzero bits [31:24] in words 1 to 63 (R74). -/
def bfpBad (ws : List Nat) : Bool := (ws.drop 1).any (fun w => bits w 24 8 != 0)

/-- The exponent of a block (R74). -/
def bfpExp (ws : List Nat) : Nat := bits (ws.headD 0) 24 8

/-- The mantissas of a block (R74). -/
def bfpMant (ws : List Nat) : List Int := ws.map (fun w => sext w 24)

/-- BFPR (R66). -/
def bfpRm (fmt : Word) : Rm := if fld fmt 16 1 = 1 then .rtz else .rne

/-- An integer times a power of two, as a value. -/
def scaleInt (m : Int) (e : Int) : FVal := .fin (decide (m < 0)) m.natAbs e

/-- A NaN block's words (R74). -/
def bfpNan : List Nat := 0xFF000000 :: List.replicate 63 0

/-- Values added into a block (R76). -/
def bfpAdd (mode : Rm) (ws : List Nat) (vs : List FVal) : List Nat :=
  let X := bfpExp ws
  if 0xFE ≤ X ∨ vs.any FVal.notFinite then bfpNan
  else
    let ask (v : FVal) : Int := match v with | .fin _ m e => if m = 0 then 0 else (Nat.log2 m : Int) + e + 128 | _ => 0
    let need : Int := vs.foldl (fun n v => if v.isZero then n else max n (ask v)) (X : Int)
    let shift (v : FVal) (k : Int) : FVal := match v with | .fin s m e => .fin s m (e + k) | v => v
    let ts := ((bfpMant ws).zip vs).map (fun p => rint mode (scaleInt p.1 ((X : Int) - need)) + rint mode (shift p.2 (149 - need)))
    let big := ts.any (fun t => decide (t < -(2 ^ 23)) || decide (2 ^ 23 - 1 < t))
    let need' := if big then need + 1 else need
    let ts' := if big then ts.map (fun t => rint mode (scaleInt t (-1))) else ts
    if 253 < need' then bfpNan
    else (List.range 64).map (fun j => wrap 24 (ts'.getD j 0) + (if j = 0 then need'.toNat * 2 ^ 24 else 0))

/-- VBFACC.t vD, vA{, h} (R224). -/
def execVbfacc (o : OpVGdaf) (s : State) : Out :=
  let t := s.core
  let ws := bfpWords t o.d
  let vs : List FVal :=
    if o.f.val = 0 then (List.range 64).map (fun j => t.flane 16 o.a j)
    else (List.range 64).map (fun j => if j / 32 = extMod o.e then t.flane 32 o.a (j % 32) else .fin false 0 0)
  issue (.vbfacc o)
    { trap := if bfpBad ws then some (.illegal, slotWordOf (.vbfacc o)) else none,
      run := fun s =>
        let r := bfpAdd (bfpRm t.spr.fmt) ws vs
        s.land 6 (.pair (physV t.spr.rotw o.d) (physV t.spr.rotw (o.d.val + 1)) (ofLanes 32 (fun i => r.getD i 0))
          (ofLanes 32 (fun i => r.getD (32 + i) 0))) } s

/-- VBFEXP.t vD, vA{, h} (R225). -/
def execVbfexp (o : OpVGdaf) (s : State) : Out :=
  let t := s.core
  let ws := bfpWords t o.a
  let X := bfpExp ws
  let first := if o.f.val = 0 then 0 else 32 * extMod o.e
  let elem (j : Nat) : FVal := if 0xFE ≤ X then FVal.dnan else scaleInt (sext (ws.getD (first + j) 0) 24) ((X : Int) - 149)
  let w := fltW o.f
  issue (.vbfexp o)
    { trap := if bfpBad ws then some (.illegal, slotWordOf (.vbfexp o)) else none,
      run := fun s => s.landV 4 o.d (BitVec.allOnes 64)
        (ofLanes w (fun j => roundW w (rmOf t.spr.fmt) (satOf t.spr.fmt) (elem j))) } s

/-! ## Pulse preparation -/

/-- The pulse code and sign of one value under a scale (R226). -/
def pulseCode (mode : Rm) (a sc : FVal) : Nat × Bool :=
  let aInf : Bool := match a with | .inf _ => true | _ => false
  let sBad : Bool := match sc with | .nan _ => true | .inf _ => true | v => v.isNeg
  let neg : Bool := match a with | .inf s => s | .fin s _ _ => s | _ => false
  if a.isNan ∨ sBad ∨ (aInf ∧ sc.isZero) then (0, false)
  else if aInf then (255, neg)
  else (Nat.min (rint mode (fmul (fmul (fabs a) (fabs sc)) (.fin false 1 8))).toNat 255, neg)

/-- VPPROB vD, vA, vB and VPPROB.rn (R226). -/
def execVpprob (o : OpVGdab) (s : State) : Out :=
  let t := s.core
  let sr := extMod o.e == 0
  let sc := t.flane 32 o.b 0
  issue (.vpprob o)
    { trap := if sr then rngTrap t (.vpprob o) else none, wait := sr && t.rng.count == 0,
      run := fun s =>
        let entry := t.rngHead
        let code (i : Nat) := pulseCode (if sr then srMode entry 64 i else .rne) (t.flane 16 o.a i) sc
        let v := packFields 8 (fun i => (code i).1) 64 + packFields 1 (fun i => b2n (code i).2) 64 * 2 ^ 512
        let s := s.landV 4 o.d (BitVec.allOnes 64) (BitVec.ofNat 1024 v)
        if sr then s.pop else s } s

/-- VQ8.t vD, vA, vB{, p} (R227). -/
def execVq8 (o : OpVGdabf) (s : State) : Out :=
  let t := s.core
  let w := fltW o.f
  let p := extMod o.e
  let n := lanesOf w
  let sc := t.flane 32 o.b 0
  let en := if o.f.val = 0 then enPart 512 p else enPart 256 p
  issue (.vq8 o)
    { run := fun s => s.landV 4 o.d (BitVec.ofNat 64 en) (ofLanes 8 (fun i =>
        if p * n ≤ i ∧ i < p * n + n then wrap 8 (toInt (rmOf t.spr.fmt) true 8 (fmul (t.flane w o.a (i - p * n)) sc)) else 0)) } s

end Sys2Proof.Machine
end

