-- ==== Sys2Proof/Machine/Dispatch.lean ====
section
/-! DEFINITION. One arm for each constructor of Instr. -/

namespace Sys2Proof.Machine

/-- What an instruction does to a state. -/
def exec (i : Instr) (s : State) : Host.Outcome State Fault Refusal :=
  match i with
  | .nop => Sys2Proof.Machine.execNop s
  | .add o => Sys2Proof.Machine.execAdd o s
  | .sub o => Sys2Proof.Machine.execSub o s
  | .and o => Sys2Proof.Machine.execAnd o s
  | .or o => Sys2Proof.Machine.execOr o s
  | .xor o => Sys2Proof.Machine.execXor o s
  | .andn o => Sys2Proof.Machine.execAndn o s
  | .shl o => Sys2Proof.Machine.execShl o s
  | .shr o => Sys2Proof.Machine.execShr o s
  | .sra o => Sys2Proof.Machine.execSra o s
  | .mul o => Sys2Proof.Machine.execMul o s
  | .mulhI o => Sys2Proof.Machine.execMulhI o s
  | .mulhN o => Sys2Proof.Machine.execMulhN o s
  | .minI o => Sys2Proof.Machine.execMinI o s
  | .minN o => Sys2Proof.Machine.execMinN o s
  | .maxI o => Sys2Proof.Machine.execMaxI o s
  | .maxN o => Sys2Proof.Machine.execMaxN o s
  | .clz o => Sys2Proof.Machine.execClz o s
  | .popc o => Sys2Proof.Machine.execPopc o s
  | .sel o => Sys2Proof.Machine.execSel o s
  | .amoAdd o => Sys2Proof.Machine.execAmoAdd o s
  | .amoMinI o => Sys2Proof.Machine.execAmoMinI o s
  | .amoMinN o => Sys2Proof.Machine.execAmoMinN o s
  | .amoMaxI o => Sys2Proof.Machine.execAmoMaxI o s
  | .amoMaxN o => Sys2Proof.Machine.execAmoMaxN o s
  | .amoAnd o => Sys2Proof.Machine.execAmoAnd o s
  | .amoOr o => Sys2Proof.Machine.execAmoOr o s
  | .amoXor o => Sys2Proof.Machine.execAmoXor o s
  | .amoXchg o => Sys2Proof.Machine.execAmoXchg o s
  | .amoCas o => Sys2Proof.Machine.execAmoCas o s
  | .addi o => Sys2Proof.Machine.execAddi o s
  | .andi o => Sys2Proof.Machine.execAndi o s
  | .ori o => Sys2Proof.Machine.execOri o s
  | .xori o => Sys2Proof.Machine.execXori o s
  | .shli o => Sys2Proof.Machine.execShli o s
  | .shri o => Sys2Proof.Machine.execShri o s
  | .srai o => Sys2Proof.Machine.execSrai o s
  | .muli o => Sys2Proof.Machine.execMuli o s
  | .miniI o => Sys2Proof.Machine.execMiniI o s
  | .miniN o => Sys2Proof.Machine.execMiniN o s
  | .maxiI o => Sys2Proof.Machine.execMaxiI o s
  | .maxiN o => Sys2Proof.Machine.execMaxiN o s
  | .ldi o => Sys2Proof.Machine.execLdi o s
  | .ldhi o => Sys2Proof.Machine.execLdhi o s
  | .cmp o => Sys2Proof.Machine.execCmp o s
  | .cmpi o => Sys2Proof.Machine.execCmpi o s
  | .pand o => Sys2Proof.Machine.execPand o s
  | .por o => Sys2Proof.Machine.execPor o s
  | .pxor o => Sys2Proof.Machine.execPxor o s
  | .pnot o => Sys2Proof.Machine.execPnot o s
  | .br o => Sys2Proof.Machine.execBr o s
  | .brc o => Sys2Proof.Machine.execBrc o s
  | .brG o => Sys2Proof.Machine.execBrG o s
  | .jmp o => Sys2Proof.Machine.execJmp o s
  | .call o => Sys2Proof.Machine.execCall o s
  | .ret o => Sys2Proof.Machine.execRet o s
  | .loop o => Sys2Proof.Machine.execLoop o s
  | .loopr o => Sys2Proof.Machine.execLoopr o s
  | .setlc o => Sys2Proof.Machine.execSetlc o s
  | .waitc o => Sys2Proof.Machine.execWaitc o s
  | .trap o => Sys2Proof.Machine.execTrap o s
  | .eret o => Sys2Proof.Machine.execEret o s
  | .halt o => Sys2Proof.Machine.execHalt o s
  | .retire o => Sys2Proof.Machine.execRetire o s
  | .mfs o => Sys2Proof.Machine.execMfs o s
  | .mts o => Sys2Proof.Machine.execMts o s
  | .setfmt o => Sys2Proof.Machine.execSetfmt o s
  | .chkS o => Sys2Proof.Machine.execChkS o s
  | .xv2sN8 o => Sys2Proof.Machine.execXv2sN8 o s
  | .xv2sI8 o => Sys2Proof.Machine.execXv2sI8 o s
  | .xv2sN16 o => Sys2Proof.Machine.execXv2sN16 o s
  | .xv2sI16 o => Sys2Proof.Machine.execXv2sI16 o s
  | .xv2sN32 o => Sys2Proof.Machine.execXv2sN32 o s
  | .xv2sI32 o => Sys2Proof.Machine.execXv2sI32 o s
  | .xv2sN64 o => Sys2Proof.Machine.execXv2sN64 o s
  | .xq2m o => Sys2Proof.Machine.execXq2m o s
  | .ldBI o => Sys2Proof.Machine.execLdBI o s
  | .ldBN o => Sys2Proof.Machine.execLdBN o s
  | .ldHI o => Sys2Proof.Machine.execLdHI o s
  | .ldHN o => Sys2Proof.Machine.execLdHN o s
  | .ldWI o => Sys2Proof.Machine.execLdWI o s
  | .ldWN o => Sys2Proof.Machine.execLdWN o s
  | .ldD o => Sys2Proof.Machine.execLdD o s
  | .pref o => Sys2Proof.Machine.execPref o s
  | .stB o => Sys2Proof.Machine.execStB o s
  | .stH o => Sys2Proof.Machine.execStH o s
  | .stW o => Sys2Proof.Machine.execStW o s
  | .stD o => Sys2Proof.Machine.execStD o s
  | .stGB o => Sys2Proof.Machine.execStGB o s
  | .stGH o => Sys2Proof.Machine.execStGH o s
  | .stGW o => Sys2Proof.Machine.execStGW o s
  | .stGD o => Sys2Proof.Machine.execStGD o s
  | .fence o => Sys2Proof.Machine.execFence o s
  | .vadd o => Sys2Proof.Machine.execVadd o s
  | .vsub o => Sys2Proof.Machine.execVsub o s
  | .vmul o => Sys2Proof.Machine.execVmul o s
  | .vfma o => Sys2Proof.Machine.execVfma o s
  | .vfms o => Sys2Proof.Machine.execVfms o s
  | .vfnma o => Sys2Proof.Machine.execVfnma o s
  | .vmax o => Sys2Proof.Machine.execVmax o s
  | .vmin o => Sys2Proof.Machine.execVmin o s
  | .vabs o => Sys2Proof.Machine.execVabs o s
  | .vneg o => Sys2Proof.Machine.execVneg o s
  | .vclamp o => Sys2Proof.Machine.execVclamp o s
  | .vcmp o => Sys2Proof.Machine.execVcmp o s
  | .vsel o => Sys2Proof.Machine.execVsel o s
  | .vaddI o => Sys2Proof.Machine.execVaddI o s
  | .vsubI o => Sys2Proof.Machine.execVsubI o s
  | .vmulI o => Sys2Proof.Machine.execVmulI o s
  | .vand o => Sys2Proof.Machine.execVand o s
  | .vor o => Sys2Proof.Machine.execVor o s
  | .vxor o => Sys2Proof.Machine.execVxor o s
  | .vshl o => Sys2Proof.Machine.execVshl o s
  | .vshr o => Sys2Proof.Machine.execVshr o s
  | .vsra o => Sys2Proof.Machine.execVsra o s
  | .vminInt o => Sys2Proof.Machine.execVminInt o s
  | .vmaxInt o => Sys2Proof.Machine.execVmaxInt o s
  | .vcmpI o => Sys2Proof.Machine.execVcmpI o s
  | .vcvt o => Sys2Proof.Machine.execVcvt o s
  | .vcvtSr o => Sys2Proof.Machine.execVcvtSr o s
  | .vpackMx o => Sys2Proof.Machine.execVpackMx o s
  | .vunpkMx o => Sys2Proof.Machine.execVunpkMx o s
  | .vexp2 o => Sys2Proof.Machine.execVexp2 o s
  | .vlog2 o => Sys2Proof.Machine.execVlog2 o s
  | .vrcp o => Sys2Proof.Machine.execVrcp o s
  | .vrsq o => Sys2Proof.Machine.execVrsq o s
  | .vtanh o => Sys2Proof.Machine.execVtanh o s
  | .vrsum o => Sys2Proof.Machine.execVrsum o s
  | .vrmax o => Sys2Proof.Machine.execVrmax o s
  | .vrmin o => Sys2Proof.Machine.execVrmin o s
  | .vperm o => Sys2Proof.Machine.execVperm o s
  | .vtrn o => Sys2Proof.Machine.execVtrn o s
  | .vzip o => Sys2Proof.Machine.execVzip o s
  | .vuzp o => Sys2Proof.Machine.execVuzp o s
  | .vrot o => Sys2Proof.Machine.execVrot o s
  | .vbcst o => Sys2Proof.Machine.execVbcst o s
  | .vstatW o => Sys2Proof.Machine.execVstatW o s
  | .vstatR o => Sys2Proof.Machine.execVstatR o s
  | .vmom o => Sys2Proof.Machine.execVmom o s
  | .vnorm o => Sys2Proof.Machine.execVnorm o s
  | .vsmax o => Sys2Proof.Machine.execVsmax o s
  | .vbfacc o => Sys2Proof.Machine.execVbfacc o s
  | .vbfexp o => Sys2Proof.Machine.execVbfexp o s
  | .vpprob o => Sys2Proof.Machine.execVpprob o s
  | .vq8 o => Sys2Proof.Machine.execVq8 o s
  | .vld o => Sys2Proof.Machine.execVld o s
  | .vst o => Sys2Proof.Machine.execVst o s
  | .vstM o => Sys2Proof.Machine.execVstM o s
  | .vldb o => Sys2Proof.Machine.execVldb o s
  | .vmov o => Sys2Proof.Machine.execVmov o s
  | .vli o => Sys2Proof.Machine.execVli o s
  | .xs2v o => Sys2Proof.Machine.execXs2v o s
  | .xm2q o => Sys2Proof.Machine.execXm2q o s
  | .chkV o => Sys2Proof.Machine.execChkV o s
  | .xmvm o => Sys2Proof.Machine.execXmvm o s
  | .xmvt o => Sys2Proof.Machine.execXmvt o s
  | .xupdA o => Sys2Proof.Machine.execXupdA o s
  | .xupdC o => Sys2Proof.Machine.execXupdC o s
  | .xupdD o => Sys2Proof.Machine.execXupdD o s
  | .xfer o => Sys2Proof.Machine.execXfer o s
  | .xferR o => Sys2Proof.Machine.execXferR o s
  | .xrst o => Sys2Proof.Machine.execXrst o s
  | .xrstAll o => Sys2Proof.Machine.execXrstAll o s
  | .xsymCal o => Sys2Proof.Machine.execXsymCal o s
  | .xsymLd o => Sys2Proof.Machine.execXsymLd o s
  | .xsymSt o => Sys2Proof.Machine.execXsymSt o s
  | .xget o => Sys2Proof.Machine.execXget o s
  | .xcfgW o => Sys2Proof.Machine.execXcfgW o s
  | .xcfgR o => Sys2Proof.Machine.execXcfgR o s
  | .xcfgWa o => Sys2Proof.Machine.execXcfgWa o s
  | .xcfgRa o => Sys2Proof.Machine.execXcfgRa o s
  | .xcfgWc o => Sys2Proof.Machine.execXcfgWc o s
  | .xcfgRc o => Sys2Proof.Machine.execXcfgRc o s
  | .xmodeN o => Sys2Proof.Machine.execXmodeN o s
  | .xmodeR o => Sys2Proof.Machine.execXmodeR o s
  | .xstat o => Sys2Proof.Machine.execXstat o s
  | .xstatPc o => Sys2Proof.Machine.execXstatPc o s
  | .xwait o => Sys2Proof.Machine.execXwait o s
  | .mxld o => Sys2Proof.Machine.execMxld o s
  | .mxldR o => Sys2Proof.Machine.execMxldR o s
  | .mma o => Sys2Proof.Machine.execMma o s
  | .mmaz o => Sys2Proof.Machine.execMmaz o s
  | .mmag o => Sys2Proof.Machine.execMmag o s
  | .mxrd o => Sys2Proof.Machine.execMxrd o s
  | .mxwr o => Sys2Proof.Machine.execMxwr o s
  | .mxclr o => Sys2Proof.Machine.execMxclr o s
  | .cpy o => Sys2Proof.Machine.execCpy o s
  | .cpyw o => Sys2Proof.Machine.execCpyw o s
  | .fill o => Sys2Proof.Machine.execFill o s
  | .gath o => Sys2Proof.Machine.execGath o s
  | .barInit o => Sys2Proof.Machine.execBarInit o s
  | .barExp o => Sys2Proof.Machine.execBarExp o s
  | .barArr o => Sys2Proof.Machine.execBarArr o s
  | .barWait o => Sys2Proof.Machine.execBarWait o s
  | .barTest o => Sys2Proof.Machine.execBarTest o s
  | .chset o => Sys2Proof.Machine.execChset o s
  | .bankAcq o => Sys2Proof.Machine.execBankAcq o s
  | .bankRel o => Sys2Proof.Machine.execBankRel o s
  | .beadRecv o => Sys2Proof.Machine.execBeadRecv o s
  | .beadSend o => Sys2Proof.Machine.execBeadSend o s
  | .beadDone o => Sys2Proof.Machine.execBeadDone o s
  | .beadHdr o => Sys2Proof.Machine.execBeadHdr o s
  | .rngSeed o => Sys2Proof.Machine.execRngSeed o s
  | .dupS o => Sys2Proof.Machine.execDupS o s
  | .scoreboardReturn => Sys2Proof.Machine.execScoreboardReturn s
  | .randomBitAppend => Sys2Proof.Machine.execRandomBitAppend s
  | .regionTimeout => Sys2Proof.Machine.execRegionTimeout s
  | .preempt => Sys2Proof.Machine.execPreempt s
  | .amoPerform => Sys2Proof.Machine.execAmoPerform s
  | .barrierUpdate => Sys2Proof.Machine.execBarrierUpdate s
  | .engineCredit => Sys2Proof.Machine.execEngineCredit s
  | .bankFree => Sys2Proof.Machine.execBankFree s
  | .engineAccept => Sys2Proof.Machine.execEngineAccept s
  | .cpyCopy => Sys2Proof.Machine.execCpyCopy s
  | .cpywCopy => Sys2Proof.Machine.execCpywCopy s
  | .fillWrite => Sys2Proof.Machine.execFillWrite s
  | .gather => Sys2Proof.Machine.execGather s
  | .mxldFill => Sys2Proof.Machine.execMxldFill s
  | .fillArrival => Sys2Proof.Machine.execFillArrival s
  | .multicastDelivery => Sys2Proof.Machine.execMulticastDelivery s
  | .beadSendRelease => Sys2Proof.Machine.execBeadSendRelease s
  | .beadDonePass => Sys2Proof.Machine.execBeadDonePass s
  | .facetExecXmvm => Sys2Proof.Machine.execFacetExecXmvm s
  | .facetExecXmvt => Sys2Proof.Machine.execFacetExecXmvt s
  | .facetExecXupd => Sys2Proof.Machine.execFacetExecXupd s
  | .facetExecXupdD => Sys2Proof.Machine.execFacetExecXupdD s
  | .facetExecXfer => Sys2Proof.Machine.execFacetExecXfer s
  | .facetExecXrst => Sys2Proof.Machine.execFacetExecXrst s
  | .facetExecXsymCal => Sys2Proof.Machine.execFacetExecXsymCal s
  | .facetExecXsymLd => Sys2Proof.Machine.execFacetExecXsymLd s
  | .facetExecXsymSt => Sys2Proof.Machine.execFacetExecXsymSt s
  | .facetExecXget => Sys2Proof.Machine.execFacetExecXget s
  | .facetExecXcfg => Sys2Proof.Machine.execFacetExecXcfg s
  | .facetExecXmode => Sys2Proof.Machine.execFacetExecXmode s
  | .facetExecXstatPc => Sys2Proof.Machine.execFacetExecXstatPc s
  | .facetStartupCalibration => Sys2Proof.Machine.execFacetStartupCalibration s
  | .sliceAccess => Sys2Proof.Machine.execSliceAccess s
  | .scrubRead => Sys2Proof.Machine.execScrubRead s
  | .strideGatherRead => Sys2Proof.Machine.execStrideGatherRead s
  | .activationAlert => Sys2Proof.Machine.execActivationAlert s
  | .gatherThrottleEnd => Sys2Proof.Machine.execGatherThrottleEnd s
  | .mtuLookup => Sys2Proof.Machine.execMtuLookup s
  | .pageWalkEnd => Sys2Proof.Machine.execPageWalkEnd s
  | .fresRetry => Sys2Proof.Machine.execFresRetry s
  | .fresEnd => Sys2Proof.Machine.execFresEnd s
  | .invcAll => Sys2Proof.Machine.execInvcAll s
  | .invcSpace => Sys2Proof.Machine.execInvcSpace s
  | .invcRange => Sys2Proof.Machine.execInvcRange s
  | .invalidationDone => Sys2Proof.Machine.execInvalidationDone s
  | .qwcWrite => Sys2Proof.Machine.execQwcWrite s
  | .qrstWrite => Sys2Proof.Machine.execQrstWrite s
  | .qcfgWrite => Sys2Proof.Machine.execQcfgWrite s
  | .registerWrite => Sys2Proof.Machine.execRegisterWrite s
  | .recordFetch => Sys2Proof.Machine.execRecordFetch s
  | .taskRecord => Sys2Proof.Machine.execTaskRecord s
  | .taskPlace => Sys2Proof.Machine.execTaskPlace s
  | .taskEntry => Sys2Proof.Machine.execTaskEntry s
  | .taskCompletionReport => Sys2Proof.Machine.execTaskCompletionReport s
  | .eqrcWrite => Sys2Proof.Machine.execEqrcWrite s
  | .stageConfig => Sys2Proof.Machine.execStageConfig s
  | .stageHold => Sys2Proof.Machine.execStageHold s
  | .stageRelease => Sys2Proof.Machine.execStageRelease s
  | .stageEvict => Sys2Proof.Machine.execStageEvict s
  | .stageClearflt => Sys2Proof.Machine.execStageClearflt s
  | .stageRead => Sys2Proof.Machine.execStageRead s
  | .beadRecord => Sys2Proof.Machine.execBeadRecord s
  | .signalStore => Sys2Proof.Machine.execSignalStore s
  | .signalAmoAdd => Sys2Proof.Machine.execSignalAmoAdd s
  | .waitRecord => Sys2Proof.Machine.execWaitRecord s
  | .waitPoll => Sys2Proof.Machine.execWaitPoll s
  | .profileCopy => Sys2Proof.Machine.execProfileCopy s
  | .profileCopyClear => Sys2Proof.Machine.execProfileCopyClear s
  | .tilectlRestart => Sys2Proof.Machine.execTilectlRestart s
  | .tilectlPreempt => Sys2Proof.Machine.execTilectlPreempt s
  | .tilectlKill => Sys2Proof.Machine.execTilectlKill s
  | .beadArrival => Sys2Proof.Machine.execBeadArrival s
  | .beadDelivery => Sys2Proof.Machine.execBeadDelivery s
  | .beadRetirement => Sys2Proof.Machine.execBeadRetirement s
  | .failureNotice => Sys2Proof.Machine.execFailureNotice s
  | .stageHeld => Sys2Proof.Machine.execStageHeld s
  | .locketHoldRequest => Sys2Proof.Machine.execLocketHoldRequest s
  | .locketReleaseRequest => Sys2Proof.Machine.execLocketReleaseRequest s
  | .pendantLoadtab => Sys2Proof.Machine.execPendantLoadtab s
  | .pendantStart => Sys2Proof.Machine.execPendantStart s
  | .pendantStop => Sys2Proof.Machine.execPendantStop s
  | .pendantAbort => Sys2Proof.Machine.execPendantAbort s
  | .pendantRead => Sys2Proof.Machine.execPendantRead s
  | .pendantSwcPoll => Sys2Proof.Machine.execPendantSwcPoll s
  | .batchFormation => Sys2Proof.Machine.execBatchFormation s
  | .pendantBeadRelease => Sys2Proof.Machine.execPendantBeadRelease s
  | .pendantBeadReturn => Sys2Proof.Machine.execPendantBeadReturn s
  | .sampleRetirement => Sys2Proof.Machine.execSampleRetirement s
  | .batchTimeout => Sys2Proof.Machine.execBatchTimeout s
  | .pendantFailureNotice => Sys2Proof.Machine.execPendantFailureNotice s
  | .sampleEntryEccError => Sys2Proof.Machine.execSampleEntryEccError s
  | .pendantJobEnd => Sys2Proof.Machine.execPendantJobEnd s
  | .locketArm => Sys2Proof.Machine.execLocketArm s
  | .locketTrigger => Sys2Proof.Machine.execLocketTrigger s
  | .locketRestore => Sys2Proof.Machine.execLocketRestore s
  | .locketDisarm => Sys2Proof.Machine.execLocketDisarm s
  | .locketPeriodTrigger => Sys2Proof.Machine.execLocketPeriodTrigger s
  | .locketStepTrigger => Sys2Proof.Machine.execLocketStepTrigger s
  | .locketHoldComplete => Sys2Proof.Machine.execLocketHoldComplete s
  | .locketHoldTimeout => Sys2Proof.Machine.execLocketHoldTimeout s
  | .locketFacetReadout => Sys2Proof.Machine.execLocketFacetReadout s
  | .locketQueueTimeout => Sys2Proof.Machine.execLocketQueueTimeout s
  | .locketImageMark => Sys2Proof.Machine.execLocketImageMark s
  | .locketFacetRestore => Sys2Proof.Machine.execLocketFacetRestore s
  | .claspDissent => Sys2Proof.Machine.execClaspDissent s
  | .resyncComplete => Sys2Proof.Machine.execResyncComplete s
  | .claspBreak => Sys2Proof.Machine.execClaspBreak s
  | .claspRestore => Sys2Proof.Machine.execClaspRestore s
  | .claspRestoreDone => Sys2Proof.Machine.execClaspRestoreDone s
  | .claspRetclr => Sys2Proof.Machine.execClaspRetclr s
  | .claspInjgo => Sys2Proof.Machine.execClaspInjgo s
  | .clcntRead => Sys2Proof.Machine.execClcntRead s
  | .linkRetry => Sys2Proof.Machine.execLinkRetry s
  | .hopDown => Sys2Proof.Machine.execHopDown s
  | .peerPortUp => Sys2Proof.Machine.execPeerPortUp s
  | .feataccWrite => Sys2Proof.Machine.execFeataccWrite s
  | .hostApertureAccess => Sys2Proof.Machine.execHostApertureAccess s
  | .moduleReset => Sys2Proof.Machine.execModuleReset s
  | .functionReady => Sys2Proof.Machine.execFunctionReady s
  | .clkWrite => Sys2Proof.Machine.execClkWrite s
  | .clockSwitch => Sys2Proof.Machine.execClockSwitch s
  | .gateWrite => Sys2Proof.Machine.execGateWrite s
  | .srefWrite => Sys2Proof.Machine.execSrefWrite s
  | .tgateWrite => Sys2Proof.Machine.execTgateWrite s
  | .lanesWrite => Sys2Proof.Machine.execLanesWrite s
  | .hopRetrain => Sys2Proof.Machine.execHopRetrain s
  | .thermalTrip => Sys2Proof.Machine.execThermalTrip s
  | .header o => Sys2Proof.Machine.execHeader o s
  | .unassignedOpcode o => Sys2Proof.Machine.execUnassignedOpcode o s
  | .tileCycle => Sys2Proof.Machine.execTileCycle s
  | .runAheadPrefetch => Sys2Proof.Machine.execRunAheadPrefetch s
  | .peerMemoryAccess => Sys2Proof.Machine.execPeerMemoryAccess s
  | .signedUpdate => Sys2Proof.Machine.execSignedUpdate s
  | .gtcSync => Sys2Proof.Machine.execGtcSync s
  | .refreshWindowEnd => Sys2Proof.Machine.execRefreshWindowEnd s

end Sys2Proof.Machine
end

