-- ==== Sys2Proof/Machine/Step.lean ====
section
/-! DEFINITION. One step of the module, and the state in which a given word is fetched next (logs A4, A5). -/

namespace Sys2Proof.Machine

/-- The state in which a unit's step is made: the tile in focus may try to issue again after it, and learns of that in a cycle of its own
only at its end, which counts how the tile stood (R389; log A4). -/
def State.unitTurn (s : State) (i : Instr) (a : List Nat) : State :=
  let s := { s with args := a, turn := s.turn + 1 }
  match i with
  | .tileCycle => if a = [s.self] then s else s.tag s.core.iss.out.rest
  | _ => s.tag s.core.iss.out.rest

/-- One step: the head of the agenda, else a cycle of the tile in focus, else a step of another unit if there is one, else a
cycle of the tile in focus again (log A4). -/
def step (s : State) : Host.Outcome State Fault Refusal :=
  match s.agenda with
  | (i, a) :: rest => exec i { s with args := a, agenda := rest }
  | [] =>
    if s.mayIssue then issueWith exec s
    else
      match autoNext s with
      | some (i, a) => exec i (s.unitTurn i a)
      | none => if s.core.task.run = .running then issueWith exec s else exec .tileCycle { s with args := [s.self] }

/-- s with a bundle that holds the word alone at the start of the global virtual space, in the instruction cache, the tile in
focus running there with range register 0 mapped and the offered features accepted (logs A3, A5). -/
def State.withFetchWord (s : State) (nbits w : Nat) : State :=
  let word := if nbits = 32 then w % 4294967296 else 0
  let line := ofBytes (loneBundle word ((lonePosition word).getD 0))
  { s with
    agenda := [],
    hub := { s.hub with featacc := Config.featcap },
    core :=
      { s.core with
        iss := Iss.reset, icache := putCode s.core.icache (lineKey 0 0 0) line, chkWait := 0, fetchRg := [],
        task := { s.core.task with run := .running, pend := none, preq := false },
        spr := { s.core.spr with pc := 0x100000000000, rg := s.core.spr.rg.setIfInBounds 0 0x1000000000000F } } }

end Sys2Proof.Machine
end

