-- ==== Sys2Proof/Machine/Scope.lean ====
section
/-! DEFINITION. The parties of each scope, and when a release synchronises with an acquire (R297, R300). The module's own steps perform
every write for all agents at once (log 69); these are the terms in which the spec says which of those effects a program may rely on. -/

namespace Sys2Proof.Machine

/-- An agent that reads or writes memory (R297): those of a tile, those of a compute die, a memory base die, a hub die, the host's own, and
those of another package on the peer ring. -/
inductive Agent where
  | core (tile : Nat)
  | chan (tile c : Nat)
  | gather (tile : Nat)
  | loader (tile : Nat)
  | facet (tile f : Nat)
  | beadPort (tile : Nat)
  | diagnostic (tile : Nat)
  | processor (die : Nat)
  | scheduler (die : Nat)
  | pendant (die : Nat)
  | locket (die : Nat)
  | base (die : Nat)
  | hub (h : Nat)
  | host
  | peer (package : Nat)
  deriving DecidableEq, Repr

/-- The tile of an agent of a tile. -/
def Agent.tile? : Agent → Option Nat
  | .core t => some t
  | .chan t _ => some t
  | .gather t => some t
  | .loader t => some t
  | .facet t _ => some t
  | .beadPort t => some t
  | _ => none

/-- The compute die of an agent of the package that is on or under one. -/
def Agent.die? : Agent → Option Nat
  | .processor d => some d
  | .scheduler d => some d
  | .pendant d => some d
  | .locket d => some d
  | .base d => some d
  | .diagnostic t => some (tileDie t)
  | a => a.tile?.map tileDie

/-- An agent of the package (R297). -/
def Agent.inPackage (a : Agent) : Bool := a.die?.isSome || (match a with | .hub _ => true | _ => false)

/-- The die of an agent is one of those of a list. -/
def Agent.onDies (a : Agent) (l : List Nat) : Bool := match a.die? with | some d => l.contains d | none => false

/-- The parties within a scope of tile t, by its code, for a location of a home class (R297). -/
def inScope (t sco cls : Nat) (a : Agent) : Bool :=
  let d := tileDie t
  match sco with
  | 1 => a.tile? == some t
  | 2 => (match a.tile? with | some u => u / 16 == t / 16 | none => false)
  | 3 => a.onDies [d]
  | 4 => a.onDies [d, (d + 15) % 16, (d + 1) % 16]
  | 5 => a.onDies (List.range 16)
  | 6 => a.inPackage && decide (cls < 2)
  | 7 => a.inPackage && cls == 2
  | 8 => a.inPackage
  | 9 => a.inPackage || a == .host
  | 10 => a.inPackage || a == .host || (match a with | .peer _ => true | _ => false)
  | 11 => true
  | 12 => (match a with
      | .core u => u == t | .facet u _ => u == t | .diagnostic u => u == t | .locket k => k == d | _ => false)
  | _ => false

/-- Whether a release by the core of tile t and an acquire by that of tile u, which reads what it wrote at a location of a home class,
synchronise (R300). -/
def synchronise (t scoT u scoU cls : Nat) : Bool := inScope t scoT cls (.core u) && inScope u scoU cls (.core t)

end Sys2Proof.Machine
end

