-- ==== Sys2Proof/Safety.lean ====
section
/-! DEFINITION. What counts as a safe run (no step faults or is refused, and storage keeps its canonical form), and the terms in
which the claims about one operation are made. -/

namespace Sys2Proof

/-- A step that ends in a next state. -/
def goesOn (o : Machine.Out) : Bool := match o with | .next _ => true | _ => false

/-- The storage of a state is in canonical form (log A1). -/
def Machine.State.memOk (s : Machine.State) : Bool := Machine.memWf s.mem

/-- A run of k steps from a state in which every step goes on and storage stays canonical. -/
def safeRun : Nat → Machine.State → Bool
  | 0, s => s.memOk
  | k + 1, s =>
    s.memOk &&
      match Machine.step s with
      | .next s' => safeRun k s'
      | _ => false

namespace Machine

/-- An operation passes its decode checks and its guard is on (R90, R99). -/
abbrev Decodes (i : Instr) (s : State) : Prop :=
  extOk i = true ∧ legal i = true ∧ featOk s.hub.featacc i = true ∧ (guardOf i).on s.core = true

/-- An operation may take effect: it passes its decode checks, its guard is on, and no register that it reads or writes by an
exposed landing is pending (R90, R99, R102). -/
abbrev Enabled (i : Instr) (s : State) : Prop :=
  Decodes i s ∧ readsPending s.core i = false ∧ writesPending s.core i s.core.diverted = none

/-- The operation in issue is alone in its bundle and last in it, and nothing of the bundle has been done yet. -/
abbrev Alone (s : State) : Prop :=
  s.core.iss.last = true ∧ s.core.iss.effs = [] ∧ s.core.iss.lands = [] ∧ s.core.iss.npc = none ∧ s.core.iss.rb = false ∧
    s.core.iss.re = false

/-- A scalar result of an operation in issue, k bundles on, under the logical name d (R18, R51). -/
def State.withS (s : State) (k d : Nat) (v : Word) : State := s.land k (.sreg (physS s.core.spr.rotw d) v)

/-- A predicate result of an operation in issue, one bundle on (R51, R147). -/
def State.withQ (s : State) (d : Nat) (v : Bool) : State := s.land 1 (.pred (physQ s.core.spr.rotw d) v)

/-- An access of size bytes finds no cause, no breach and nothing to wait for, and leads to d. -/
abbrev Granted (s : State) (i : Instr) (a size enb : Nat) (r w : Bool) (d : Dest) : Prop :=
  access s i a size enb r w = { trap := none, wchk := none, wait := false, dest := d }

end Machine

end Sys2Proof
end

