-- ==== Sys2Proof/Certificates/Slice0/Obligations.lean ====
section
/-! DEFINITION. The statements about the model. -/

open Sys2Proof Sys2Proof.Machine

/-! ## Scalar arithmetic -/

/-- Every SA operation of R142 answers the end of the operation with its result under way to sD: 1 bundle on, 3 for the products. CLZ gives
the number of zero bits above the highest one bit, 64 for zero; POPC the number of one bits. -/
def Obligations.ScalarArithmetic : Prop :=
  (∀ (o : OpSNgda) (s : State),
    let a := s.core.sreg o.a
    (Enabled (.clz o) s → ∃ r ≤ 64, exec (.clz o) s = .next (finish (s.withS 1 o.d (BitVec.ofNat 64 r))) ∧
      a.toNat < 2 ^ (64 - r) ∧ (r = 64 ∨ 2 ^ (63 - r) ≤ a.toNat)) ∧
    (Enabled (.popc o) s →
      exec (.popc o) s = .next (finish (s.withS 1 o.d (BitVec.ofNat 64 ((List.range 64).countP (fun k => a.getLsbD k))))))) ∧
  ∀ (o : OpSNgdab) (s : State),
    let a := s.core.sreg o.a
    let b := s.core.sreg o.b
    let n := b.toNat % 64
    let ends (i : Instr) (k : Nat) (v : Word) : Prop := Enabled i s → exec i s = .next (finish (s.withS k o.d v))
    ends (.add o) 1 (a + b) ∧ ends (.sub o) 1 (a - b) ∧ ends (.and o) 1 (a &&& b) ∧ ends (.or o) 1 (a ||| b) ∧
    ends (.xor o) 1 (a ^^^ b) ∧ ends (.andn o) 1 (a &&& ~~~b) ∧ ends (.shl o) 1 (a <<< n) ∧ ends (.shr o) 1 (a >>> n) ∧
    ends (.sra o) 1 (a.sshiftRight n) ∧ ends (.mul o) 3 (a * b) ∧
    ends (.mulhI o) 3 (BitVec.ofInt 64 (a.toInt * b.toInt / 2 ^ 64)) ∧
    ends (.mulhN o) 3 (BitVec.ofNat 64 (a.toNat * b.toNat / 2 ^ 64)) ∧
    ends (.minI o) 1 (if b.slt a then b else a) ∧ ends (.minN o) 1 (if b < a then b else a) ∧
    ends (.maxI o) 1 (if a.slt b then b else a) ∧ ends (.maxN o) 1 (if a < b then b else a)

/-- The float core. Codes decode by class at their exact values, subnormals included (R57, R58). Sums, products and fused forms are exact,
with the signs of zero, the invalid cases and the first NaN of R59 and R60; maximum and minimum order -0 below +0. A rounded magnitude is
the largest representable one not above it (RTZ), the nearest with ties to even (RNE), or one of the two about it by the random field (SR),
with the overflow of R62; rint rounds alike (R61, R63). Infinities go through the fused forms and the choices as R59 and R60 say. The
transcendental forms have the special results of R215; of their other values, 1 / a, the root and, within a 2^30th part, 2^a and tanh a are
the function's, and log2 a lies where the function's does, the rest resting on the model's arithmetic (log 12). -/
def Obligations.FloatCore : Prop :=
  let val (s : Bool) (m : Nat) (e : Int) : ℚ := (if s then -1 else 1) * m * 2 ^ e
  (∀ c < 2 ^ 32,
    let e := bits c 23 8
    let f := bits c 0 23
    (e < 255 → ∃ m x, fval c = .fin (bit c 31) m x ∧
      val (bit c 31) m x = val (bit c 31) (if e = 0 then f else 2 ^ 23 + f) ((max e 1 : Nat) - 150)) ∧
    (e = 255 → fval c = if f = 0 then .inf (bit c 31) else .nan c) ∧ (c < 65536 → fvalBf c = fval (c * 65536))) ∧
  (∀ (s1 s2 s3 np nc : Bool) (m1 m2 m3 : Nat) (e1 e2 e3 : Int),
    (∃ s m e, fadd (.fin s1 m1 e1) (.fin s2 m2 e2) = .fin s m e ∧ val s m e = val s1 m1 e1 + val s2 m2 e2 ∧
      (m = 0 → s = (s1 && s2 && m1 == 0 && m2 == 0))) ∧
    (∃ m e, fmul (.fin s1 m1 e1) (.fin s2 m2 e2) = .fin (s1 != s2) m e ∧ val (s1 != s2) m e = val s1 m1 e1 * val s2 m2 e2) ∧
    (∃ s m e, ffma np nc (.fin s1 m1 e1) (.fin s2 m2 e2) (.fin s3 m3 e3) = .fin s m e ∧
      val s m e = (if np then -1 else 1) * (val s1 m1 e1 * val s2 m2 e2) + (if nc then -1 else 1) * val s3 m3 e3 ∧
      (m = 0 → s = (((s1 != s2) != np) && (s3 != nc) && m1 * m2 == 0 && m3 == 0))) ∧
    (∃ s m e, fmax (.fin s1 m1 e1) (.fin s2 m2 e2) = .fin s m e ∧ val s m e = max (val s1 m1 e1) (val s2 m2 e2) ∧
      (m1 = 0 → m2 = 0 → s = (s1 && s2))) ∧
    (∃ s m e, fmin (.fin s1 m1 e1) (.fin s2 m2 e2) = .fin s m e ∧ val s m e = min (val s1 m1 e1) (val s2 m2 e2) ∧
      (m1 = 0 → m2 = 0 → s = (s1 || s2)))) ∧
  (∀ (s t np nc : Bool) (m c : Nat) (e : Int) (a b : FVal),
    fadd (.inf s) (.inf t) = (if s = t then .inf s else .nan 0x7FC00000) ∧ fadd (.inf s) (.fin t m e) = .inf s ∧
    fadd (.fin t m e) (.inf s) = .inf s ∧ fmul (.inf s) (.inf t) = .inf (s != t) ∧
    fmul (.inf s) (.fin t m e) = (if m = 0 then .nan 0x7FC00000 else .inf (s != t)) ∧
    fmul (.fin t m e) (.inf s) = (if m = 0 then .nan 0x7FC00000 else .inf (t != s)) ∧
    fadd (.nan c) a = .nan c ∧ fmul (.nan c) a = .nan c ∧ ffma np nc (.nan c) a b = .nan c ∧ fmax (.nan c) a = .nan c ∧
    fmin (.nan c) a = .nan c ∧
    (a.isNan = false → fadd a (.nan c) = .nan c ∧ fmul a (.nan c) = .nan c ∧ ffma np nc a (.nan c) b = .nan c ∧
      fmax a (.nan c) = .nan c ∧ fmin a (.nan c) = .nan c ∧ (b.isNan = false → ffma np nc a b (.nan c) = .nan c))) ∧
  (∀ (s t u np nc : Bool) (m1 m2 : Nat) (e1 e2 : Int) (a : FVal),
    let p := (s != t) != np
    (a.isNan = false → ffma np nc (.inf s) (.fin t 0 e1) a = .nan 0x7FC00000 ∧ ffma np nc (.fin t 0 e1) (.inf s) a = .nan 0x7FC00000) ∧
    (∀ x y, (x = .inf s ∧ y = .inf t) ∨ (x = .inf s ∧ y = .fin t m1 e1 ∧ m1 ≠ 0) ∨ (x = .fin s m1 e1 ∧ m1 ≠ 0 ∧ y = .inf t) →
      ffma np nc x y (.fin u m2 e2) = .inf p ∧ ffma np nc x y (.inf u) = if p = (u != nc) then .inf p else .nan 0x7FC00000) ∧
    ffma np nc (.fin s m1 e1) (.fin t m2 e2) (.inf u) = .inf (u != nc) ∧
    fmax (.inf s) (.inf t) = .inf (s && t) ∧ fmin (.inf s) (.inf t) = .inf (s || t) ∧
    fmax (.inf s) (.fin t m1 e1) = (if s then .fin t m1 e1 else .inf false) ∧
    fmax (.fin t m1 e1) (.inf s) = (if s then .fin t m1 e1 else .inf false) ∧
    fmin (.inf s) (.fin t m1 e1) = (if s then .inf true else .fin t m1 e1) ∧
    fmin (.fin t m1 e1) (.inf s) = (if s then .inf true else .fin t m1 e1)) ∧
  (∀ (F : Nat) (sat s : Bool) (m : Nat) (e : Int), F = 7 ∨ F = 23 → 0 < m →
    let v : ℚ := m * 2 ^ e
    let top := 255 * 2 ^ F
    let g (k : Nat) : ℚ := (if k < 2 ^ F then k else 2 ^ F + k % 2 ^ F : Nat) * 2 ^ (((max (k / 2 ^ F) 1 : Nat) : Int) - 127 - F)
    let r (mode : Rm) : Nat := roundMag F mode sat m e
    let ovf : Nat := if sat then top - 1 else top
    (∀ mode, roundW (F + 9) mode sat (.fin s m e) = b2n s * 2 ^ (F + 8) + r mode ∧
      roundW (F + 9) mode sat (.fin s 0 e) = b2n s * 2 ^ (F + 8) ∧ roundW (F + 9) mode sat (.inf s) = b2n s * 2 ^ (F + 8) + top) ∧
    (r .rtz < top ∧ g (r .rtz) ≤ v ∧ ∀ k < top, g k ≤ v → k ≤ r .rtz) ∧
    (v < 2 ^ 128 - 2 ^ (126 - F) → r .rne < top ∧ ∀ k < top, |g (r .rne) - v| ≤ |g k - v| ∧
      (|g (r .rne) - v| = |g k - v| → k ≠ r .rne → r .rne % 2 = 0)) ∧
    (2 ^ 128 - 2 ^ (126 - F) ≤ v → r .rne = ovf) ∧
    (∀ n rnd,
      let a := r .rtz
      let b : ℚ := if a + 1 = top then 2 ^ 128 else g (a + 1)
      (2 ^ 128 ≤ v → r (.sr n rnd) = ovf) ∧
      (v < 2 ^ 128 → r (.sr n rnd) =
        if rnd < ⌊(v - g a) / (b - g a) * 2 ^ n⌋₊ then (if a + 1 = top then ovf else a + 1) else a))) ∧
  (∀ (mode : Rm) (sat : Bool), ∀ c < 2 ^ 32, roundF mode sat (.nan c) = c ||| 2 ^ 22 ∧ roundBf mode sat (.nan c) = c / 65536 ||| 64) ∧
  (∀ (s : Bool) (m : Nat) (e : Int),
    let v : ℚ := m * 2 ^ e
    let i (mode : Rm) : Int := if s then -rint mode (.fin s m e) else rint mode (.fin s m e)
    i .rtz = ⌊v⌋ ∧ (|(i .rne : ℚ) - v| ≤ 1 / 2 ∧ (|(i .rne : ℚ) - v| = 1 / 2 → i .rne % 2 = 0)) ∧
    ∀ n rnd, i (.sr n rnd) = ⌊v⌋ + if rnd < ⌊(v - ⌊v⌋) * 2 ^ n⌋₊ then 1 else 0) ∧
  (∀ (s : Bool) (m : Nat) (e : Int), 0 < m → m < 2 ^ 24 →
    let v : ℚ := m * 2 ^ e
    (∃ q x, frcp (.fin s m e) = .fin s q x ∧ |q * 2 ^ x * v - 1| < 1 / 2 ^ 300) ∧
    (∃ q x, frsq (.fin false m e) = .fin false q x ∧ |(q * 2 ^ x) ^ 2 * v - 1| < 1 / 2 ^ 300) ∧
    (∃ q x, ftanh (.fin s m e) = .fin s q x ∧ (q * 2 ^ x : ℚ) < 1 ∧
      |(q * 2 ^ x : ℝ) - Real.tanh (v : ℝ)| ≤ Real.tanh (v : ℝ) / 2 ^ 30) ∧
    (v < 2 ^ 13 → ∃ q x, fexp2 (.fin s m e) = .fin false q x ∧ (2 : ℚ) ^ ⌊val s m e⌋ ≤ q * 2 ^ x ∧
      |(q * 2 ^ x : ℝ) - (2 : ℝ) ^ ((val s m e : ℚ) : ℝ)| ≤ (2 : ℝ) ^ ((val s m e : ℚ) : ℝ) / 2 ^ 30 ∧
      ∀ n : Int, val s m e = n → (q * 2 ^ x : ℚ) = 2 ^ n) ∧
    (let n : Int := (Nat.log2 m : Int) + e
     ∃ g q x, flog2 (.fin false m e) = .fin g q x ∧ (n : ℚ) ≤ val g q x ∧ val g q x < n + 1 ∧ (v = 2 ^ n → val g q x = n)) ∧
    flog2 (.fin true m e) = .nan 0x7FC00000 ∧ frsq (.fin true m e) = .nan 0x7FC00000) ∧
  ∀ (s : Bool) (c : Nat) (e : Int),
    fexp2 (.fin s 0 e) = .fin false 1 0 ∧ fexp2 (.inf s) = (if s then .fin false 0 0 else .inf false) ∧
    flog2 (.fin s 0 e) = .inf true ∧ flog2 (.inf s) = (if s then .nan 0x7FC00000 else .inf false) ∧ flog2 (.fin false 1 0) = .fin false 0 0 ∧
    frcp (.fin s 0 e) = .inf s ∧ (frcp (.inf s)).isZero = true ∧ frsq (.fin s 0 e) = .inf s ∧
    frsq (.inf s) = (if s then .nan 0x7FC00000 else .fin false 0 0) ∧ ftanh (.fin s 0 e) = .fin s 0 0 ∧ ftanh (.inf s) = .fin s 1 0 ∧
    fexp2 (.nan c) = .nan c ∧ flog2 (.nan c) = .nan c ∧ frcp (.nan c) = .nan c ∧ frsq (.nan c) = .nan c ∧ ftanh (.nan c) = .nan c

/-- The immediate forms of R144: the sum, product and signed choices take the sign-extended byte, the others the natural one; LDI gives the
sign-extended 19-bit constant, LDHI replaces halfword h of sD and keeps the other three (R145). -/
def Obligations.ScalarImmediates : Prop :=
  (∀ (o : OpSNgdai) (x : OpSNgdai2) (s : State),
      let a := s.core.sreg o.a
      let i : Word := (BitVec.ofNat 8 o.i).signExtend 64
      let u : Word := BitVec.ofNat 64 o.i
      let c := s.core.sreg x.a
      let ends (j : Instr) (k d : Nat) (v : Word) : Prop := Enabled j s → exec j s = .next (finish (s.withS k d v))
      ends (.addi o) 1 o.d (a + i) ∧ ends (.andi o) 1 o.d (a &&& u) ∧ ends (.ori o) 1 o.d (a ||| u) ∧ ends (.xori o) 1 o.d (a ^^^ u) ∧
      ends (.shli x) 1 x.d (c <<< x.i.val) ∧ ends (.shri x) 1 x.d (c >>> x.i.val) ∧ ends (.srai x) 1 x.d (c.sshiftRight x.i.val) ∧
      ends (.muli o) 3 o.d (a * i) ∧ ends (.miniI o) 1 o.d (if i.slt a then i else a) ∧ ends (.miniN o) 1 o.d (if u < a then u else a) ∧
      ends (.maxiI o) 1 o.d (if a.slt i then i else a) ∧ ends (.maxiN o) 1 o.d (if a < u then u else a)) ∧
  ((∀ (o : OpSDi) (s : State), Enabled (.ldi o) s →
      exec (.ldi o) s = .next (finish (s.withS 1 o.d ((BitVec.ofNat 19 o.i).signExtend 64)))) ∧
    ∀ (o : OpSDhi) (s : State), Enabled (.ldhi o) s →
      ∃ v : Word, exec (.ldhi o) s = .next (finish (s.withS 1 o.d v)) ∧
        ∀ k < 4, bits v.toNat (16 * k) 16 = if k = o.h.val then o.i.val else bits (s.core.sreg o.d).toNat (16 * k) 16)

/-! ## Selection, comparison, predicates and cross-file copies -/

/-- SEL gives sA where its select predicate, negated under NS, is 1, else sB (R146). CMP and CMPI write the truth of their condition to a
predicate one bundle on; the immediate is signed under the codes 0 to 3, natural under lt.n and ge.n (R147). PAND, POR, PXOR and PNOT
combine predicates, each negated under its N bit (R148). -/
def Obligations.ScalarSelectCompare : Prop :=
  (∀ (o : OpSNqdab) (s : State), Enabled (.sel o) s →
      exec (.sel o) s = .next (finish (s.withS 1 o.d
        (if s.core.pred o.q ^^ decide (o.n.val = 1) then s.core.sreg o.a else s.core.sreg o.b)))) ∧
  (let truth (c : Fin 8) (x y : Word) : Bool :=
      match c.val with | 0 => x == y | 1 => x != y | 2 => x.slt y | 3 => y.sle x | 4 => x.ult y | _ => y.ule x
    (∀ (o : OpSNgqabc) (s : State), Enabled (.cmp o) s →
      exec (.cmp o) s = .next (finish (s.withQ o.q (truth o.c (s.core.sreg o.a) (s.core.sreg o.b))))) ∧
    ∀ (o : OpSNgqaci) (s : State), Enabled (.cmpi o) s →
      exec (.cmpi o) s = .next (finish (s.withQ o.q (truth o.c (s.core.sreg o.a)
        (if o.c.val < 4 then (BitVec.ofNat 7 o.i).signExtend 64 else BitVec.ofNat 64 o.i))))) ∧
  (∀ (o : OpSNgqxayb) (p : OpSNgqxa) (s : State),
      let x := s.core.pred o.a ^^ decide (o.x.val = 1)
      let y := s.core.pred o.b ^^ decide (o.y.val = 1)
      let ends (i : Instr) (q : Fin 16) (v : Bool) : Prop := Enabled i s → exec i s = .next (finish (s.withQ q v))
      ends (.pand o) o.q (x && y) ∧ ends (.por o) o.q (x || y) ∧ ends (.pxor o) o.q (x ^^ y) ∧
        ends (.pnot p) p.q (!(s.core.pred p.a ^^ decide (p.x.val = 1))))

/-- XV2S copies a lane to a scalar register three bundles on, zero- or sign-extended; XQ2M copies a scalar register to a whole mask two
bundles on, or zero where its predicate is 0 (R166, R167). -/
def Obligations.CrossFileCopies : Prop :=
  ∀ (o : OpSNgdai) (m : OpSNgdab) (s : State),
    let v := s.core.vreg o.a
    let ends (i : Instr) (w : Word) : Prop := Enabled i s → exec i s = .next (finish (s.withS 3 o.d w))
    ends (.xv2sN8 o) ((v.extractLsb' (8 * o.i) 8).setWidth 64) ∧ ends (.xv2sI8 o) ((v.extractLsb' (8 * o.i) 8).signExtend 64) ∧
    ends (.xv2sN16 o) ((v.extractLsb' (16 * o.i) 16).setWidth 64) ∧ ends (.xv2sI16 o) ((v.extractLsb' (16 * o.i) 16).signExtend 64) ∧
    ends (.xv2sN32 o) ((v.extractLsb' (32 * o.i) 32).setWidth 64) ∧ ends (.xv2sI32 o) ((v.extractLsb' (32 * o.i) 32).signExtend 64) ∧
    ends (.xv2sN64 o) (v.extractLsb' (64 * o.i) 64) ∧
    (Enabled (.xq2m m) s → exec (.xq2m m) s = .next (finish (s.land 2 (.mask m.d (BitVec.allOnes 64)
      (if s.core.pred m.b then s.core.sreg m.a else 0)))))

/-! ## Control -/

/-- BR, JMP, RET and CALL transfer control: a target outside 0 to 2^56 - 1 or off a bundle boundary traps as ILLEGAL with the target as
TVAL, any other is the address of the next bundle; CALL's link is the bundle after its own (R149, R150). -/
def Obligations.PlainTransfers : Prop :=
  ∀ (o : OpSNgo) (x : OpSNga) (c : OpSNgdo) (s : State),
    let pc := s.core.spr.pc
    let via (i : Instr) (t : Int) (s' : State) : Prop := Enabled i s →
      exec i s = if 0 ≤ t ∧ t < 2 ^ 56 ∧ t % 16 = 0 then .next (finish (s'.goto t.toNat))
        else trapOut s .illegal s.core.iss.slot (wrap 64 t) .trapIssue
    via (.br o) (pc.toNat + 16 * sext o.o 20) s ∧ via (.jmp x) (s.core.sreg x.a).toNat s ∧ via (.ret x) (s.core.sreg x.a).toNat s ∧
      via (.call c) (pc.toNat + 16 * sext c.o 14) (s.withS 1 c.d (pc + 16))

/-- The counted branches: BRC, taken, clears LC; LOOP counts LC down and is taken while LC was not 0; neither changes anything where it is
not taken (R151, R153). SETLC sets LC at its commit. -/
def Obligations.CountedBranches : Prop :=
  ∀ (b : OpSNgxqo) (o : OpSNgo) (x : OpSNga) (s : State),
    let pc := s.core.spr.pc.toNat
    let lc := s.core.spr.lc
    let via (i : Instr) (taken : Bool) (t : Int) (s' : State) : Prop := Enabled i s →
      exec i s = if taken = false then .next (finish s)
        else if 0 ≤ t ∧ t < 2 ^ 56 ∧ t % 16 = 0 then .next (finish (s'.goto t.toNat))
        else trapOut s .illegal s.core.iss.slot (wrap 64 t) .trapIssue
    via (.brc b) (s.core.pred b.q ^^ decide (b.x.val = 1)) (pc + 16 * sext b.o 15) (s.eff (.lc 0)) ∧
    via (.loop o) (decide (lc ≠ 0)) (pc + 16 * sext o.o 20) (s.eff (.lc (lc - 1))) ∧
    (Enabled (.setlc x) s → exec (.setlc x) s = .next (finish (s.eff (.lc (s.core.sreg x.a)))))

/-- LOOPR, in one commit, counts LC down to 0, turns the wheel by one, writes q8 as the wheel then names it, and branches while an iteration
is left: LC was not 0, or a stage predicate below the last is 1 (R154, R155). -/
def Obligations.RotatingLoop : Prop :=
  ∀ (o : OpSNgso) (s : State), Enabled (.loopr o) s →
    let lc := s.core.spr.lc
    let wheel := wheelNext s.core.spr.rotw
    let t : Int := s.core.spr.pc.toNat + 16 * sext o.o 17
    let taken := lc ≠ 0 ∨ ∃ k < o.s.val, s.core.pred (8 + k) = true
    let s' := ((s.eff (.lc (if lc = 0 then 0 else lc - 1))).eff (.rotw wheel)).land 1 (.pred (physQ wheel 8) (decide (lc ≠ 0)))
    (¬taken → exec (.loopr o) s = .next (finish s')) ∧
    (taken → 0 ≤ t → t < 2 ^ 56 → t % 16 = 0 → exec (.loopr o) s = .next (finish (s'.goto t.toNat))) ∧
    (taken → ¬(0 ≤ t ∧ t < 2 ^ 56 ∧ t % 16 = 0) →
      exec (.loopr o) s = trapOut s .illegal s.core.iss.slot (wrap 64 t) .trapIssue)

/-- The checks against the twin latches: BR.G, CHK.S and CHK.V trap as TWIN with TVAL 0 where latch and register differ; BR.G, where they
agree, branches on its predicate, and the others have no effect (R152, R165, R234). -/
def Obligations.TwinChecks : Prop :=
  ∀ (b : OpSNgo) (o : OpSNga) (v : OpVGa) (s : State),
    let c := s.core.pred b.g
    let t : Int := s.core.spr.pc.toNat + 16 * sext b.o 20
    let twin : Out := trapOut s .twin s.core.iss.slot 0 .trapTwin
    (Enabled (.brG b) s → 0 ≤ t → t < 2 ^ 56 → t % 16 = 0 →
      exec (.brG b) s = if c ≠ decide (s.core.regs.twinS ≠ 0) then twin
        else if c ^^ decide (b.n.val = 1) then .next (finish (s.goto t.toNat)) else .next (finish s)) ∧
    (Enabled (.chkS o) s → exec (.chkS o) s = if s.core.sreg o.a = s.core.regs.twinS then .next (finish s) else twin) ∧
    (Enabled (.chkV v) s → exec (.chkV v) s = if s.core.vreg v.a = s.core.regs.twinV then .next (finish s) else twin)

/-- A slot word of all zeros is NOP in every position: it reads no register, uses no port and has no effect of its own; a word of major
opcode 0 whose other bits are not all zero is of no opcode, and traps as ILLEGAL (R85). -/
def Obligations.NopWords : Prop :=
  (∀ h e : Nat, decodeS 0 = some .nop ∧ decodeV 0 h e = some .nop ∧ decodeT 0 e = some .nop) ∧
  (∀ w < 2 ^ 25, ∀ h e : Nat, w ≠ 0 → decodeS w = none ∧ decodeV w h e = none ∧ decodeT w e = none) ∧
  (∀ s : State, exec .nop s = .next (finish s)) ∧
  ((srcOf .nop).s = [] ∧ (srcOf .nop).q = [] ∧ (srcOf .nop).v = [] ∧ (srcOf .nop).m = []) ∧
  (∀ (t : Tile) (tw : Bool), deadLand t .nop tw = []) ∧
  ∀ (p : Fin 4) (w h e : Nat) (s : State), 0 < w → w < 2 ^ 25 → ∃ i, slotInstr p w (Fin.ofNat 2 h) e = i ∧
    exec i s = trapOut s .illegal s.core.iss.slot w .trapDecode

/-! ## System -/

/-- MFS reads a special register to sD one bundle on: PC, TSTAT, FMT, LC, ROTW, TCAUSE, TPC, TVAL, CYC, GTC as it stands, TASKID, BOWN, RBQS
with its generation, RUN and COUNT, WCHK, STAGE, RG0 to RG7 and the SNAP registers; task level traps as PRIV, the register's number as TVAL,
on those that R25 hides from it: TCAUSE, TPC, TVAL, RG0 to RG7 and the SNAP registers (R25, R35, R163). -/
def Obligations.ReadSpecial : Prop :=
  ∀ (o : OpSNgdi) (s : State), Enabled (.mfs o) s →
    let n := o.i.val
    let hidden := (8 ≤ n ∧ n ≤ 10) ∨ (0x20 ≤ n ∧ n ≤ 0x27) ∨ 0x40 ≤ n
    let p := s.core.spr
    let g := s.core.rng
    let reads (v : Word) : Prop := exec (.mfs o) s = .next (finish (s.withS 1 o.d v))
    (s.core.sup = false → hidden → exec (.mfs o) s = trapOut s .priv s.core.iss.slot n .trapIssue) ∧
    (s.core.sup = true ∨ ¬hidden →
      (n = 0 → reads p.pc) ∧ (n = 1 → reads p.tstat) ∧ (n = 2 → reads p.fmt) ∧ (n = 3 → reads p.lc) ∧ (n = 5 → reads p.rotw) ∧
      (n = 8 → reads p.tcause) ∧ (n = 9 → reads p.tpc) ∧ (n = 10 → reads p.tval) ∧ (n = 11 → reads p.cyc) ∧
      (n = 12 → reads (BitVec.ofNat 64 s.hub.gtc)) ∧ (n = 13 → reads p.taskid) ∧ (n = 14 → reads p.bown) ∧
      (n = 15 → reads (BitVec.ofNat 64 (g.gen % 2 ^ 56 * 256 + b2n g.run * 32 + g.count % 32))) ∧ (n = 16 → reads p.wchk) ∧
      (n = 17 → reads p.stage) ∧ (∀ k < 8, n = 0x20 + k → reads (p.rg.getD k 0)) ∧ (∀ k < 32, n = 0x40 + k → reads (p.snap.getD k 0)) ∧
      ∃ v, reads v)

/-- MTS: at task level only FMT, LC and ROTW may be written, any other traps as PRIV; a value that its register refuses traps as ILLEGAL; a
write of FMT, as one by SETFMT, lands four bundles on, any other takes effect at commit (R25, R26, R68, R163, R164). -/
def Obligations.WriteSpecial : Prop :=
  (∀ (o : OpSNgai) (s : State), Enabled (.mts o) s →
    let n := o.i.val
    let v := s.core.sreg o.a
    (s.core.sup = false ∧ n ≠ 2 ∧ n ≠ 3 ∧ n ≠ 5 → exec (.mts o) s = trapOut s .priv s.core.iss.slot n .trapIssue) ∧
    ((s.core.sup = true ∨ n = 2 ∨ n = 3 ∨ n = 5) → v.toNat &&& specReserved n ≠ 0 →
      exec (.mts o) s = trapOut s .illegal s.core.iss.slot n .trapIssue) ∧
    (mtsTrap s n v = none →
      exec (.mts o) s = .next (finish (if n = 2 then s.land 4 (.fmt v) else s.eff (.spec n v))))) ∧
  ∀ (o : OpSI) (s : State), Enabled (.setfmt o) s →
    exec (.setfmt o) s = .next (finish (s.land 4 (.fmt (BitVec.ofNat 64 o.i))))

/-- WAITC stalls while GTC is below sA and then has no effect (R158). TRAP and RETIRE take effect with the commit of their bundle, and so do
ERET and HALT where nothing holds them back; ERET at task level traps as PRIV (R159 to R162). -/
def Obligations.SystemOperations : Prop :=
  (∀ (o : OpSNga) (s : State), Enabled (.waitc o) s →
    exec (.waitc o) s = if s.hub.gtc < (s.core.sreg o.a).toNat then stallOut s (.waitc o) .stall else .next (finish s)) ∧
  (∀ (o : OpSNgi) (s : State), Enabled (.trap o) s → exec (.trap o) s = .next (finish (s.eff (.softTrap o.i)))) ∧
  ∀ (o : OpSNg) (s : State),
    (Enabled (.retire o) s → exec (.retire o) s = .next (finish (s.eff .retire))) ∧
    (Enabled (.halt o) s → (s.core.sup = false ∨ (s.core.flight = [] ∧ s.core.anyPending = false)) →
      exec (.halt o) s = .next (finish (s.eff .halt))) ∧
    (Enabled (.eret o) s → s.core.sup = false →
      exec (.eret o) s = trapOut s .priv s.core.iss.slot (slotWordOf (.eret o)) .trapIssue) ∧
    (Enabled (.eret o) s → eretTrap o s = none → eretWaits s = false → exec (.eret o) s = .next (finish (s.eff .eret)))

/-- A header governs its bundle: its RB, RE, VJ and TW bits are those of the bundle in issue, VJ joins the views once what it waits for is
done; RB inside a region, or RE outside one, is ILLEGAL with reason 8 (R86, R87, R118, R185). -/
def Obligations.Header : Prop :=
  ∀ (o : OpHeader) (s : State),
    let bad := (o.rb.val = 1 ∧ s.core.inreg = true) ∨ (o.re.val = 1 ∧ s.core.inreg = false ∧ o.rb.val = 0)
    let w := slotWordOf (.header o)
    let s' := s.onCore (fun t => t.onIss (fun i =>
      { i with rb := o.rb.val == 1, re := o.re.val == 1, vj := o.vj.val == 1, tw := o.tw.val == 1, hdr := w }))
    (bad → exec (.header o) s = trapOut s .illegal 15 (w + 8 * 2 ^ 32) .trapDecode) ∧
    (¬bad → Enabled (.header o) s → (o.vj.val = 0 ∨ joinWaits s = false) →
      exec (.header o) s = .next (finish (if o.vj.val = 1 then s'.join else s')))

/-! ## Loads, stores, atomics and fences -/

/-- A granted load of the S or V slot sends, at commit, a request of its size for its register, from sA plus its displacement: units of the
access size for a scalar one, of 128 bytes for a vector one (R92, R93, R172, R228, R229). -/
def Obligations.Loads : Prop :=
  ∀ (o : OpSNgdai) (v : OpVGdai) (b : OpVGdaif) (s : State) (d : Dest),
    let at' (k : Fin 64) (off : Word) : Nat := (s.core.sreg k + off).toNat
    let disp : Word := (BitVec.ofNat 8 o.i).signExtend 64
    let far (h : Fin 2) (e : Fin 256) (i : Fin 64) : Word :=
      (if h.val = 1 then (BitVec.ofNat 14 (64 * e.val + i.val)).signExtend 64 else (BitVec.ofNat 6 i).signExtend 64) * 128
    let req (k : ReqKind) (a size : Nat) : Req := { Req.empty k with va := a, size := size, cls := d.cls, tgt := d.tgt, place := d.place }
    let scalar (i : Instr) (size : Nat) (sx : Bool) : Prop :=
      let a := at' o.a (disp * BitVec.ofNat 64 size)
      Enabled i s → Granted s i a size (2 ^ size - 1) true false d →
        exec i s = .next (finish (s.eff (.load { req .ld a size with dst := physS s.core.spr.rotw o.d, sx := sx })))
    scalar (.ldBI o) 1 true ∧ scalar (.ldBN o) 1 false ∧ scalar (.ldHI o) 2 true ∧ scalar (.ldHN o) 2 false ∧
    scalar (.ldWI o) 4 true ∧ scalar (.ldWN o) 4 false ∧ scalar (.ldD o) 8 false ∧
    (let a := at' v.a (far v.h v.e v.i)
     Enabled (.vld v) s → Granted s (.vld v) a 128 (2 ^ 128 - 1) true false d →
       exec (.vld v) s = .next (finish (s.eff (.load { req .vld a 128 with dst := physV s.core.spr.rotw v.d })))) ∧
    (let a := at' b.a (far b.h b.e b.i)
     let size := 2 ^ b.f.val
     Enabled (.vldb b) s → Granted s (.vldb b) a size (2 ^ size - 1) true false d →
       exec (.vldb b) s = .next (finish (s.eff (.load { req .vldb a size with dst := physV s.core.spr.rotw b.d, pw := b.f }))))

/-- A granted store writes, at commit, the low bytes of its register, poisoned where the register holds poisoned data, VST.M only the byte
pairs that its mask enables; ST.G first compares them with the scalar twin latch, and a difference traps as TWIN with TVAL 0; so does, with
TVAL 1, a difference between the port's two address adders (R173, R174, R230). The model's choices: an upset of an adder acts at one
comparison, and is then gone (log 52); what a register holds of poisoned data, and that its store poisons (log 67). -/
def Obligations.Stores : Prop :=
  ∀ (o : OpSNgdai) (v : OpVGdai) (m : OpVGdaim) (s : State) (d : Dest),
    let req (a size data enb : Nat) (p : Bool) : Req :=
      { Req.empty .st with va := a, size := size, cls := d.cls, tgt := d.tgt, place := d.place, data := data, enb := enb, pois := p }
    let ps := decide (o.d.val ≠ 0) && s.core.regs.pois.contains (physS s.core.spr.rotw o.d)
    let pv (k : Fin 64) : Bool := s.core.regs.pois.contains (64 + physV s.core.spr.rotw k)
    let low (x : Word) (size : Nat) : Nat := x.toNat % 2 ^ (8 * size)
    let a (size : Nat) : Nat := (s.core.sreg o.a + (BitVec.ofNat 8 o.i).signExtend 64 * BitVec.ofNat 64 size).toNat
    let scalar (i : Instr) (size : Nat) : Prop :=
      Enabled i s → Granted s i (a size) size (2 ^ size - 1) false true d →
        exec i s = .next (finish (s.eff (.store (req (a size) size (low (s.core.sreg o.d) size) (2 ^ size - 1) ps))))
    let s' : State := { s with codes := { s.codes with flaws := s.codes.flaws.filter (· != .adder s.self) } }
    let checked (i : Instr) (size : Nat) : Prop :=
      Enabled i s → Granted s i (a size) size (2 ^ size - 1) false true d →
        exec i s = if low (s.core.sreg o.d) size ≠ low s.core.regs.twinS size then trapOut s' .twin s.core.iss.slot 0 .trapTwin
          else if Flaw.adder s.self ∈ s.codes.flaws then trapOut s' .twin s.core.iss.slot 1 .trapTwin
          else .next (finish (s.eff (.store (req (a size) size (low (s.core.sreg o.d) size) (2 ^ size - 1) ps))))
    scalar (.stB o) 1 ∧ scalar (.stH o) 2 ∧ scalar (.stW o) 4 ∧ scalar (.stD o) 8 ∧
    checked (.stGB o) 1 ∧ checked (.stGH o) 2 ∧ checked (.stGW o) 4 ∧ checked (.stGD o) 8 ∧
    (let a := vectorEa s v.a v.i v.h v.e
     Enabled (.vst v) s → Granted s (.vst v) a 128 (2 ^ 128 - 1) false true d →
       exec (.vst v) s = .next (finish (s.eff (.store (req a 128 (s.core.vreg v.d).toNat (2 ^ 128 - 1) (pv v.d)))))) ∧
    (let a := vectorEa s m.a m.i m.h m.e
     let enb := maskBytes (s.core.mask m.m)
     Enabled (.vstM m) s → Granted s (.vstM m) a 128 enb false true d →
       exec (.vstM m) s = .next (finish (s.eff (.store (req a 128 (s.core.vreg m.d).toNat enb (pv m.d))))))

/-- A granted atomic of a scratchpad or of classes 0 to 2, with an entry free and its release done, sends one request at commit; with a
scope it joins the views (R176 to R178). The statement lists each operation with its code. The poison that it takes from its operands is the
model's choice (R328; log 67). -/
def Obligations.Atomics : Prop :=
  ∀ (o : OpSSdabw) (s : State) (d : Dest),
    let t := s.core
    let size := if o.w.val = 0 then 4 else 8
    let a := (t.sreg o.a).toNat
    let pois (k : Fin 64) : Bool := decide (k.val ≠ 0) && t.regs.pois.contains (physS t.spr.rotw k)
    let ends (i : Instr) (code : Nat) (sx : Bool) : Prop :=
      Enabled i s → Granted s i a size (2 ^ size - 1) true true d → d.cls ≠ 3 → d.cls ≠ 4 →
      (t.reqs.filter (fun q => q.kind == .amo)).length < 8 → (o.s.val = 0 ∨ releaseWaits s.self t o.s = false) →
        exec i s = .next (finish ((if o.s.val = 0 then s else s.join).eff (.req
          { Req.empty .amo with
            va := a, size := size, cls := d.cls, tgt := d.tgt, place := d.place, dst := physS t.spr.rotw o.d, op := code, sco := o.s,
            sx := sx && o.w.val == 0, data := (t.sreg o.b).toNat % 2 ^ (8 * size), cmp := (t.sreg o.d).toNat % 2 ^ (8 * size),
            pois := pois o.b || (code == 9 && pois o.d) })))
    ends (.amoAdd o) 0 false ∧ ends (.amoMinI o) 1 true ∧ ends (.amoMinN o) 2 false ∧ ends (.amoMaxI o) 3 true ∧
    ends (.amoMaxN o) 4 false ∧ ends (.amoAnd o) 5 false ∧ ends (.amoOr o) 6 false ∧ ends (.amoXor o) 7 false ∧
    ends (.amoXchg o) 8 false ∧ ends (.amoCas o) 9 false

/-- The word that an atomic of a code writes, over words of 64 bits: sum, signed and natural minimum and maximum, and, or, xor, exchange,
and a compare that writes only where memory holds the compared value (R176). The barrier word update of R187: an arrival takes 1 from PA,
bytes go to PB; where both have just become 0 the phase flips and PA is INIT again; an arrival at PA = 0 is error 1; the object's reserved
bits are 0. -/
def Obligations.AtomicWords : Prop :=
  (∀ (m b c : BitVec 64),
      let r (code : Nat) : Option Nat := amoNew code 64 m.toNat b.toNat c.toNat
      r 0 = some (m + b).toNat ∧ r 1 = some (if b.slt m then b else m).toNat ∧ r 2 = some (if b < m then b else m).toNat ∧
      r 3 = some (if m.slt b then b else m).toNat ∧ r 4 = some (if m < b then b else m).toNat ∧ r 5 = some (m &&& b).toNat ∧
      r 6 = some (m ||| b).toNat ∧ r 7 = some (m ^^^ b).toNat ∧ r 8 = some b.toNat ∧ r 9 = (if m = c then some b.toNat else none)) ∧
  (∀ (pa pb ini : Nat) (ph arrive : Bool) (add : Int),
      pa < 65536 → ini < 65536 → pb < 2 ^ 47 → 0 ≤ (pb : Int) + add → (pb : Int) + add < 2 ^ 47 →
      let w0 := pa * 2 ^ 48 + pb
      let w1 := ini + b2n ph * 65536
      let pa' := if arrive then pa - 1 else pa
      let pb' := ((pb : Int) + add).toNat
      (arrive = true → pa = 0 → barApply w0 w1 add arrive 0 = (w0, w1 + 2 ^ 17 + 2 ^ 24)) ∧
      (arrive = false ∨ pa ≠ 0 → (pa', pb') ≠ (pa, pb) → pa' = 0 → pb' = 0 →
        barApply w0 w1 add arrive 0 = (ini * 2 ^ 48, ini + b2n (!ph) * 65536)) ∧
      (arrive = false ∨ pa ≠ 0 → (pa' ≠ 0 ∨ pb' ≠ 0) → barApply w0 w1 add arrive 0 = (pa' * 2 ^ 48 + pb', w1)))

/-- PREF asks for the line of a readable global address of classes 0 to 2 and has no effect on any other; FENCE, once its waits are over,
drops the L1 on the acquire side at every scope but tile and arr, at those two only the prefetches still outstanding, and joins the views on
the release side or at scope tile (R123, R175, R177, R179 to R185). The parties of the scopes: each wider scope holds those of the one
before it, and a release and an acquire synchronise where each core is within the other's scope, at stk and tier only at a home of their
class (R297, R300; that the machine's own steps perform a write for every agent at once is the model's choice, log 69). -/
def Obligations.PrefetchAndFence : Prop :=
  (∀ (o : OpSNgai) (s : State), Enabled (.pref o) s → s.core.scopedAmo = false →
    let a := scalarEa s o.a o.i 64
    (∀ d, checkRegion s a true false false = .ok d → d.cls < 3 →
      exec (.pref o) s = .next (finish (s.eff (.req
        { Req.empty .pref with va := a, size := 64, cls := d.cls, tgt := d.tgt, place := d.place / 64 * 64 })))) ∧
    ((∀ d, checkRegion s a true false false = .ok d → 3 ≤ d.cls) → exec (.pref o) s = .next (finish s))) ∧
  (∀ (t u cls : Nat) (a : Agent), t < 1024 → u < 1024 →
    (∀ p ∈ [(1, 2), (2, 3), (3, 4), (4, 5), (5, 8), (6, 8), (7, 8), (8, 9), (9, 10), (10, 11)],
      inScope t p.1 cls a = true → inScope t p.2 cls a = true) ∧
    (synchronise t 1 u 1 cls = decide (t = u) ∧ synchronise t 2 u 2 cls = decide (t / 16 = u / 16) ∧
      synchronise t 3 u 3 cls = decide (t / 64 = u / 64) ∧
      synchronise t 4 u 4 cls = decide (u / 64 = t / 64 ∨ u / 64 = (t / 64 + 1) % 16 ∨ t / 64 = (u / 64 + 1) % 16) ∧
      synchronise t 5 u 5 cls = true ∧ synchronise t 6 u 6 cls = decide (cls < 2) ∧ synchronise t 7 u 7 cls = decide (cls = 2) ∧
      ∀ k, 8 ≤ k → k ≤ 11 → synchronise t k u k cls = true) ∧
    ∀ j k, synchronise t j u k cls = synchronise u k t j cls) ∧
  ∀ (o : OpSNgks) (s : State), Enabled (.fence o) s →
    let acq := o.k.val ≠ 2
    let rel := o.k.val ≠ 1
    (rel → releaseWaits s.self s.core o.s = false) → (acq → acquireWaits s.core = false) →
      exec (.fence o) s = .next (finish
        (let s1 := if acq ∧ o.s.val ≠ 1 ∧ o.s.val ≠ 12 then s.onCore Tile.dropL1 else if acq then s.onCore Tile.dropPrefs else s
         if rel ∨ o.s.val = 1 then s1.join else s1))

/-! ## Vectors -/

/-- The lanes of the float arithmetic: the exact result rounded once under FMT; sums, products and fused forms land four bundles on, the
choices, absolute value and sign change two (R205 to R207), the transcendental forms eight (R215). Disabled lanes of the lane guard keep
their old bytes. -/
def Obligations.VectorFloat : Prop :=
  (∀ (o : OpVGdabf) (p : OpVGdaf) (s : State),
      let fmt := s.core.spr.fmt
      let x (n : Nat) (j : Nat) : FVal := s.core.flane (fltW o.f) n j
      let c : Nat := opC o.h o.e o.d
      let y (j : Nat) : FVal := s.core.flane (fltW p.f) p.a j
      let lands (i : Instr) (k d f : Nat) (r : Nat → FVal) : Prop := Enabled i s →
        exec i s = .next (finish (s.landV k d (pairsOf (fltW f) ((guardOf i).mask s.core))
          (ofLanes (fltW f) (fun j => roundW (fltW f) (rmOf fmt) (satOf fmt) (r j)))))
      lands (.vadd o) 4 o.d o.f (fun j => fadd (x o.a j) (x o.b j)) ∧ lands (.vsub o) 4 o.d o.f (fun j => fsub (x o.a j) (x o.b j)) ∧
      lands (.vmul o) 4 o.d o.f (fun j => fmul (x o.a j) (x o.b j)) ∧
      lands (.vfma o) 4 o.d o.f (fun j => ffma false false (x o.a j) (x o.b j) (x c j)) ∧
      lands (.vfms o) 4 o.d o.f (fun j => ffma false true (x o.a j) (x o.b j) (x c j)) ∧
      lands (.vfnma o) 4 o.d o.f (fun j => ffma true false (x o.a j) (x o.b j) (x c j)) ∧
      lands (.vmax o) 2 o.d o.f (fun j => fmax (x o.a j) (x o.b j)) ∧ lands (.vmin o) 2 o.d o.f (fun j => fmin (x o.a j) (x o.b j)) ∧
      lands (.vclamp o) 2 o.d o.f (fun j => fmin (fmax (x o.a j) (x o.b j)) (x c j)) ∧
      lands (.vabs p) 2 p.d p.f (fun j => fabs (y j)) ∧ lands (.vneg p) 2 p.d p.f (fun j => fneg (y j))) ∧
  (∀ (p : OpVGdaf) (s : State),
      let fmt := s.core.spr.fmt
      let w := fltW p.f
      let lands (i : Instr) (f : FVal → FVal) : Prop := Enabled i s →
        exec i s = .next (finish (s.landV 8 p.d (pairsOf w ((guardOf i).mask s.core))
          (ofLanes w (fun j => roundW w (rmOf fmt) (satOf fmt) (f (s.core.flane w p.a j))))))
      lands (.vexp2 p) fexp2 ∧ lands (.vlog2 p) flog2 ∧ lands (.vrcp p) frcp ∧ lands (.vrsq p) frsq ∧ lands (.vtanh p) ftanh)

/-- The reductions put the root of the pairwise tree over the enabled lanes, the identity in the others, into every lane of the destination
six bundles on, whatever the lane guard (R80, R216). -/
def Obligations.VectorReductions : Prop :=
  ∀ (p : OpVGdaf) (s : State),
    let fmt := s.core.spr.fmt
    let w := fltW p.f
    let lands (i : Instr) (op : FVal → FVal → FVal) (ident : FVal) : Prop := Enabled i s →
      exec i s = .next (finish (s.landV 6 p.d (BitVec.allOnes 64)
        (ofLanes w (fun _ => roundW w (rmOf fmt) (satOf fmt) (rootNan (laneTree w op (guardedLanes s.core i w p.a ident)))))))
    lands (.vrsum p) (treeAdd fmt) (.fin true 0 0) ∧ lands (.vrmax p) fmax (.inf true) ∧ lands (.vrmin p) fmin (.inf false)

/-- The integer lanes: sums and differences wrap, or saturate as signed under MOD 1, as natural under MOD 2; products, logic, shifts by the
lane width's remainder, and the signed or natural choices (R210). -/
def Obligations.VectorInteger : Prop :=
  ∀ (o : OpVGdabf2) (p : OpVGdabf) (s : State),
    let w := intW o.f
    let a (j : Nat) : Nat := lane (s.core.vreg o.a) j w
    let b (j : Nat) : Nat := lane (s.core.vreg o.b) j w
    let u := intW p.f
    let c (j : Nat) : Nat := lane (s.core.vreg p.a) j u
    let e (j : Nat) : Nat := lane (s.core.vreg p.b) j u
    let less (x y : Nat) : Bool := if 4 ≤ p.f.val then decide (x < y) else decide (sext x u < sext y u)
    let lands (i : Instr) (k d w : Nat) (r : Nat → Nat) : Prop := Enabled i s →
      exec i s = .next (finish (s.landV k d (pairsOf w ((guardOf i).mask s.core)) (ofLanes w r)))
    let sat (x y z : Int) : Nat :=
      wrap w (if extMod o.e = 1 then max (-(2 ^ (w - 1))) (min (2 ^ (w - 1) - 1) x) else if extMod o.e = 2 then max 0 (min (2 ^ w - 1) y) else z)
    lands (.vaddI o) 2 o.d w (fun j => sat (sext (a j) w + sext (b j) w) (a j + b j) (a j + b j)) ∧
    lands (.vsubI o) 2 o.d w (fun j => sat (sext (a j) w - sext (b j) w) (a j - b j) (a j - b j)) ∧
    lands (.vmulI o) 4 o.d w (fun j => a j * b j) ∧ lands (.vand o) 2 o.d w (fun j => a j &&& b j) ∧
    lands (.vor o) 2 o.d w (fun j => a j ||| b j) ∧ lands (.vxor o) 2 o.d w (fun j => a j ^^^ b j) ∧
    lands (.vshl o) 2 o.d w (fun j => a j * 2 ^ (b j % w)) ∧ lands (.vshr o) 2 o.d w (fun j => a j / 2 ^ (b j % w)) ∧
    lands (.vsra o) 2 o.d w (fun j => wrap w (sext (a j) w / 2 ^ (b j % w))) ∧
    lands (.vminInt p) 2 p.d u (fun j => if less (e j) (c j) then e j else c j) ∧
    lands (.vmaxInt p) 2 p.d u (fun j => if less (c j) (e j) then e j else c j)

/-- Comparisons write the mask bits of their enabled lanes two bundles on; VSEL takes A where the mask selects the lane, else B; VMOV, VLI,
XS2V fill the enabled lanes, and XM2Q tells whether any bit of the mask within the lane count is set (R208, R209, R232, R233). -/
def Obligations.VectorSelect : Prop :=
  ∀ (o : OpVGcmabf) (l : OpVGdabm) (p : OpVGdaf2) (v : OpVGdwi) (s : State),
    let mask (i : Instr) : Word := (guardOf i).mask s.core
    (Enabled (.vcmp o) s → exec (.vcmp o) s = .next (finish (s.landM 2 o.m (maskEnable (fltW o.f) (mask (.vcmp o)))
      (maskValue (fltW o.f) (fun j => fCond o.c (s.core.flane (fltW o.f) o.a j) (s.core.flane (fltW o.f) o.b j)))))) ∧
    (Enabled (.vcmpI o) s → exec (.vcmpI o) s = .next (finish (s.landM 2 o.m (maskEnable (intW o.f) (mask (.vcmpI o)))
      (maskValue (intW o.f) (fun j =>
        iCond o.c (decide (4 ≤ o.f.val)) (intW o.f) (lane (s.core.vreg o.a) j (intW o.f)) (lane (s.core.vreg o.b) j (intW o.f))))))) ∧
    (let w := selW (extMod l.e)
     Enabled (.vsel l) s → exec (.vsel l) s = .next (finish (s.landV 2 l.d (pairsOf w (mask (.vsel l)))
       (ofLanes w (fun j => lane (s.core.vreg (if laneOn w (s.core.mask l.m) j then l.a else l.b)) j w))))) ∧
    (Enabled (.vmov p) s → exec (.vmov p) s = .next (finish (s.landV 1 p.d (pairsOf (intW p.f) (mask (.vmov p))) (s.core.vreg p.a)))) ∧
    (Enabled (.vli v) s → exec (.vli v) s = .next (finish (s.landV 1 v.d (pairsOf (intW v.w) (mask (.vli v)))
      (ofLanes (intW v.w) (fun _ => wrap (intW v.w)
        (if v.h.val = 1 then (BitVec.ofNat 21 (8192 * v.e.val + v.i.val)).toInt else (BitVec.ofNat 13 v.i).toInt)))))) ∧
    (Enabled (.xs2v p) s → exec (.xs2v p) s = .next (finish (s.landV 3 p.d (pairsOf (intW p.f) (mask (.xs2v p)))
      (ofLanes (intW p.f) (fun _ => (s.core.sreg p.a).toNat))))) ∧
    (Enabled (.xm2q p) s → exec (.xm2q p) s = .next (finish (s.land 2 (.pred (physQ s.core.spr.rotw p.d)
      (decide ((s.core.mask p.a).toNat % 2 ^ (Nat.min 64 (1024 / intW p.f)) ≠ 0))))))

/-- The permutes of R217 to R219: VPERM by the lanes of B, 0 for an index beyond the last; VZIP and VUZP by halves; VROT and VBCST by their
constant; VTRN transposes eight 8 x 8 blocks of 16-bit lanes across an octet of registers, four bundles on. -/
def Obligations.VectorPermutes : Prop :=
  ∀ (o : OpVGdabf2) (u : OpVGdauf) (t : OpVGda) (s : State),
    let w := intW o.f
    let n := 1024 / w
    let a (j : Nat) : Nat := lane (s.core.vreg o.a) j w
    let b (j : Nat) : Nat := lane (s.core.vreg o.b) j w
    let p := extMod o.e % 2
    let x := intW u.f
    let c (j : Nat) : Nat := lane (s.core.vreg u.a) j x
    let by' := extMod u.e * 64 + u.u.val
    let lands (i : Instr) (d w : Nat) (r : Nat → Nat) : Prop := Enabled i s →
      exec i s = .next (finish (s.landV 2 d (pairsOf w ((guardOf i).mask s.core)) (ofLanes w r)))
    lands (.vperm o) o.d w (fun j => if b j < n then a (b j) else 0) ∧
    lands (.vzip o) o.d w (fun j => if j % 2 = 0 then a (j / 2 + p * (n / 2)) else b (j / 2 + p * (n / 2))) ∧
    lands (.vuzp o) o.d w (fun j => if 2 * j + p < n then a (2 * j + p) else b (2 * j + p - n)) ∧
    lands (.vrot u) u.d x (fun j => c ((j + by') % (1024 / x))) ∧ lands (.vbcst u) u.d x (fun _ => c by') ∧
    (Enabled (.vtrn t) s → exec (.vtrn t) s = .next (finish (s.land 4 (.octet
      ((List.range 8).map (fun r => physV s.core.spr.rotw (t.d + r)))
      ((List.range 8).map (fun r => ofLanes 16 (fun j => lane (s.core.vreg (t.a + j % 8)) (j / 8 * 8 + r) 16)))))))

/-- Conversions land three bundles on, and the stochastic ones take one entry of the random-bit queue with the commit, or trap as ILLEGAL
where it is empty and RUN is 0: VCVT and VCVT.SR element by element, between the lanes of the part (R211, R212); VUNPK.MX by code and scale
(R214); VPACK.MX with each block's scale and codes in their places (R213). VPPROB puts the pulse codes into bytes 0 to 63 and the signs into
the next 64 bits; VQ8 puts the scaled, saturated codes of part p into the bytes of that part, both four bundles on (R226, R227). -/
def Obligations.VectorConversions : Prop :=
  ∀ (o : OpVGdastf) (r : OpVGdast) (p : OpVGdaf) (m : OpVGdabf) (q : OpVGdab) (s : State),
    let t := s.core
    let rm := rmOf t.spr.fmt
    let sat := satOf t.spr.fmt
    let head := rngEntry t.rng.seed.toNat (t.rng.gen - t.rng.count)
    let field (n e : Nat) : Rm :=
      let w := if n ≤ 64 then 16 else if n ≤ 128 then 8 else 4
      .sr w (bits head.toNat (w * e) w)
    let wide (c : Nat) : Nat := match c with | 0 => 16 | 1 => 32 | 2 => 8 | 3 => 16 | 4 => 32 | 5 => 8 | 6 => 16 | _ => 32
    let elem (mode : Rm) (f d x : Nat) : Nat :=
      let v : Int := if 2 ≤ f ∧ f ≤ 4 then sext x (wide f) else x
      if f < 2 then
        (if d < 2 then roundW (wide d) mode sat (fvalW (wide f) x) else wrap (wide d) (toInt mode (decide (d ≤ 4)) (wide d) (fvalW (wide f) x)))
      else if d < 2 then roundW (wide d) mode sat (ofInt v)
      else wrap (wide d) (if d ≤ 4 then max (-(2 ^ (wide d - 1))) (min (2 ^ (wide d - 1) - 1) v) else max 0 (min (2 ^ wide d - 1) v))
    let cvt (a f d k : Nat) (mode : Nat → Rm) : VWord :=
      let n := 1024 / Nat.max (wide f) (wide d)
      if wide d ≤ wide f then ofLanes (wide d) (fun j => if k * n ≤ j ∧ j < k * n + n
        then elem (mode (j - k * n)) f d (lane (t.vreg a) (j - k * n) (wide f)) else 0)
      else ofLanes (wide d) (fun j => elem (mode j) f d (lane (t.vreg a) (k * n + j) (wide f)))
    let takes (i : Instr) : Prop :=
      Enabled i s → t.rng.count = 0 → t.rng.run = false → exec i s = trapOut s .illegal t.iss.slot (slotWordOf i) .trapIssue
    (Enabled (.vcvt o) s → exec (.vcvt o) s = .next (finish (s.landV 3 o.d (cvtEnable (.vcvt o) t o.s o.t (extMod o.e))
      (cvt o.a o.s o.t (extMod o.e) (fun _ => if o.f.val = 1 then .rne else if o.f.val = 2 then .rtz else rm))))) ∧
    (Enabled (.vcvtSr r) s → 0 < t.rng.count → exec (.vcvtSr r) s = .next (finish
      (s.landV 3 r.d (cvtEnable (.vcvtSr r) t r.s r.t (extMod r.e)) (cvt r.a r.s r.t (extMod r.e)
        (field (1024 / Nat.max (wide r.s) (wide r.t))))).pop)) ∧
    takes (.vcvtSr r) ∧
    (let k := mxBits (p.f.val % 4)
     let w := if 4 ≤ p.f.val then 32 else 16
     let n (j : Nat) : Nat := (if 4 ≤ p.f.val then 32 * extMod p.e else 0) + j
     let value (c e : Nat) : FVal := if e = 255 then FVal.dnan else .fin (decide (sext c k < 0)) (sext c k).natAbs ((e : Int) - 127 - (k - 2))
     Enabled (.vunpkMx p) s → exec (.vunpkMx p) s = .next (finish (s.landV 3 p.d (BitVec.allOnes 64) (ofLanes w (fun j =>
       roundW w rm sat (value (lane (t.vreg p.a) (n j) k) (lane (t.vreg p.a) (126 + n j / 32) 8))))))) ∧
    (let k := mxBits (m.f.val % 4)
     let one := decide (4 ≤ m.f.val)
     let sr := decide (2 ≤ extMod m.e)
     let block (j : Nat) : Nat × List Nat := mxBlock k ((List.range 32).map (fun i => t.flane (if one then 32 else 16) m.a (32 * j + i)))
       (if extMod m.e % 2 = 1 then some (lane (t.vreg m.b) (126 + j) 8) else none)
       (fun i => if sr then field (if one then 32 else 64) (32 * j + i) else rm)
     let b0 := block 0
     let b1 : Nat × List Nat := if one then (0, List.replicate 32 0) else block 1
     let v := packFields k (fun i => (b0.2 ++ b1.2).getD i 0) 64 + b0.1 * 2 ^ 1008 + b1.1 * 2 ^ 1016
     (Enabled (.vpackMx m) s → (sr = true → 0 < t.rng.count) → exec (.vpackMx m) s = .next (finish
       (let s' := s.landV 3 m.d (BitVec.allOnes 64) (BitVec.ofNat 1024 v); if sr then s'.pop else s'))) ∧
     (sr = true → takes (.vpackMx m))) ∧
    (let code (j : Nat) : Nat × Bool := pulseCode (if extMod q.e = 0 then field 64 j else .rne) (t.flane 16 q.a j) (t.flane 32 q.b 0)
     (Enabled (.vpprob q) s → (extMod q.e = 0 → 0 < t.rng.count) → exec (.vpprob q) s = .next (finish
       (let s' := s.landV 4 q.d (BitVec.allOnes 64) (BitVec.ofNat 1024
          (packFields 8 (fun j => (code j).1) 64 + packFields 1 (fun j => b2n (code j).2) 64 * 2 ^ 512))
        if extMod q.e = 0 then s'.pop else s'))) ∧
     (extMod q.e = 0 → takes (.vpprob q))) ∧
    (let w := fltW m.f
     let n := 1024 / w
     let k := extMod m.e
     Enabled (.vq8 m) s → exec (.vq8 m) s = .next (finish (s.landV 4 m.d (BitVec.ofNat 64 (enPart (if m.f.val = 0 then 512 else 256) k))
       (ofLanes 8 (fun j => if k * n ≤ j ∧ j < k * n + n
         then wrap 8 (toInt rm true 8 (fmul (t.flane w m.a (j - k * n)) (t.flane 32 m.b 0))) else 0)))))

/-- The statistics buffer: VSTAT.W writes one entry or, as a block at supervisor level, eight; VSTAT.R reads them four bundles on; VMOM
updates its entry at once unless no lane is enabled, by the moments or the log-sum procedure of R222; VNORM and VSMAX land eight bundles on,
VNORM as the default NaN in every lane where the entry counts nothing. An entry beyond the buffer traps as ILLEGAL (R220 to R223). The
model's choices: the rounding of the exp2 and log2 steps (log 22), ILLEGAL before PRIV for a block beyond the buffer at task level (log 54),
and the merge with an entry that counts nothing (log 70). -/
def Obligations.Statistics : Prop :=
  ∀ (o : OpVGab) (r : OpVGdb) (m : OpVGabf) (n : OpVGdabf) (s : State),
    let t := s.core
    let fmt := t.spr.fmt
    let e (k : Fin 64) : Nat := lane (t.vreg k) 0 32
    let old (k : Fin 64) (i : Nat) : Nat := bits (t.stat (e k)) (32 * i) 32
    let code (v : FVal) : Nat := roundF (rmOf fmt) (satOf fmt) v
    let rf (v : FVal) : FVal := fval (code v)
    let w := fltW n.f
    let en (i : Instr) : Word := pairsOf w ((guardOf i).mask t)
    let words (a b c d : Nat) : Nat := a + b * 2 ^ 32 + c * 2 ^ 64 + d * 2 ^ 96
    let u := fltW m.f
    let lanes := (List.range (1024 / u)).map (fun j => (t.flane u m.a j, laneOn u ((guardOf (.vmom m)).mask t) j))
    let tree (op : FVal → FVal → FVal) (rest : FVal) (f : FVal → FVal) : FVal := laneTree u op (lanes.map (fun x => if x.2 then f x.1 else rest))
    let sum := tree (treeAdd fmt) (.fin true 0 0)
    let w0 := fval (old m.b 0)
    let w1 := fval (old m.b 1)
    let w2 := fval (old m.b 2)
    let moments : Nat :=
      let nb := ofInt (lanes.filter (·.2)).length
      let mb := rf (fdiv (sum id) nb)
      let q := sum (fun x => rf (fmul (rf (fsub x mb)) (rf (fsub x mb))))
      let n1 := rf (fadd w0 nb)
      let d := rf (fsub mb w1)
      if lanes.any (fun x => x.2 && x.1.notFinite) then words (code n1) 0x7FC00000 0x7FC00000 (old m.b 3)
      else words (code n1) (code (fadd w1 (rf (fmul d (rf (fdiv nb n1))))))
        (code (fadd (rf (fadd w2 q)) (rf (fmul (rf (fmul d d)) (rf (fdiv (fmul w0 nb) n1)))))) (old m.b 3)
    let logSum : Nat :=
      let x := tree fmax (.inf true) id
      let mn := if w1.isZero then x else fmax w0 x
      let s0 := if w1.isZero then .fin false 0 0 else rf (fmul w1 (rf (fexp2 (rf (fsub w0 mn)))))
      let s1 := rf (fadd s0 (sum (fun x => rf (fexp2 (rf (fsub x mn))))))
      if lanes.any (fun x => x.2 && x.1.isNan) then words 0x7FC00000 0x7FC00000 (old m.b 2) 0x7FC00000
      else if x = .inf true then t.stat (e m.b)
      else words (code mn) (code s1) (old m.b 2) (code (fadd mn (rf (flog2 s1))))
    let fits (k : Fin 64) (blk : Bool) : Prop := e k < 4096 ∧ (blk = true → e k % 8 = 0 ∧ t.sup = true)
    let beyond (i : Instr) (k : Fin 64) : Prop :=
      Enabled i s → 4096 ≤ e k → exec i s = trapOut s .illegal t.iss.slot (slotWordOf i) .trapIssue
    (Enabled (.vstatW o) s → fits o.b (extMod o.e == 1) →
      exec (.vstatW o) s = .next (finish (s.onCore (fun t =>
        (List.range (if extMod o.e = 1 then 8 else 1)).foldl (fun t k => t.setStat (e o.b + k) (lane (s.core.vreg o.a) k 128)) t)))) ∧
    (Enabled (.vstatR r) s → fits r.b (extMod r.e == 1) →
      exec (.vstatR r) s = .next (finish (s.landV 4 r.d (BitVec.allOnes 64)
        (ofLanes 128 (fun k => if extMod r.e = 1 ∨ k = 0 then t.stat (e r.b + k) else 0))))) ∧
    (Enabled (.vmom m) s → fits m.b false →
      exec (.vmom m) s = .next (finish (if lanes.all (fun x => !x.2) then s else s.onCore (fun t => t.setStat (e m.b)
        (if extMod m.e = 0 then moments else logSum))))) ∧
    (let y (j : Nat) : FVal :=
       if old n.b 0 % 2 ^ 31 = 0 then FVal.dnan
       else fmul (rf (fsub (t.flane w n.a j) (fval (old n.b 1)))) (rf (frsq (rf (fadd (rf (fdiv (fval (old n.b 2)) (fval (old n.b 0)))) (fval (old n.b 3))))))
     Enabled (.vnorm n) s → fits n.b false → exec (.vnorm n) s = .next (finish (s.landV 8 n.d (en (.vnorm n))
       (ofLanes w (fun j => roundW w (rmOf fmt) (satOf fmt) (y j)))))) ∧
    (Enabled (.vsmax n) s → fits n.b false → exec (.vsmax n) s = .next (finish (s.landV 8 n.d (en (.vsmax n))
       (ofLanes w (fun j => roundW w (rmOf fmt) (satOf fmt) (fexp2 (rf (fsub (t.flane w n.a j) (fval (old n.b 3))))))))) ) ∧
    beyond (.vstatW o) o.b ∧ beyond (.vstatR r) r.b ∧ beyond (.vmom m) m.b ∧ beyond (.vnorm n) n.b ∧ beyond (.vsmax n) n.b

/-- BFP24: VBFACC adds its operand's values into a block by the procedure of R76 and puts it into the register pair six bundles on; VBFEXP
expands the elements of a block, exactly as FP32 or rounded as BF16, the default NaN for a NaN block, four bundles on; a block whose words 1
to 63 have nonzero upper bytes traps as ILLEGAL (R74 to R77, R224, R225). -/
def Obligations.BlockFloat : Prop :=
  ∀ (o : OpVGdaf) (s : State),
    let t := s.core
    let mode : Rm := if fld t.spr.fmt 16 1 = 1 then .rtz else .rne
    let words (n : Fin 64) : List Nat := (List.range 64).map (fun j => lane (t.vreg (n + j / 32)) (j % 32) 32)
    let bad (ws : List Nat) : Prop := ∃ j, 1 ≤ j ∧ j < 64 ∧ bits (ws.getD j 0) 24 8 ≠ 0
    let acc := words o.d
    let src := words o.a
    let x := bits (acc.getD 0 0) 24 8
    let vs : List FVal :=
      if o.f.val = 0 then (List.range 64).map (fun j => t.flane 16 o.a j)
      else (List.range 64).map (fun j => if j / 32 = extMod o.e then t.flane 32 o.a (j % 32) else .fin false 0 0)
    let ask (v : FVal) : Int := match v with | .fin _ m e => (Nat.log2 m : Int) + e + 128 | _ => 0
    let need : Int := vs.foldl (fun n v => if v.isZero then n else max n (ask v)) x
    let part (j : Nat) : Int :=
      let m := sext (acc.getD j 0) 24
      rint mode (.fin (decide (m < 0)) m.natAbs (x - need)) +
        rint mode (match vs.getD j (.fin false 0 0) with | .fin s m e => .fin s m (e + (149 - need)) | v => v)
    let big := (List.range 64).any (fun j => decide (part j < -(2 ^ 23)) || decide (2 ^ 23 - 1 < part j))
    let mant (j : Nat) : Int := if big then rint mode (.fin (decide (part j < 0)) (part j).natAbs (-1)) else part j
    let top : Int := if big then need + 1 else need
    let sum (j : Nat) : Nat :=
      if 0xFE ≤ x ∨ vs.any FVal.notFinite ∨ 253 < top then (if j = 0 then 0xFF000000 else 0)
      else wrap 24 (mant j) + (if j = 0 then top.toNat * 2 ^ 24 else 0)
    let y := bits (src.getD 0 0) 24 8
    let first := if o.f.val = 0 then 0 else 32 * extMod o.e
    let elem (j : Nat) : FVal :=
      let m := sext (src.getD (first + j) 0) 24
      if 0xFE ≤ y then FVal.dnan else .fin (decide (m < 0)) m.natAbs (y - 149)
    (Enabled (.vbfacc o) s → ¬bad acc →
      exec (.vbfacc o) s = .next (finish (s.land 6 (.pair (physV t.spr.rotw o.d) (physV t.spr.rotw (o.d + 1))
        (ofLanes 32 sum) (ofLanes 32 (fun j => sum (32 + j))))))) ∧
    (Enabled (.vbfacc o) s → bad acc → exec (.vbfacc o) s = trapOut s .illegal t.iss.slot (slotWordOf (.vbfacc o)) .trapIssue) ∧
    (Enabled (.vbfexp o) s → ¬bad src →
      exec (.vbfexp o) s = .next (finish (s.landV 4 o.d (BitVec.allOnes 64)
        (ofLanes (fltW o.f) (fun j => roundW (fltW o.f) (rmOf t.spr.fmt) (satOf t.spr.fmt) (elem j)))))) ∧
    (Enabled (.vbfexp o) s → bad src → exec (.vbfexp o) s = trapOut s .illegal t.iss.slot (slotWordOf (.vbfexp o)) .trapIssue)

/-! ## Facets -/

/-- A facet command whose checks pass (R236) is pushed to the facet's queue once it holds fewer than four and no atomic is in the way; the
command carries the operands as read at issue. The statement lists each instruction with its opcode, its variant and its scratchpad operands
(R235 to R260). -/
def Obligations.FacetPushes : Prop :=
  ∀ (m : OpTNgfkab) (u : OpTNgfab) (o : OpTNgfa) (f : OpTNgf) (n : OpTNgfrsv) (s : State),
    let v (k : Fin 64) : Nat := (s.core.sreg k).toNat
    let ends (i : Instr) (x : FacetUse) (op k et a b : Nat) : Prop :=
      Enabled i s → facetTrap s i x = none → facetWaits s.core x.f = false →
        exec i s = .next (finish (s.onCore (fun t => t.pushFacet x op k et a b)))
    let product (i : Instr) (op : Nat) : Prop :=
      ends i { f := m.f, bad := v m.a % 64 != 0, rs := [(v m.a, 1024, false)] } op m.k 0 (v m.a) (v m.b)
    let update (i : Instr) (k : Nat) : Prop :=
      ends i { f := u.f, bad := v u.a % 128 != 0 || v u.b % 128 != 0, rs := [(v u.a, 2048, false), (v u.b, 2048, false)] }
        3 k u.e (v u.a) (v u.b)
    let column (i : Instr) (op k : Nat) (noErr : Bool) : Prop :=
      ends i { f := o.f, bad := decide (1024 ≤ v o.a), noErr := noErr } op k o.e (v o.a) 0
    let image (i : Instr) (op k size al : Nat) (wr : Bool) : Prop :=
      ends i { f := o.f, bad := v o.a % al != 0, rs := [(v o.a, size, wr)] } op k 0 (v o.a) 0
    product (.xmvm m) 1 ∧ product (.xmvt m) 2 ∧ update (.xupdA u) 0 ∧ update (.xupdC u) 1 ∧
    ends (.xupdD u)
      { f := u.f, bad := bits (v u.b) 52 12 != 0 || v u.a % 128 != 0 || bits (v u.b) 0 22 % 128 != 0 || bits (v u.b) 22 22 % 64 != 0,
        rs := [(v u.a, 2048, false), (bits (v u.b) 0 22, 2048, false), (bits (v u.b) 22 22, 4096, true)] } 4 0 u.e (v u.a) (v u.b) ∧
    column (.xfer o) 5 0 true ∧ column (.xferR o) 5 1 true ∧ column (.xrst o) 6 0 false ∧
    ends (.xrstAll f) { f := f.f, noErr := false } 6 1 0 0 0 ∧ ends (.xsymCal f) { f := f.f, noErr := false } 7 0 0 0 0 ∧
    image (.xsymLd o) 8 0 2048 64 false ∧ image (.xsymSt o) 9 0 2048 64 true ∧ image (.xcfgW o) 11 0 32 32 false ∧
    image (.xcfgR o) 11 1 32 32 true ∧ image (.xcfgWa o) 11 2 4096 64 false ∧ image (.xcfgRa o) 11 3 4096 64 true ∧
    image (.xcfgWc o) 11 4 4096 64 false ∧ image (.xcfgRc o) 11 5 4096 64 true ∧
    ends (.xmodeR f) { f := f.f } 12 1 0 0 0 ∧ ends (.xmodeN n) { f := n.f } 12 (if n.rsv.val = 0 then 0 else n.rsv.val + 1) 0 0 0

/-- XGET and XSTAT.pc push their command and send a request that makes their destination pending; XSTAT delivers the status word as it
stands at the commit, even of a facet that is not ready or in error; XWAIT waits while the facet is busy, then has no effect (R249 to R251).
The checks of a facet instruction in their order: an operand that it refuses traps as ILLEGAL; a facet that the task does not own, one that
is not ready and one in error trap as FACET with TVAL f, f + 256 and f + 512 (R236, R240). The model's choices: XSTAT.pc on a facet that is
not ready (log 51), and XWAIT, which tests for an error once the facet is idle (log 57). -/
def Obligations.FacetReads : Prop :=
  (∀ (o : OpTNgfkb) (p : OpTNgfb) (w : OpTNgf) (s : State),
      let t := s.core
      let get (i : Instr) (x : FacetUse) (op k dst : Nat) : Prop :=
        Enabled i s → facetTrap s i x = none → facetWaits t x.f = false →
          exec i s = .next (finish ((s.onCore (fun t => t.pushFacet x op k 0 0 0)).eff (.req
            { Req.empty .xget with op := op, dst := dst, sco := x.f, seq := t.stamp })))
      let open' : FacetUse := { f := p.f, ready := false, noErr := false }
      get (.xget o) { f := o.f } 10 o.k (physV t.spr.rotw o.b) ∧ get (.xstatPc p) open' 13 1 (physS t.spr.rotw p.b) ∧
      (Enabled (.xstat p) s → facetTrap s (.xstat p) open' = none →
        exec (.xstat p) s = .next (finish (s.eff (.req
          { Req.empty .xstat with st := .done, op := 13, dst := physS t.spr.rotw p.b, sco := p.f, size := 8, data := (t.facet p.f).status })))) ∧
      (Enabled (.xwait w) s → (t.facet w.f).busy = false → facetTrap s (.xwait w) { f := w.f } = none →
        exec (.xwait w) s = .next (finish s)) ∧
      (Enabled (.xwait w) s → (t.facet w.f).busy = true → facetTrap s (.xwait w) { f := w.f, noErr := false } = none →
        exec (.xwait w) s = stallOut s (.xwait w) .stall)) ∧
  (∀ (s : State) (i : Instr) (x : FacetUse),
      let own := bit s.core.spr.taskid.toNat (32 + x.f)
      let y := s.core.facet x.f
      (x.bad = true → facetTrap s i x = some (.illegal, slotWordOf i)) ∧
      (x.bad = false → own = false → facetTrap s i x = some (.facet, x.f)) ∧
      (x.bad = false → own = true → x.ready = true → y.ready = false → facetTrap s i x = some (.facet, x.f + 256)) ∧
      (x.bad = false → own = true → (x.ready = false ∨ y.ready = true) → x.noErr = true → y.err = true →
        facetTrap s i x = some (.facet, x.f + 512)))

/-! ## The matrix unit -/

/-- MXLD and MXLD.r, once an entry of the tensor command queue is free, arm their buffer at the commit and push their command; MXLD arms its
own buffer only where MCAST is 0 or names the tile itself (R105, R261 to R265). -/
def Obligations.OperandLoads : Prop :=
  ∀ (o : OpTNgdabf) (r : OpTNgdb) (s : State),
    let a := (s.core.sreg o.a).toNat
    let b := (s.core.sreg o.b).toNat
    let c := (s.core.sreg r.b).toNat
    (Enabled (.mxld o) s → mxldTrap s (.mxld o) a b o.f = none → pushWaits s.core = false → s.core.checking = false →
      exec (.mxld o) s = .next (finish (s.onCore (fun t =>
        let t' := if b % 65536 = 0 ∨ bit (b % 65536) (s.self % 16) then t.arm o.d o.f false a b else t
        t'.push (t'.entry (slotWordOf (.mxld o)) 0 a b 0) [] 8)))) ∧
    (Enabled (.mxldR r) s → c < 16 → pushWaits s.core = false →
      exec (.mxldR r) s = .next (finish (s.onCore (fun t =>
        (t.arm r.d 0 true c c).push ((t.arm r.d 0 true c c).entry (slotWordOf (.mxldR r)) 1 0 c 0) [] 8)))) ∧
    (Enabled (.mxldR r) s → 16 ≤ c →
      exec (.mxldR r) s = trapOut s .illegal s.core.iss.slot (slotWordOf (.mxldR r)) .trapIssue)

/-- An MMA-class operation without a cause, its buffers FULL and the unit free, updates its accumulator in unit order at once and lands it
at its format's latency, and keeps the unit busy for its groups' initiation intervals: 12, 14, 13 and 12 bundles, and 2, 4, 3 and 2 cycles a
group, for BF16, MXINT8, MXINT6 and MXINT4. MMAG's group g covers the next n_g rows with buffer OB + g. An element of a row that no group
covers keeps its value; a covered one of BF16 adds three rounded exact sums of sixteen products each, one after another, where a NaN or an
invalid product or infinities of both signs make the default NaN; one of MXINT adds the exact scaled sum of its blocks' integer dot
products, rounded once, and is the default NaN where a scale is 0xFF (R78, R79, R103, R266 to R269). MXRD reads landed accumulator values
four bundles on, halves as FP32 or all rounded to BF16; MXWR writes two bundles on, and MXCLR clears one bundle on (R270 to R272). -/
def Obligations.MatrixUnit : Prop :=
  (∀ (o : OpTNgcxym) (g : OpTNgcxymak) (s : State),
      let t := s.core
      let d := (t.sreg g.a).toNat
      let one (zero : Bool) : Mma := { c := o.c, oa := o.x, gs := [(0, 8, o.y)], mf := o.m, zero := zero, late := none }
      let groups : Mma :=
        { c := g.c, oa := g.x, mf := g.m, zero := false, late := mmagTrap d (g.k + 1),
          gs := (List.range (g.k + 1)).map (fun k => (∑ j ∈ Finset.range k, bits d (4 * j) 4, bits d (4 * k) 4, (g.y + k) % 4)) }
      let ends (i : Instr) (m : Mma) : Prop :=
        let f := mmaFmt m.mf t.spr.fmt
        let latency := if f = 1 then 14 else if f = 2 then 13 else 12
        let interval := if f = 1 then 4 else if f = 2 then 3 else 2
        Enabled i s → m.trap t = none → t.mxWait = 0 → (∀ q ∈ m.gs, q.2.1 ≠ 0 → (t.buf m.oa).st ≠ 1 ∧ (t.buf q.2.2).st ≠ 1) →
          exec i s = .next (finish ((s.onCore (fun t => { t with mxWait := interval * m.gs.length })).landAcc latency m.c m.rows 6
            ((List.range 64).map (m.value t))))
      ends (.mma o) (one false) ∧ ends (.mmaz o) (one true) ∧ ends (.mmag g) groups) ∧
  (∀ (m : Mma) (t : Tile), ∀ r < 8, ∀ c < 8,
      let f := mmaFmt m.mf t.spr.fmt
      let n := 8 * r + c
      let old := t.regs.accU.getD (64 * m.c + n) 0
      let acc : FVal := if m.zero then .fin false 0 0 else fval old.toNat
      let val (v : FVal) : ℚ := match v with | .fin s q e => (if s then -1 else 1) * q * 2 ^ e | _ => 0
      let rnd (v : FVal) : FVal := fval (roundF (rmOf t.spr.fmt) (satOf t.spr.fmt) v)
      let plus (x g : FVal) : FVal := if (fadd x g).isNan then .nan 0x7FC00000 else rnd (fadd x g)
      let covers (q : Nat × Nat × Nat) : Prop := q.1 ≤ r ∧ r < q.1 + q.2.1
      let is (v : FVal) : Prop := m.value t n = BitVec.ofNat 32 (roundF .rne false v)
      ((∀ q ∈ m.gs, ¬covers q) → bit m.rows r = false ∧ m.value t n = old) ∧
      ∀ pre q post, m.gs = pre ++ q :: post → covers q → (∀ p ∈ pre, ¬covers p) →
        let x := t.buf m.oa
        let y := t.buf q.2.2
        let A := x.rows.getD r 0
        let B := y.rows.getD c 0
        bit m.rows r = true ∧
        (f = 0 → ∃ g : Nat → FVal, is (plus (plus (plus acc (rnd (g 0))) (rnd (g 1))) (rnd (g 2))) ∧ ∀ j < 3,
          let p (k : Nat) : FVal := fmul (fvalBf (bits A (16 * (16 * j + k)) 16)) (fvalBf (bits B (16 * (16 * j + k)) 16))
          (((∃ k < 16, (p k).isNan = true) ∨ (∃ k < 16, p k = .inf true) ∧ ∃ k < 16, p k = .inf false) → g j = .nan 0x7FC00000) ∧
          (∀ z, (∀ k < 16, (p k).isNan = false ∧ p k ≠ .inf (!z)) → (∃ k < 16, p k = .inf z) → g j = .inf z) ∧
          ((∀ k < 16, (p k).notFinite = false) → (g j).notFinite = false ∧ val (g j) = ∑ k ∈ Finset.range 16, val (p k))) ∧
        (∀ w nb, (f, w, nb) ∈ [(1, 8, 3), (2, 6, 4), (3, 4, 6)] →
          let code (R i : Nat) : Int := (BitVec.ofNat w (bits R (w * i) w)).toInt
          let sa (b : Nat) : Nat := bits (x.scales.getD r 0) (8 * b) 8
          let sb (b : Nat) : Nat := bits (y.scales.getD c 0) (8 * b) 8
          let dot (b : Nat) : Int := ∑ i ∈ Finset.range 32, code A (32 * b + i) * code B (32 * b + i)
          ((∃ b < nb, sa b = 255 ∨ sb b = 255) → m.value t n = 0x7FC00000) ∧
          ((∀ b < nb, sa b ≠ 255 ∧ sb b ≠ 255) → ∃ g, is (plus acc g) ∧ g.notFinite = false ∧
            val g = ∑ b ∈ Finset.range nb, (dot b : ℚ) * 2 ^ ((sa b + sb b : Int) - 254 - 2 * ((w : Int) - 2))))) ∧
  (∀ (o : OpTNgcak) (c : OpTNgc) (s : State),
      let t := s.core
      let e (n : Nat) : Nat := (t.regs.acc.getD (64 * o.c + n) 0).toNat
      let v := t.vreg o.a
      (Enabled (.mxrd o) s → exec (.mxrd o) s = .next (finish (s.landV 4 o.a (BitVec.allOnes 64)
        (if o.k.val = 2 then ofLanes 16 (fun n => roundBf (rmOf t.spr.fmt) (satOf t.spr.fmt) (fval (e n)))
         else ofLanes 32 (fun n => e (32 * o.k + n)))))) ∧
      (Enabled (.mxwr o) s → o.k.val < 2 → exec (.mxwr o) s = .next (finish (s.landAcc 2 o.c (if o.k.val = 0 then 15 else 240) (7 + o.k)
        ((List.range 64).map (fun n => BitVec.ofNat 32 (lane v (n % 32) 32)))))) ∧
      (Enabled (.mxwr o) s → o.k.val = 2 → exec (.mxwr o) s = .next (finish (s.landAcc 2 o.c 255 6
        ((List.range 64).map (fun n => BitVec.ofNat 32 (roundF .rne false (fvalBf (lane v n 16)))))))) ∧
      (Enabled (.mxclr c) s → exec (.mxclr c) s = .next (finish (s.landAcc 1 c.c 255 6 (List.replicate 64 0)))))

/-! ## Copies, barriers, windows, banks and beads -/

/-- CPY, CPYW, FILL and GATH, their record aligned and owned, push their command once an entry is free; CPYW first waits for the channel's
last watermarked copy, needs an open, empty window, or traps as ILLEGAL, and marks the channel active. In checking mode the push reads the
record and notes the bytes of the own scratchpad that the command reads and writes, until it completes: the record, and of a copy its rows,
or of a gather its elements and its index list (R273 to R275, R277, R280, R284, R409). -/
def Obligations.CopyPushes : Prop :=
  (∀ (o : OpTNgdab) (s : State),
    let t := s.core
    let a := (t.sreg o.a).toNat
    let b := (t.sreg o.b).toNat
    let c := t.chan o.d
    let free (i : Instr) : Prop := Enabled i s ∧ pushWaits t = false ∧
      recordTrap s (slotWordOf i) a (if o.b.val = 0 then none else some b) false = none
    let s' := if t.checking then recordRead s a else s
    let notes (op : Nat) : List Note := if t.checking then
        ((cmdRanges s.self op a (recordAt s' a)).filter (fun r => r.2.1 != 0)).map (fun r =>
          { lo := r.1, hi := r.1 + r.2.1, wr := r.2.2, who := o.d, stamp := t.stamp })
      else []
    let pushed (i : Instr) (op bead : Nat) (f : Tile → Tile) : State := s'.onCore (fun t =>
      { f t with tcq := t.tcq ++ [t.entry (slotWordOf i) 0 a b bead], stamp := t.stamp + 1, notes := t.notes ++ notes op })
    let ends (i : Instr) (op : Nat) : Prop := free i → exec i s = .next (finish (pushed i op 0 id))
    ends (.cpy o) 24 ∧ ends (.fill o) 26 ∧ ends (.gath o) 27 ∧
    (free (.cpyw o) → chanBusy t o.d = false → c.lo < c.hi → c.wm = c.lo →
      exec (.cpyw o) s = .next (finish (pushed (.cpyw o) 25 (c.lo + c.hi * 2 ^ 32) (fun t => t.setChan o.d { t.chan o.d with act := true })))) ∧
    (free (.cpyw o) → chanBusy t o.d = false → c.hi ≤ c.lo ∨ c.wm ≠ c.lo →
      exec (.cpyw o) s = trapOut s .illegal t.iss.slot (slotWordOf (.cpyw o)) .trapIssue) ∧
    (free (.cpyw o) → writesPending t (.cpyw o) t.diverted = none → chanBusy t o.d = true →
      exec (.cpyw o) s = stallOut s (.cpyw o) .stall)) ∧
  ∀ (self op a v x : Nat) (wr : Bool), self < 1024 → op ∈ [24, 25, 26] → v < 2 ^ 512 →
    let r := cpyRec v
    let row (base : Nat) (stride : Int) (n : Nat) : Prop :=
      ∃ k < r.rows, ∃ j < n, ownOffset self ((((base : Int) + stride * k + j) % 2 ^ 64).toNat) = some x
    ((∃ q ∈ cmdRanges self op a v, q.2.2 = wr ∧ q.1 ≤ x ∧ x < q.1 + q.2.1) ↔
      (if wr = true then row r.dst r.dstr (if r.xform = 1 then r.rowb / 2 else r.rowb)
        else (a % 4194304 ≤ x ∧ x < a % 4194304 + 64) ∨ (op ≠ 26 ∧ row r.src r.sstr r.rowb)) ∨
      (r.xform = 1 ∧ r.res ≤ x ∧ x < r.res + r.rows * r.rowb)) ∧
    (let g := gathRec v
     cmdRanges self 27 a v = [(a % 4194304, 64, false), (g.dst, g.esz * (g.n.foldl (· * ·) 1), true)] ++
       if g.idx then [(g.ixa, 4 * g.n.getD 0 0, false)] else [])

/-- The barrier instructions: BAR.INIT, BAR.EXP and BAR.ARR send an update of the object at sA with sB at the commit; BAR.WAIT reads its
object, traps as POISON at its first poisoned byte and as BARRIER where ERR is 1, and ends, and drops the L1, once PH differs from the
parity in sB; BAR.TEST sends a request for sD (R186 to R194, R319; that a poisoned object reads as poison is the model's choice, log 61). -/
def Obligations.Barriers : Prop :=
  ∀ (o : OpTNgab) (r : OpTNgdab) (s : State) (d : Dest),
    let t := s.core
    let a := (t.sreg o.a).toNat
    let upd (i : Instr) (code : Nat) (own : Bool) (waits : Bool) : Prop :=
      Enabled i s → barDest s (slotWordOf i) a own = .ok d → t.scopedAmo = false → waits = false →
        exec i s = .next (finish (s.eff (.req
          { Req.empty .barUpd with va := a, size := 16, op := code, data := (t.sreg o.b).toNat, place := d.place })))
    upd (.barInit o) 0 true false ∧ upd (.barExp o) 1 false false ∧ upd (.barArr o) 2 false (releaseWaits s.self t 3) ∧
    (Enabled (.barWait o) s → barDest s (slotWordOf (.barWait o)) a true = .ok d → barBlocked t d = false →
      let s' := s.reads d.place 16
      exec (.barWait o) s = match poisonAt s' d.place 16 with
        | some k => trapOut s' .poison t.iss.slot (a + k) .trapIssue
        | none =>
          if barErr s' d.place then trapOut s' .barrier t.iss.slot (barTval s' d.place a) .trapIssue
          else if barPh s' d.place = (t.sreg o.b).toNat % 2 then stallOut s' (.barWait o) .stall
          else .next (finish (s'.onCore Tile.dropL1))) ∧
    (Enabled (.barTest r) s → barDest s (slotWordOf (.barTest r)) (t.sreg r.a).toNat true = .ok d → barBlocked t d = false →
      t.loadsFull = false →
      exec (.barTest r) s = .next (finish (s.eff (.load
        { Req.empty .barTest with va := (t.sreg r.a).toNat, size := 16, dst := physS t.spr.rotw r.d, pw := (t.sreg r.b).toNat % 2,
                                  place := d.place }))))

/-- CHSET opens a channel's window, its watermark at LO, and traps as ILLEGAL on bounds off a line, out of order or beyond the scratchpad;
BANK.ACQ takes banks of the task's claim that no draining task holds, and traps as PERM on others; BANK.REL gives banks up. A draining task
holds its banks until its commands have completed, and then those where an atomic or barrier update of it is still to be performed (R160,
R196, R201, R202, R360). -/
def Obligations.WindowsAndBanks : Prop :=
  ∀ (o : OpTNgdab) (b : OpTNga) (s : State),
    let t := s.core
    let lo := (t.sreg o.a).toNat
    let hi := (t.sreg o.b).toNat
    let m := (t.sreg b.a).toNat % 2 ^ 48
    let off := m ^^^ (m &&& t.task.claim)
    let held := drainBanks t s.self
    let fits := lo % 64 = 0 ∧ hi % 64 = 0 ∧ lo ≤ hi ∧ hi ≤ 3145728
    (Enabled (.chset o) s → fits → chanBusy t o.d = false →
      exec (.chset o) s = .next (finish (s.onCore (fun t => t.setChan o.d { t.chan o.d with lo := lo, hi := hi, wm := lo, act := false })))) ∧
    (Enabled (.chset o) s → ¬fits → exec (.chset o) s = trapOut s .illegal t.iss.slot (slotWordOf (.chset o)) .trapIssue) ∧
    ((∀ d ∈ t.task.drains, commandsDone t d = true) → retiredBanks t s.self = 0 → held = 0) ∧
    (∀ d ∈ t.task.drains, commandsDone t d = false → d.bown &&& held = d.bown) ∧
    (Enabled (.bankAcq b) s → off ≠ 0 → exec (.bankAcq b) s = trapOut s .perm t.iss.slot off .trapIssue) ∧
    (Enabled (.bankAcq b) s → off = 0 → m &&& held = 0 →
      exec (.bankAcq b) s = .next (finish ((s.eff (.spec 0x0E (t.spr.bown ||| BitVec.ofNat 64 m))).onCore (fun t =>
        t.onTask (fun k => { k with rel := k.rel.filter (fun x => !bit m x.1) }))))) ∧
    (let g := m &&& t.spr.bown.toNat
     Enabled (.bankRel b) s → exec (.bankRel b) s = .next (finish
       ((s.eff (.spec 0x0E (t.spr.bown &&& ~~~(BitVec.ofNat 64 g)))).onCore (fun t =>
         t.onTask (fun k => { k with rel := k.rel ++ ((List.range 48).filter (fun x => bit g x)).map (fun x => (x, t.stamp)) })))))

/-- The bead instructions of a task with a stage: BEAD.RECV makes the oldest mailbox bead current; BEAD.SEND and BEAD.DONE push to the bead
port, DONE clearing the current bead; BEAD.HDR delivers a word of the current bead, or fails as a load by poison where the word is poisoned;
without a stage BEAD.RECV traps as ILLEGAL (R286 to R290, R328). The TVAL of a poisoned word, 8 times its number, is the model's choice: the
spec gives a word of a bead no address (log 67). -/
def Obligations.BeadInstructions : Prop :=
  ∀ (g : OpTNg) (o : OpTNgab) (d : OpTNga) (h : OpTNgdb2) (s : State),
    let t := s.core
    let staged := fld t.spr.stage 15 1 = 1
    let a := (t.sreg o.a).toNat
    let b := (t.sreg o.b).toNat
    let c := (t.sreg d.a).toNat
    (Enabled (.beadRecv g) s → staged → t.beads.cur = none → t.beads.mailbox ≠ [] →
      exec (.beadRecv g) s = .next (finish (s.onCore (fun t =>
        { t.dropL1 with beads := { t.beads with cur := t.beads.mailbox.head?, mailbox := t.beads.mailbox.drop 1 } })))) ∧
    (Enabled (.beadRecv g) s → ¬staged → exec (.beadRecv g) s = trapOut s .illegal t.iss.slot (slotWordOf (.beadRecv g)) .trapIssue) ∧
    (Enabled (.beadSend o) s → staged → pushWaits t = false → releaseWaits s.self t 10 = false →
      recordTrap s (slotWordOf (.beadSend o)) a (if o.b.val = 0 then none else some (b / 16 * 16)) (o.b.val != 0 && bits b 1 3 != 0) = none →
      exec (.beadSend o) s = .next (finish (let s' := recordRead s a
        s'.onCore (fun t => t.push (t.entry (slotWordOf (.beadSend o)) 0 a b (recordAt s' a)) [] 9)))) ∧
    (Enabled (.beadDone d) s → staged → t.beads.cur.isSome → c < 256 → pushWaits t = false →
      exec (.beadDone d) s = .next (finish (s.onCore (fun t =>
        { t.push (t.entry (slotWordOf (.beadDone d)) 0 c 0 (t.beads.cur.getD 0)) [] 9 with beads := { t.beads with cur := none } })))) ∧
    (Enabled (.beadHdr h) s → staged → t.beads.cur.isSome → t.loadsFull = false →
      let poisoned : Bool := bit (t.beads.cur.getD 0) (512 + h.b)
      exec (.beadHdr h) s = .next (finish (s.eff (.load
        { Req.empty .beadHdr with st := if poisoned then .poisoned else .done, size := 8, dst := physS t.spr.rotw h.d, pw := h.b,
                                  data := if poisoned then 8 * h.b else bits (t.beads.cur.getD 0) (64 * h.b) 64 }))))

/-- RNG.SEED seeds and starts the generator at the commit; DUP.S puts the result of the scalar operation that it names into the scalar twin
latch after that operation's latency: the two-operand forms by their codes 1 to 18, the immediate forms by theirs, and no other code (R116,
R142, R144, R291, R292). -/
def Obligations.SeedAndDuplicate : Prop :=
  ∀ (o : OpTNga) (d : OpTNgfab2) (s : State),
    let a := s.core.sreg d.a
    let b := s.core.sreg d.b
    let x : Word := (BitVec.ofNat 8 d.e).signExtend 64
    let u : Word := BitVec.ofNat 64 d.e
    let n := b.toNat % 64
    let dup (f k : Nat) (v : Word) : Prop :=
      Enabled (.dupS d) s → d.f.val = f → exec (.dupS d) s = .next (finish (s.land k (.twinS v)))
    (Enabled (.rngSeed o) s → exec (.rngSeed o) s = .next (finish (s.eff (.seed (s.core.sreg o.a))))) ∧
    dup 1 1 (a + b) ∧ dup 2 1 (a - b) ∧ dup 3 1 (a &&& b) ∧ dup 4 1 (a ||| b) ∧ dup 5 1 (a ^^^ b) ∧ dup 6 1 (a &&& ~~~b) ∧
    dup 7 1 (a <<< n) ∧ dup 8 1 (a >>> n) ∧ dup 9 1 (a.sshiftRight n) ∧ dup 10 3 (a * b) ∧
    dup 11 3 (BitVec.ofInt 64 (a.toInt * b.toInt / 2 ^ 64)) ∧ dup 12 3 (BitVec.ofNat 64 (a.toNat * b.toNat / 2 ^ 64)) ∧
    dup 13 1 (if b.slt a then b else a) ∧ dup 14 1 (if b < a then b else a) ∧ dup 15 1 (if a.slt b then b else a) ∧
    dup 16 1 (if a < b then b else a) ∧
    (∃ r ≤ 64, dup 17 1 (BitVec.ofNat 64 r) ∧ a.toNat < 2 ^ (64 - r) ∧ (r = 64 ∨ 2 ^ (63 - r) ≤ a.toNat)) ∧
    dup 18 1 (BitVec.ofNat 64 ((List.range 64).countP (fun k => a.getLsbD k))) ∧
    dup 33 1 (a + x) ∧ dup 35 1 (a &&& u) ∧ dup 36 1 (a ||| u) ∧ dup 37 1 (a ^^^ u) ∧ dup 39 1 (a <<< d.e.val) ∧ dup 40 1 (a >>> d.e.val) ∧
    dup 41 1 (a.sshiftRight d.e.val) ∧ dup 42 3 (a * x) ∧ dup 45 1 (if x.slt a then x else a) ∧ dup 46 1 (if u < a then u else a) ∧
    dup 47 1 (if a.slt x then x else a) ∧ dup 48 1 (if a < u then u else a) ∧
    (Enabled (.dupS d) s → (1 ≤ d.f.val ∧ d.f.val ≤ 18) ∨ d.f.val ∈ [33, 35, 36, 37, 39, 40, 41, 42, 45, 46, 47, 48])

/-! ## Steps of a tile's requests -/

/-- The steps of request k of tile t: a performed value arrives in its register, an acquiring AMO's with its invalidation; at a home to
which a route leads a TLB hit that grants translates, and a walk starts, or one of the page is joined, otherwise; the end of a walk answers
every request that waits on it: a granting leaf translates and anything else holds the request on a fault record; a load, store, fetch,
prefetch, AMO or barrier update, first in program order for its line, is performed at its place, whatever its class: a vector load reads the
half that the L1 does not hold, a fetched line without poison enters the instruction cache, and a load's or prefetch's of classes 0 to 2 the
L1 (R102, R176, R178, R187, R189, R294, R320, R321, R346, R348). The model's choices: the performance of an access, of an atomic and of a
barrier update as a step of its own (log 6), the order of the returns (log 8), the joining of walks and what the limit of 64 counts (log
48), the first poisoned byte as TVAL (log 56). -/
def Obligations.RequestSteps : Prop :=
  ∀ (s : State) (t k p : Nat) (r : Req), t < 1024 → s.arg 0 = t → s.arg 1 = k → reqOf (s.tile t) k = some r →
    let x := s.tile t
    let m := homeOf r.cls r.tgt r.place
    let ready (b : Nat) : Req := { r with st := .ready, mb := m, phys := homeKey r.cls m b }
    let free : Prop := (x.reqs.take k).any (sameDst r) = false
    let joins : Prop := ((walksAt s m).contains (r.cls, r.place / 65536) || decide ((walksAt s m).length < 64)) = true
    let walking : Req := { r with st := .walking, mb := m }
    let grant (a b : Bool) : Bool := grants (reqNeeds r.kind).1 (reqNeeds r.kind).2 a b
    let half : Nat × Nat := if r.kind = .vld ∧ r.op = 1 then (64, 64) else if r.kind = .vld ∧ r.op = 2 then (0, 64) else (0, r.size)
    let s1 := s.reads (p + half.1) half.2
    let base := p - r.place % 64
    let s2 := s.reads base 64
    let answer (e : WalkEnd) (s : State) (q : Nat × Req) : State :=
      match lfind (fun u => u == q.2) (s.tile q.1).reqs with | some j => endWalk s q.1 j m q.2 e | none => s
    (r.st = .done → r.late = false → r.kind = .barTest → free →
      exec .scoreboardReturn s = .next ((s.delReq t k).onTile t (fun y => if r.data = 1 then (r.deliver y).dropL1 else r.deliver y))) ∧
    (r.st = .done → r.late = false → (isLoadReq r = true ∧ r.kind ≠ .barTest ∨ r.kind = .xget ∨ r.kind = .xstat) → free →
      exec .scoreboardReturn s = .next ((s.delReq t k).onTile t r.deliver)) ∧
    (r.st = .done → r.late = false → r.kind = .amo → free →
      exec .scoreboardReturn s = .next ((s.delReq t k).onTile t (fun y =>
        if 2 ≤ r.sco then (r.deliver y).dropL1 else if r.sco ≠ 0 then (r.deliver y).dropPrefs else r.deliver y))) ∧
    (r.st = .waiting → r.cls < 3 → routeOk s (tileDie t) r.cls r.tgt r.place = true →
      (∀ e, tlbHit s m r.cls r.place = some e → grant e.r e.w = true →
        exec .mtuLookup s = .next (((s.corrects (.tlb m r.cls e.page)).setReq t k
          { ready (leafByte r.cls e.base e.size r.place) with frz := false }).onTile t thaw)) ∧
      (∀ e, tlbHit s m r.cls r.place = some e → grant e.r e.w = false → joins → exec .mtuLookup s = .next (s.setReq t k walking)) ∧
      (tlbHit s m r.cls r.place = none → joins → exec .mtuLookup s = .next (s.setReq t k walking)) ∧
      (tlbHit s m r.cls r.place = none → ¬joins → exec .mtuLookup s = .next s)) ∧
    (r.st = .walking → s.claspUp (64 + m) = true →
      (∀ b z rd wr path s2, walk s m r.cls r.place = (.leaf b z rd wr, path, s2) →
        let l := walkers s2 m r z
        exec .pageWalkEnd s = .next (l.foldl (answer (.leaf b z rd wr)) (leafIn s2 m r.cls r.place b z rd wr
          (l.any (fun p => grants (reqNeeds p.2.kind).1 (reqNeeds p.2.kind).2 rd wr)) path))) ∧
      (∀ n path s2, walk s m r.cls r.place = (.err n, path, s2) →
        exec .pageWalkEnd s = .next ((walkers s2 m r 65536).foldl (answer (.err n)) s2))) ∧
    (∀ b z rd wr, endWalk s t k m r (.leaf b z rd wr) =
      if grant rd wr then (s.setReq t k { ready (leafByte r.cls b z r.place) with frz := false }).onTile t thaw
      else if ringOk s m (tileDie t) then holdReq s t k m 2 r else s) ∧
    (∀ n, endWalk s t k m r (.err n) = if ringOk s m (tileDie t) then holdReq s t k m n r else s) ∧
    (performPlace s t r = some p → behind x k r = false → refused s r = false →
      (r.kind = .st → exec .sliceAccess s = .next (writeFar (s.delReq t k) p r.size r.data r.enb r.pois)) ∧
      (r.kind = .ld ∨ r.kind = .vld ∨ r.kind = .vldb → hostPoison s r = false →
        (poisonAt s1 (p + half.1) half.2 = none → exec .sliceAccess s = .next ((fillL1 s1 t k r p).setReq t k { r with
          st := .done,
          data := if half.2 = r.size then readN s1 p r.size else setBits r.data (8 * half.1) 512 (readN s1 (p + half.1) 64) })) ∧
        (∀ i, poisonAt s1 (p + half.1) half.2 = some i →
          exec .sliceAccess s = .next (s1.setReq t k { r with st := .poisoned, data := r.va + half.1 + i }))) ∧
      (r.kind = .fetch → hostPoison s r = false →
        (∀ i, poisonAt s2 p 16 = some i → exec .sliceAccess s = .next (s2.setReq t k { r with st := .poisoned, data := r.va + i })) ∧
        (poisonAt s2 p 16 = none → (poisonAt s2 base 64).isSome = true →
          exec .sliceAccess s = .next (s2.setReq t k { r with st := .done, data := readN s2 p 16 })) ∧
        (poisonAt s2 p 16 = none → poisonAt s2 base 64 = none → exec .sliceAccess s = .next ((s2.delReq t k).onTile t (fun y =>
          { y with icache := putCode y.icache (lineKey r.cls r.tgt r.place) (readN s2 base 64) })))) ∧
      (r.kind = .pref → hostPoison s r = false → exec .sliceAccess s = .next ((fillL1 s t k r p).delReq t k))) ∧
    (3 ≤ r.cls → fillL1 s t k r p = s) ∧
    (r.cls < 3 → r.size ≤ 64 → x.reqs = [r] → r.kind ≠ .st → r.kind ≠ .amo → findLine x.l1 (lineKey r.cls r.tgt r.place) = none →
      poisonAt s2 base 64 = none → (fillL1 s t k r p).mem = s2.mem ∧
        findLine ((fillL1 s t k r p).tile t).l1 (lineKey r.cls r.tgt r.place) =
          some { key := lineKey r.cls r.tgt r.place, data := readN s2 base 64 }) ∧
    (r.kind = .amo → (r.cls = 8 ∧ r.st = .waiting ∧ r.place = p ∨ r.cls ≠ 8 ∧ performPlace s t r = some p) → r.late = false →
      behind x k r = false →
      exec .amoPerform s = .next (s.atTile t (fun s =>
        let s1 := s.reads p r.size
        let v := readN s1 p r.size
        if (poisonAt s1 p r.size).isSome then s1.setReq t k { r with st := .poisoned, data := r.va }
        else
          (match amoNew r.op (8 * r.size) v r.data r.cmp with
            | some w =>
              if ownPlace t r then ownWrite s1 { r with data := w, enb := 2 ^ r.size - 1 }
              else writeEnb s1 p r.size w (2 ^ r.size - 1) r.pois
            | none => s1).setReq t k { r with st := .done, data := v }))) ∧
    (r.kind = .barUpd → r.place = p → behind x k r = false →
      exec .barrierUpdate s = .next (match r.op with
        | 0 => barInit (s.delReq t k) p r.data
        | 1 => barUpdate (s.delReq t k) p r.data false 0
        | _ => barUpdate (s.delReq t k) p r.data true 0))

/-- The steps of memory base die m: FRES lets the requesters of a record walk again or fail, and counts a write that names no record; an
invalidation drops the TLB entries that it covers and the whole walk cache, at every base die that a spine leads to for the broadcast copy,
whose write waits for the others, and DONE returns once what was translated before has been performed, for a space of 0 to 2 and a range of
1 to 16 units alone; a scrub read reads its sector with one or two symbols in error corrected, where neither it nor what it gives up rests;
a row at 2,048 activations throttles its bank for 50,000 ns, once in a window; the registers are offered while the root of trust is up
(R326, R331, R349, R351, R352, R461, R481). The model's choices: an invalidation drops the whole walk cache (log 48), what of an
invalidation a run can show (log 63), how an error of storage stands in the state (log 49), and that no read shows the count of ignored
writes (log 73). -/
def Obligations.BaseDieSteps : Prop :=
  ∀ (s : State) (m : Nat), m < 16 → s.arg 0 = m →
    let x := s.mb m
    let seq := s.arg 1
    let rot : Prop := s.hub.rot = true
    let cut (keep : TlbEnt → Bool) : State :=
      s.setMb m { x with tlb := x.tlb.filter keep, walk := [], invBusy := true, inv := setFld x.inv 1 1 0 }
    let place := homeKey (if s.arg 3 = 1 then 2 else 1) m (32 * seq)
    let rested : Bool := asleep s place || !backed s place 32
    let scrubbed : State := s.setMb m { x with scrub := seq + 1 }
    let count := mget 0 s.codes.rows (m * 2 ^ 64 + seq)
    (rot → x.rec? seq = none → exec .fresRetry s = .next (s.setMb m { x with badFres := x.badFres + 1 }) ∧
      exec .fresEnd s = .next (s.setMb m { x with badFres := x.badFres + 1 })) ∧
    (∀ q, rot → x.rec? seq = some q →
      exec .fresRetry s = .next (pumpAll (freeQueues ((s.setMb m (x.drop seq)).mapTiles (fun _ y => retryTile m seq y)) m seq false
        (fun _ => true))) ∧
      exec .fresEnd s = .next (pumpAll (endRecord (s.setMb m (x.drop seq)) m seq q.reason))) ∧
    (∀ reason, (∀ d, ringOk s m d = true) →
      let s0 := s.setMb m { x with answers := x.answers.filter (fun p => p.1 != seq) }
      let s1 := freeQueues (s0.mapTiles (fun _ y => { y with chans := y.chans.map (freeChan m seq true) })) m seq true (fun _ => true)
      let s2 := s1.tileNums.foldl (fun s t =>
        ((s.tile t).reqs.filter (fun r => r.st == .held && r.mb == m && r.seq == seq)).foldl (fun s r => endReq s t reason r) s) s1
      waitsOn s2 m seq = false → endRecord s m seq reason = s2) ∧
    (rot → exec .invcAll s = .next (cut (fun _ => false))) ∧
    (rot → s.arg 1 < 3 → exec .invcSpace s = .next (cut (fun e => e.spc != s.arg 1))) ∧
    (rot → s.arg 1 < 3 → 1 ≤ s.arg 3 → s.arg 3 ≤ 16 →
      exec .invcRange s = .next (cut (fun e => e.spc != s.arg 1 || decide (s.arg 2 * 4096 + s.arg 3 * 65536 ≤ e.page) ||
        decide (e.page + e.size ≤ s.arg 2 * 4096)))) ∧
    (s.arg 1 = 3 → exec .invcSpace s = .next s ∧ exec .invcRange s = .next s) ∧
    (s.hub.rot = false → exec .fresRetry s = .next s ∧ exec .fresEnd s = .next s ∧ exec .invcAll s = .next s ∧
      exec .invcSpace s = .next s ∧ exec .invcRange s = .next s) ∧
    (x.invBusy = true → translatedOpen s m = false →
      exec .invalidationDone s = .next (s.setMb m { x with invBusy := false, inv := setFld x.inv 1 1 1 })) ∧
    (rested = true → exec .scrubRead s = .next s) ∧
    (rested = false → s.arg 2 = 0 → exec .scrubRead s = .next (scrubbed.reads place 32)) ∧
    (rested = false → s.arg 2 = 1 ∨ s.arg 2 = 2 →
      exec .scrubRead s = .next
        ({ scrubbed with codes := { s.codes with flaws := .unit place .corrected :: s.codes.flaws } }.reads place 32)) ∧
    (2048 ≤ count → count < 2 ^ 32 →
      exec .activationAlert s = .next
        ({ s with codes := { s.codes with rows := mset s.codes.rows (m * 2 ^ 64 + seq) (count + 2 ^ 32) } }.setMb m { x with
          alerts := x.alerts + 1, throttle := mset x.throttle (seq / 2 ^ 32) (s.hub.gtc + 50000),
          log := (x.log ++ [(seq, s.hub.gtc)]).drop (x.log.length + 1 - 64) })) ∧
    (count < 2048 ∨ 2 ^ 32 ≤ count → exec .activationAlert s = .next s) ∧
    (mget 0 x.throttle seq ≤ s.hub.gtc → exec .gatherThrottleEnd s = .next (s.setMb m { x with throttle := mdel x.throttle seq })) ∧
    exec .refreshWindowEnd s = .next { s.setMb m { x with window := s.hub.gtc } with
      codes := { s.codes with rows := s.codes.rows.filter (fun p => p.1 / 2 ^ 64 != m) } } ∧
    (∀ (word : Nat) (keep : TlbEnt → Bool), rot → ∃ t, invStep { s with args := [16] } true word keep = .next t ∧
      (∀ k < 16, t.mb k = if spineOk s k 0 then invalidate (s.mb k) keep else s.mb k) ∧ t.mb 16 = invalidate (s.mb 16) keep ∧
      t.hub.writes = s.hub.writes ++ ((List.range 16).filter (fun k => !spineOk s k 0)).map (fun k => [invcOff k, word, 0]) ∧
      t.core = s.core ∧ t.others = s.others ∧ t.dies = s.dies ∧ t.mem = s.mem)

/-! ## Steps of a tile's units -/

/-- What comes to tile t from outside its bundles: a request to pre-empt and an expired region are taken where they stand unless a return
cause wins, an idle cycle passes for the tile in focus, counted as waiting for a bead where it stalls at BEAD.RECV, the generator appends an
entry, released banks that nothing uses become free, a tile stalled on the scoreboard sends a prefetch for a load that a predicted path
reaches, whose address register no bundle on the way writes, none past a bundle that stops it, the stalled one included (R32, R45, R100,
R118, R119, R123, R202, R389, R393, R406). The model's choices: the cycles of the tile in focus stand for all (logs 4 and 14), and the
operands of a prefetch name its predicted path and its address (log 13). -/
def Obligations.TileSteps : Prop :=
  ∀ (s : State) (t : Nat), t < 1024 → s.arg 0 = t →
    let x := s.tile t
    let keep (p : Nat × Nat) : Bool := bankInUse s t p.1 p.2
    let recv : Bool := x.iss.out == .stallRecv || x.iss.out == .doneRecv
    let c := cyclePass (s.focus t) (recv && x.live)
    let rest : Tag := if recv then .doneRecv else .done
    (x.task.preq = true → x.inreg = false → x.live = true →
      exec .preempt s = .next (s.atTile t (if x.task.pend.isSome then returnCore else preemptCore))) ∧
    (x.live = true → regionExpired (s.focus t) = true →
      exec .regionTimeout s = .next (s.atTile t (if x.task.pend.isSome then returnCore else regionCore))) ∧
    (x.live = true → c.core.live = true → c.core.task.pend = none → c.core.task.preq = false → regionExpired c = false →
      exec .tileCycle s = .next (c.tag rest)) ∧
    (c.core.live = false → (restartWaiting c).core.iss.out = x.iss.out → exec .tileCycle s = .next ((restartWaiting c).tag rest)) ∧
    (x.rng.run = true → x.rng.count < 16 → x.live = true →
      exec .randomBitAppend s = .next (s.setTile t { x with rng := { x.rng with gen := x.rng.gen + 1, count := x.rng.count + 1 } })) ∧
    exec .bankFree s = .next (s.setTile t (x.onTask (fun k =>
      { k with
        rel := k.rel.filter keep,
        drains := k.drains.map (fun d =>
          { d with rel := d.rel.filter keep,
                   bown := (d.rel.filter (fun p => !keep p)).foldl (fun b p => setBits b p.1 1 0) d.bown }) }))) ∧
    (∀ d, checkRegion (s.focus t) (s.arg 1) true false false = .ok d → d.cls < 3 → x.task.run = .running → x.iss.out = .stallSb →
      (aheadLoads (s.focus t) (s.args.drop 2)).contains (s.arg 1) = true →
      exec .runAheadPrefetch s = .next (s.setTile t { x with reqs := x.reqs ++
        [{ Req.empty .pref with va := s.arg 1, size := 64, cls := d.cls, tgt := d.tgt, place := d.place / 64 * 64 }] })) ∧
    (∀ b0 b o, let p := s.core.spr.pc.toNat
      cached s p = some b0 → passable b0 = true → cached s ((p + 16) % 2 ^ 56) = some b → passable b = true → b.s = .ldD o →
      s.core.flight = [] → readsPending s.core.advance (.ldD o) = false → (∀ w, b0.s ≠ .loopr w) → (∀ w, b0.s ≠ .mts w) →
      (∀ i ∈ [b0.s, b0.v0, b0.v1, b0.t], ∀ n ∈ scalarDsts i, physS s.core.spr.rotw n ≠ physS s.core.spr.rotw o.a) →
      (aheadLoads s [(p + 16) % 2 ^ 56]).contains (s.core.sreg o.a + (BitVec.ofNat 8 o.i).signExtend 64 * 8).toNat = true) ∧
    (∀ b0 path, cached s s.core.spr.pc.toNat = some b0 → passable b0 = false → aheadLoads s path = [])

/-- The engines of tile t: an entry that is first of its engine is accepted by a channel with room for it or by the bead port. The head
command of channel c ends at once with 0x15, 0x10, 0x16 or 0x17 where its record is poisoned, ill-formed, no match of its window or meets
one, with nothing written; else a copy runs to its end, an error or a page fault, owes its barrier the destination bytes that it has
written, and moves WM over the whole lines written, ACT going to 0 at HI. A piece of a copy writes the source's bytes to the destination,
one of a fill the pattern's, one element of a gather its source's, and nothing else. A started gather reads a line; a credit takes bytes off
its barrier, those owed, or of a command ended by an error all that its count has left; the operand loader fills, then makes its buffer
FULL; a delivery passes to the buffer that was armed for it (R105, R187, R197, R261 to R265, R275 to R285, R289). The model's choices: a
whole copy is one step (log 24), a delivery for a task that is gone is dropped (log 25), a poisoned record ends its command with 0x15 (log
72). -/
def Obligations.EngineSteps : Prop :=
  ∀ (s : State) (t c : Nat), t < 1024 → s.arg 0 = t → s.arg 1 = c →
    let x := s.tile t
    (∀ e, x.tcq[c]? = some e → (x.tcq.take c).any (fun q => q.engine == e.engine) = false →
      let y := { x with tcq := ldel x.tcq c }
      (e.engine < 2 → (x.chan e.ch).cmds.length < 4 →
        exec .engineAccept s = .next (s.setTile t (y.setChan e.ch { x.chan e.ch with cmds := (x.chan e.ch).cmds ++ [ChCmd.ofTcq e] }))) ∧
      (e.engine = 3 → e.op = 41 → x.beads.sends.length < 8 →
        exec .engineAccept s = .next (s.setTile t { y with beads := { x.beads with
          sends := x.beads.sends ++ [{ bead := e.beadRec, bar := e.b, hasBar := e.hasBar, stage := e.stage, stamp := e.stamp }] } })) ∧
      (e.engine = 3 → e.op ≠ 41 →
        exec .engineAccept s = .next (s.setTile t { y with beads := { x.beads with
          dones := x.beads.dones ++ [{ bead := e.beadRec, status := e.a % 256, waits := x.beads.sends.length, stage := e.stage,
                                       stamp := e.stamp }] } }))) ∧
    (∀ h, c < 8 → (x.chan c).head = some h →
      let key := scratchKey t (h.cmd.a % 4194304)
      let s0 := if h.started then s else s.reads key 64
      let v := if h.started then h.record else readN s0 key 64
      let r := cpyRec v
      let lo := h.cmd.beadRec % 2 ^ 32
      let hi := h.cmd.beadRec / 2 ^ 32
      let runs (s' : State) : Prop :=
        (h.cmd.op = 24 → exec .cpyCopy s = .next s') ∧ (h.cmd.op = 25 → exec .cpywCopy s = .next s') ∧
        (h.cmd.op = 26 → exec .fillWrite s = .next s')
      let after (l : List (Nat × Nat × Nat × Nat)) (p code : Nat) (fin : Bool) : ChCmd :=
        { h with record := v, saved := l, started := true, pos := p, owed := h.owed + (r.written p - r.written h.pos), ecode := code,
                 ended := fin }
      let meets : Bool := cpyWindow (s0.tile t) t (if h.cmd.op = 25 then some h.cmd.ch else none) r
      let badWindow : Prop := h.cmd.op = 25 ∧ cpywBad r lo hi = true
      let fails (rec0 code : Nat) : Prop := runs (setCmd s0 t c { h with record := rec0, started := true, ended := true, ecode := code })
      (h.ended = false → h.held = false →
        (h.started = false → (poisonAt s0 key 64).isSome = true → fails 0 0x15) ∧
        (h.started = false → poisonAt s0 key 64 = none → cpyBad h.cmd.op r = true → fails v 0x10) ∧
        (h.started = false → poisonAt s0 key 64 = none → cpyBad h.cmd.op r = false → badWindow → fails v 0x16) ∧
        (h.started = false → poisonAt s0 key 64 = none → cpyBad h.cmd.op r = false → ¬badWindow → meets = true → fails v 0x17) ∧
        (h.started = true ∨ (poisonAt s0 key 64 = none ∧ cpyBad h.cmd.op r = false ∧ ¬badWindow ∧ meets = false) → ∀ l s1,
          let mark (p : Nat) (s' : State) : State :=
            if h.cmd.op = 25 then s'.onTile t (fun y => y.setChan c (waterMark (y.chan c) h.cmd (r.written p))) else s'
          let run (y : RunEnd) : Prop := wholeRun s0 t h.cmd r { h with record := v } = (y, l, s1)
          (∀ p code, run (.done p code) → (code = 0 ∨ h.cmd.op ≠ 25) → runs (mark p (setCmd s1 t c (after l p code true)))) ∧
          (∀ p code, run (.fail p code) → runs (mark p (setCmd s1 t c (after l p code true)))) ∧
          (∀ p code m q, run (.page p code m q) → runs (mark p (holdCmd s1 t c m q (after l p code false)))) ∧
          (∀ p code, run (.wait p code) → runs (mark p (setCmd s1 t c (after l p code false))))) ∧
        (h.cmd.op = 27 → h.started = false → poisonAt s0 key 64 = none →
          let g := gathRec v
          let n := if g.idx then g.n.getD 0 0 else 0
          let s1 := if n = 0 then s0 else s0.reads (scratchKey t g.ixa) (4 * n)
          (gathBad h.cmd g = 0 → s1.poison = [] → exec .gather s = .next (setCmd s1 t c { h with
            started := true, ended := false, ecode := 0, record := v + 2 ^ 512 * readN s1 (scratchKey t g.ixa) (4 * n) })) ∧
          (gathBad h.cmd g ≠ 0 → exec .gather s = .next
            (setCmd s0 t c { h with record := v, started := true, ended := true, ecode := gathBad h.cmd g }))) ∧
        (h.cmd.op = 27 → h.started = true → ∀ p code s1,
          let g := gathRec (h.record % 2 ^ 512)
          gathRun t h g (Nat.max 1 (64 / g.esz)) s h.pos h.ecode = (.done p code, s1) →
            exec .strideGatherRead s = .next (setCmd s1 t c
              { h.ran p (h.pos * g.esz) (p * g.esz) code with ended := decide (g.count ≤ p) }))) ∧
      (creditWaits s t h.cmd = false →
        (h.ended = true → (h.ecode ≠ 0 ∨ h.due ≤ s.arg 2) →
          exec .engineCredit s = .next (endCmd (creditBar s t h.cmd h.due h.ecode) t c h)) ∧
        (h.ended = false → 0 < Nat.min (s.arg 2) h.owed → exec .engineCredit s = .next
          (setCmd (creditBar s t h.cmd (Nat.min (s.arg 2) h.owed) 0) t c { h with owed := h.owed - Nat.min (s.arg 2) h.owed })) ∧
        (h.ended = true → h.ecode = 0 → h.due = h.owed) ∧
        (h.ended = true → h.ecode ≠ 0 → h.ecode ≠ 0x15 → h.due = h.total - (h.done - h.owed)))) ∧
    (∀ ch e w, ownWindow ch e = true →
      let wm := ch.lo + w / 64 * 64
      waterMark ch e w = { ch with wm := wm, act := decide (wm ≠ ch.hi) }) ∧
    (∀ (e : Tcq) (r : CpyRec) (pos k dk : Nat), s.poison = [] → s.codes.flaws = [] → s.arg 2 ≠ 2 → 0 < r.rowb → dozing s dk = false →
      let o := pos % r.rowb
      let sa := moved r.src (r.sstr * (pos / r.rowb : Nat) + o)
      let da := moved r.dst (r.dstr * (pos / r.rowb : Nat) + o)
      let n := Nat.min (if r.dstr = r.rowb then r.rows * r.rowb - pos else r.rowb - o) (64 - da % 64)
      let kept (s' : State) : Prop := ∀ a, (a < dk ∨ dk + n ≤ a) → memGet s'.mem a = memGet s.mem a
      (e.op ≠ 26 → 0 < n → n ≤ r.rowb - o → n ≤ 64 - sa % 64 → engAccess s t e 1 sa n false = (.at k, s) →
        engAccess (s.reads k n) t e 1 da n true = (.at dk, s.reads k n) →
        ∃ l s', copyPiece s t e r [] pos = (.done (pos + n) 0, l, s') ∧ kept s' ∧
          ∀ i < n, memGet s'.mem (dk + i) = memGet s.mem (k + i)) ∧
      (e.op = 26 → 0 < n → engAccess s t e 1 da n true = (.at dk, s) →
        ∃ s', copyPiece s t e r [] pos = (.done (pos + n) 0, [], s') ∧ kept s' ∧
          ∀ i < n, (memGet s'.mem (dk + i)).toNat = bits r.src (8 * ((o + i) % 8)) 8)) ∧
    (∀ (h : ChCmd) (g : GathRec) (e k : Nat) (r : Word), s.poison = [] → s.codes.flaws = [] → s.arg 2 ≠ 2 →
      let a := gathSrc h.record g e
      let dk := scratchKey t (g.dst + e * g.esz)
      gathPoison h.record g e = false → a % g.esz = 0 → sortLocal t a = none → h.cmd.rg.find? (rgMatch a) = some r → fld r 8 3 < 2 →
      engAccess s t h.cmd 2 a g.esz false = (.at k, s) →
      ∃ s', gathElem s t h g e = (.done (e + 1) 0, s') ∧ (∀ i < g.esz, memGet s'.mem (dk + i) = memGet s.mem (k + i)) ∧
        ∀ b, (b < dk ∨ dk + g.esz ≤ b) → memGet s'.mem b = memGet s.mem b) ∧
    (∀ k e, x.osb.toList.any (·.refill) = false → x.casts = [] → x.osb.toList.any (·.arr) = false → lfind (fun e : Tcq => e.op == 16) x.tcq = some k →
      x.tcq[k]? = some e → exec .mxldFill s = .next (loadEntry s t k e) ∧
        (∀ holder off, bit e.et 0 = false → mxSource t e.a = some (holder, off) → ownBit t (mxDesc e.b).mcast = true →
          targets t (mxDesc e.b).mcast = [] → stillArmed x t e = true →
          let f := bits e.word 0 2
          sourceHeld (s.tile holder) (mxSpans off f (mxDesc e.b)) = false →
          let y := (loadEntry s t k e).tile t
          y.tcq = ldel x.tcq k ∧
            y.buf (bits e.word 14 2) = readBuf (readSource s t f e.a e.b) holder (e.a - off) off f e.a e.b)) ∧
    (c < 4 → (x.buf c).arr = true →
      exec .fillArrival s = .next (s.setTile t { x with osb := x.osb.setIfInBounds c { x.buf c with st := 2, arr := false } })) ∧
    (∀ d, c < 4 → x.slots.getD c none = some d →
      (holdsTask x d.task = false → exec .multicastDelivery s = .next (s.setTile t { x with slots := x.slots.setIfInBounds c none })) ∧
      (holdsTask x d.task = true → (x.buf c).st = 1 → (x.buf c).recv = true → (x.buf c).src % 16 = d.sender →
        fld x.spr.taskid 0 32 = d.task → x.task.away = false →
        exec .multicastDelivery s = .next (s.setTile t
          { x with slots := x.slots.setIfInBounds c none, osb := x.osb.setIfInBounds c { d.buf with st := 2, arr := false } })))

/-- The command at the head of the queue of facet f of tile t, neither held by the Locket nor told to fail, runs to its end: a product fills
the FOB from its inputs, in reference mode with the exact sums over the 64 by 64 block and in normal mode with line currents within the read
bound, quantised and clipped, an update moves its array by the coincidences of its pulse trains and counts one in PCTR, a reference cell by
exactly its signed count, saturated, an analogue one in its direction and within -1 to +1, XUPD.D stores the signed coincidence counts of a
block of 64 by 64 cells, XFER and XRST work on their column, the symmetry and configuration forms move their images, XGET and XSTAT.pc
deliver their value; the command leaves the queue. XRST fails with code 0x03 where no cell can come near enough to its SYM. A facet's
calibration at start comes once its die is ready and every facet of the groups of 64 before its own is (R238, R245 to R260, R474, R476). The
model's choices: cells and reads with their free values (logs 10, 11), a whole command in one step (log 23), and the operand of the
self-check (log 51). -/
def Obligations.FacetSteps : Prop :=
  ∀ (s : State) (t f : Nat) (c : FCmd), t < 1024 → f < 8 → s.arg 0 = t → s.arg 1 = f →
    let x := (s.tile t).facet f
    let ends (i : Instr) (op : Nat) (s' : State) : Prop := facetHead x op = some c → s.arg 2 = 0 → exec i s = .next s'
    let done (s' : State) (y : Facet) : State := facetDone s' t f c y
    let reads (l : List (Nat × Nat)) : State := facetReads s t l
    let read (l : List (Nat × Nat)) (a n : Nat) : Nat := readN (reads l) (scratchKey t a) n
    let clean (l : List (Nat × Nat)) : Prop := ∀ p ∈ l, poisonAt (reads l) (scratchKey t p.1) p.2 = none
    let store (s : State) (a n v : Nat) : State := writeN s (scratchKey t a) n v
    let one (n : Nat) : List (Nat × Nat) := [(c.a, n)]
    let two : List (Nat × Nat) := pulseChunks c.a ++ pulseChunks c.b
    let dry : List (Nat × Nat) := pulseChunks c.a ++ pulseChunks (bits c.b 0 22)
    let product (tr : Bool) : State :=
      let s := reads (one 1024)
      let v := int8s (read (one 1024) c.a 1024) 1024
      let p : Product := { t := t, f := f, tr := tr, x := v, sel := readSel x c.k, xs := fvalBf c.b,
                           err := if x.isRef then 0 else readBound v (x.age s.hub.gtc), free := s.free }
      done { s with free := s.free + 2048 } { x with fob := p.fob x }
    let pulsed : Facet × Nat :=
      let l := updateLines x f (c.et % 64) (read two c.a 2048) (read two c.b 2048)
      applyPulses t f x (c.k == 1) (counts (x.cfg 4 1 == 1) l.1 l.2) ((reads two).free + 1)
    let block : List Nat :=
      x.dryBlock f (c.et % 64) (bits c.b 44 4) (bits c.b 48 4) (read dry c.a 2048) (read dry (bits c.b 0 22) 2048)
    let moved : Facet × Nat :=
      applyPulses t f x true (xferCounts t f x (c.a % 1024) (c.et % 64) (readBound [127] (x.age s.hub.gtc)) s.free) (s.free + 1025)
    (clean (one 1024) → ends .facetExecXmvm 1 (product false) ∧ ends .facetExecXmvt 2 (product true)) ∧
    (clean two → ends .facetExecXupd 3 (done { reads two with free := pulsed.2 } pulsed.1.count)) ∧
    (∀ bl rb cb r q i j, i < 64 → j < 64 → (x.dryBlock f bl rb cb r q).getD (64 * i + j) 0 =
      let row := 64 * rb + i
      let col := 64 * cb + j
      let n := popc 64 (fireMask (x.key f) x.pctr.toNat bl 0 row (lineCode r row) &&& fireMask (x.key f) x.pctr.toNat bl 1 col (lineCode q col))
      wrap 8 (if (lineSign r row != lineSign q col) != (x.cfg 4 1 == 1) then -(n : Int) else n)) ∧
    (∀ key pctr bl h n p k, k < bl → bit (fireMask key pctr bl h n p) k =
      decide (mix64 key ((pctr * 2 ^ 17 + k * 2 ^ 11 + h * 2 ^ 10 + n) % 2 ^ 64) % 256 < p)) ∧
    (∀ (p : Product) (la lc : List Int) (o : Nat), x.isRef = true → la.length = 4096 → lc.length = 4096 → x.rwa = sparse la 0 →
      x.rwc = sparse lc 0 → o < 1024 →
      let u (l : List Int) : Int := ((List.range 64).map (fun i => p.x.getD i 0 * l.getD (if p.tr then 64 * o + i else 64 * i + o) 0)).sum
      let term (on : Bool) (gain : Nat) (l : List Int) : FVal := if on then rn (fmul (fval gain) (ofInt (u l))) else .fin false 0 0
      let z := rn (fsub (rn (fadd (term (p.sel != 1) (x.cfg 96 32) la) (term (p.sel != 0) (x.cfg 128 32) lc))) (.fin false 0 0))
      mget 0 (p.fob x) o = if 64 ≤ o then 0 else roundBf .rne false (rn (fmul (rn (fmul p.xs (fval (x.cfg 64 32)))) z))) ∧
    (∀ (p : Product) (isC : Bool) (o : Nat), x.isRef = false →
      let v : ℚ := ((List.range p.x.length).map (fun k =>
        p.x.getD k 0 * (if p.tr then cellOf p.t p.f x isC o k else cellOf p.t p.f x isC k o))).sum
      let step : Int := 2 ^ (10 - x.cfg 8 4)
      ∃ e n : Int, e.natAbs ≤ p.err ∧ |(n : ℚ) - (v + e) / 2 ^ 40 / step| ≤ 1 / 2 ∧ p.conv x isC o = step * max (-128) (min 127 n)) ∧
    (∀ (bl r q free : Nat) (isC : Bool), bl < 64 →
      let l := updateLines x f bl r q
      let y := (applyPulses t f x isC (counts (x.cfg 4 1 == 1) l.1 l.2) free).1
      let en (i j : Nat) : Int :=
        let n := popc 64 (fireMask (x.key f) x.pctr.toNat bl 0 i (lineCode r i) &&& fireMask (x.key f) x.pctr.toNat bl 1 j (lineCode q j))
        if (lineSign r i != lineSign q j) != (x.cfg 4 1 == 1) then -(n : Int) else n
      (∀ old : List Int, x.isRef = true → old.length = 4096 → (if isC then x.rwc else x.rwa) = sparse old 0 →
        let new := sparse ((List.range 4096).map (fun k => max (-128) (min 127 (old.getD k 0 + en (k / 64) (k % 64))))) 0
        y = if isC then { x with rwc := new } else { x with rwa := new }) ∧
      (x.isRef = false → ∀ i < 1024, ∀ j < 1024,
        let g := cellOf t f x isC i j
        let g' := cellOf t f y isC i j
        (en i j = 0 → g' = g) ∧ (g.natAbs ≤ 2 ^ 40 → g'.natAbs ≤ 2 ^ 40 ∧ (0 < en i j → g ≤ g') ∧ (en i j < 0 → g' ≤ g)))) ∧
    (∀ (col bl err free : Nat) (la lc : List Int), x.isRef = true → bl < 64 → la.length = 4096 → lc.length = 4096 → x.rwa = sparse la 0 →
      x.rwc = sparse lc 0 →
      let a (i : Nat) : FVal := rn (fmul (fval (x.cfg 96 32)) (ofInt (la.getD (64 * i + col) 0)))
      let code (i : Nat) : Nat := (toInt .rne false 8 (fmul (fmul (fabs (a i)) (fval (x.cfg 160 32))) (ofInt 256))).toNat
      let en (i : Nat) : Int :=
        let n := popc 64 (fireMask (x.key f) x.pctr.toNat bl 0 i (code i))
        if signOf (a i) != (x.cfg 4 1 == 1) then -(n : Int) else n
      (applyPulses t f x true (xferCounts t f x col bl err free) (free + 1025)).1 = { x with
        rwc := sparse ((List.range 4096).map (fun k => max (-128) (min 127 (lc.getD k 0 + if k % 64 = col then en (k / 64) else 0)))) 0 }) ∧
    (∀ (col e : Nat) (near : Bool) (la : List Int), x.isRef = true → la.length = 4096 → x.rwa = sparse la 0 →
      resetColumn x false near col e = { x with rwa := sparse ((List.range 4096).map (fun k => if k % 64 = col then 0 else la.getD k 0)) 0 } ∧
      resetColumn x true near col e = { x with rwa := [] }) ∧
    (∀ col e : Nat, x.isRef = false → col < 1024 → x.reachable col = true →
      let y := resetColumn x false true col e
      (List.range 1024).countP (fun i => decide (2 ^ 34 < (cellOf t f y false i col - x.symG col).natAbs)) ≤ 10 ∧
      ∀ i < 1024, ∀ j < 1024, j ≠ col → cellOf t f y false i j = cellOf t f x false i j) ∧
    (clean dry → ends .facetExecXupdD 4 (done (store (reads dry) (bits c.b 22 22) 4096 (ofBytes block)) x)) ∧
    (c.k = 0 → ends .facetExecXfer 5 (done { s with free := moved.2 + 1 } moved.1.count)) ∧
    (c.k = 1 → x.cannotReset false (c.a % 1024) = false → ends .facetExecXfer 5 (done { s with free := moved.2 + 1 }
      (resetColumn moved.1.count false true (c.a % 1024) moved.2))) ∧
    (x.cannotReset (c.k == 1) (c.a % 1024) = false → ends .facetExecXrst 6 (done { s with free := s.free + 1 }
      { resetColumn x (c.k == 1) true (c.a % 1024) s.free with err := false, ecode := 0 })) ∧
    (x.cannotReset (c.k == 1) (c.a % 1024) = true → ends .facetExecXrst 6 (facetFail { s with free := s.free + 1 } t f 3
      (resetColumn x (c.k == 1) true (c.a % 1024) s.free))) ∧
    (x.isRef = true → ends .facetExecXsymCal 7 (done s { x with sym := [], err := false, ecode := 0 })) ∧
    (x.isRef = false → ends .facetExecXsymCal 7 (done { s with free := s.free + 1 }
      { x.settle t f s.free s.hub.gtc with err := false, ecode := 0 })) ∧
    (clean (one 2048) → ends .facetExecXsymLd 8 (done (reads (one 2048))
      { x with sym := tableOf 1024 (fun j => sext (bits (read (one 2048) c.a 2048) (16 * j) 16) 16) })) ∧
    ends .facetExecXsymSt 9 (done (store s c.a 2048 x.symImage) x) ∧
    ends .facetExecXget 10 (done (facetDeliver s t c (packFields 16 (fun l => mget 0 x.fob (64 * c.k + l)) 64)) x) ∧
    (c.k = 0 → clean (one 32) → fcfgBad (read (one 32) c.a 32) = false →
      ends .facetExecXcfg 11 (done (reads (one 32)) { x with fcfg := BitVec.ofNat 256 (read (one 32) c.a 32) })) ∧
    (c.k = 1 → ends .facetExecXcfg 11 (done (store s c.a 32 x.fcfg.toNat) x)) ∧
    (c.k = 2 → clean (one 4096) →
      ends .facetExecXcfg 11 (done (reads (one 4096)) { x with rwa := sparse (int8s (read (one 4096) c.a 4096) 4096) 0 })) ∧
    (c.k = 3 → ends .facetExecXcfg 11 (done (store s c.a 4096 (blockImage x.rwa)) x)) ∧
    (c.k = 4 → clean (one 4096) →
      ends .facetExecXcfg 11 (done (reads (one 4096)) { x with rwc := sparse (int8s (read (one 4096) c.a 4096) 4096) 0 })) ∧
    (c.k = 5 → ends .facetExecXcfg 11 (done (store s c.a 4096 (blockImage x.rwc)) x)) ∧
    (c.k < 2 → ends .facetExecXmode 12 (done s { x with fcfg := BitVec.ofNat 256 (setBits x.fcfg.toNat 3 1 c.k) })) ∧
    ends .facetExecXstatPc 13 (done (facetDeliver s t c x.pctr.toNat) x) ∧
    (bit (rdyWord s (tileDie t)) 0 = true → x.ready = false →
      facetsReady s (tileDie t) ((8 * (t % 64) + f) / 64 * 64) = true → s.arg 2 = 0 →
      exec .facetStartupCalibration s = .next
        { s.onTile t (fun y => y.setFacet f (x.calibrated t f s.free s.hub.gtc false)) with free := s.free + 2 })

/-! ## Work queues -/

/-- The registers of queue q and its records on their way: writes of QWC, QRST and QCFG; the fetch of the record that stands next, its
checks passed, a write of QWC beyond the depth overruns an active queue, with its event; the placement and entry of a TASK record's tasks,
once arbitration has chosen its queue, a gang task waiting for its tick and marked late where its tile met the other conditions only after
it; the registers that a task enters with; the report of a drained one; the read count of an event queue; and a write of a register of the
queue's block through BAR0, which waits where no link leads to the die; none of these registers is offered before the configuration has
verified (R48, R160, R355 to R367, R462, R465 to R467, R481). The model's choices: what drains, and when (log 29), that QCFG and EN move
STATE (logs 32, 33), the time that a placed task waits (log 37), the order of the fetches and of arbitration (log 38), and that a queue that
is not active does not overrun (log 73). -/
def Obligations.QueueSteps : Prop :=
  ∀ (s : State) (q t : Nat), q < 16384 → t < 1024 →
    let x := s.queue q
    let d := q / 1024
    let v := s.arg 1
    let off := 0x100000 + 64 * q
    let sound : Prop := s.codes.flaws.contains (.queue q) = false ∧ s.codes.flaws.contains (.soft (.queue q)) = false
    (s.arg 0 = q → s.hub.rot = true →
      (sound → (x.state ≠ 1 ∨ (v % 2 ^ 64 + 2 ^ 64 - x.rc) % 2 ^ 64 ≤ depthOf x.cfg) →
        exec .qwcWrite s = .next (s.setQueue q { x with wc := v % 2 ^ 64 })) ∧
      (sound → x.state = 1 → depthOf x.cfg < (v % 2 ^ 64 + 2 ^ 64 - x.rc) % 2 ^ 64 →
        exec .qwcWrite s = .next ((s.setQueue q { x with wc := v % 2 ^ 64, state := 2 }).postQueue q 3 0 x.rc (v % 2 ^ 64))) ∧
      (x.state ≠ 4 → x.head = none →
        exec .qrstWrite s = .next (s.setQueue q
          { x with rst := BitVec.ofNat 64 v, rc := v % 2 ^ 64, wc := v % 2 ^ 64, ecode := 0, state := fld x.cfg 4 1 })) ∧
      (bit s.hub.featacc 0 = true → fld x.cfg 4 1 = 0 → x.state ≤ 1 → v < 2 ^ 12 → v % 16 < 13 →
        exec .qcfgWrite s = .next (s.setQueue q { x with cfg := BitVec.ofNat 64 v, state := bits v 4 1 }))) ∧
    (s.arg 0 = q → s.hub.rot = false → exec .qwcWrite s = .next s ∧ exec .qrstWrite s = .next s ∧ exec .qcfgWrite s = .next s) ∧
    (s.arg 0 = q → sound →
      (cpUp s d = true → fetchable x = true → ∀ w s2,
        locRead s d x.base.toNat (64 * (x.rc % depthOf x.cfg)) 8 = (.ok w, s2) → recBad s2 q w = 0 →
        exec .recordFetch s = .next (s2.setQueue q { s2.queue q with head := some w, placed := 0, image := none })) ∧
      (∀ w img s1, ready s q 1 0 = some w → x.image = none →
        let rg := (List.range 8).map (fun i => BitVec.ofNat 64 (recWord img i))
        (bit w 10 = false ∨ (s.codes.flaws.contains (.stage d (recSidx w)) = false ∧
          s.codes.flaws.contains (.soft (.stage d (recSidx w))) = false ∧ (s.stage d (recSidx w)).valid = true ∧
          bits (recWord w 3) 0 64 &&& (s.stage d (recSidx w)).w0.toNat = recWord w 3)) →
        locRead s d (recWord w 2) 0 8 = (.ok img, s1) → rg.any rgBad = false →
        let s2 := spendCredit s1 q
        exec .taskRecord s = .next (s2.setQueue q { s2.queue q with
          image := some rg, placed := 0,
          running := x.running ++ [{ id := x.nid, n := x.rc, w := w, left := popc 64 (recWord w 3), killed := 0, late := false, todo := [],
                                     drops := 0, held := none }] })) ∧
      (∀ w rg u, ready s q 1 0 = some w → x.image = some rg → (recTiles w)[x.placed]? = some u →
        (s.tile (64 * d + u)).task.placed = none →
        let s1 := s.onTile (64 * d + u) (fun y => y.onTask (fun k =>
          { k with placed := some (launchOf q x.nid w rg), since := s.hub.gtc, met := false }))
        (x.placed + 1 ≠ (recTiles w).length → exec .taskPlace s = .next (s1.setQueue q { x with placed := x.placed + 1 })) ∧
        (x.placed + 1 = (recTiles w).length → exec .taskPlace s = .next (s1.setQueue q
          { x with rc := (x.rc + 1) % 2 ^ 64, head := none, placed := 0, image := none, nid := x.nid + 1 })))) ∧
    (s.arg 0 = t →
      (∀ l, (s.tile t).task.placed = some l → mayEnter (s.tile t) l = true → l.gang = false →
        exec .taskEntry s = .next ((s.setTile t (enterTask (s.tile t) t (fld s.hub.prcfg 0 5) l false)).boundTile t)) ∧
      (∀ l, (s.tile t).task.placed = some l → mayEnter (s.tile t) l = false → exec .taskEntry s = .next s) ∧
      (∀ l, (s.tile t).task.placed = some l → mayEnter (s.tile t) l = true → l.gang = true →
        let k := (s.tile t).task
        let enter (late : Bool) : State := (s.setTile t (enterTask (s.tile t) t (fld s.hub.prcfg 0 5) l late)).boundTile t
        (s.hub.gtc < l.start → exec .taskEntry s = .next (s.setTile t ((s.tile t).onTask (fun k => { k with met := true })))) ∧
        (l.start ≤ s.hub.gtc → (k.met = true ∨ (k.since ≤ l.start ∧ k.drains = [])) → exec .taskEntry s = .next (enter false)) ∧
        (l.start ≤ s.hub.gtc → k.met = false → l.start < k.since →
          let y := (enter true).queue l.q
          exec .taskEntry s = .next ((enter true).setQueue l.q { y with
            running := y.running.map (fun r => if r.id = l.n then { r with late := true } else r) }))) ∧
      (∀ e rest l, (s.tile t).task.drains = e :: rest → drained (s.tile t) e = true → e.launch = some l →
        exec .taskCompletionReport s = .next (reportTask
          (s.setTile t ((s.tile t).onTask (fun k => { k with drains := rest, since :=
            if 2 ≤ k.drains.length ∨ (∃ l ∈ k.placed, e.fown &&& l.facets ≠ 0) then s.hub.gtc else k.since }))) l e.killed))) ∧
    (∀ (z : Tile) (pos : Nat) (l : Launch) (late : Bool),
      let y := enterTask z t pos l late
      y.sreg 1 = l.arg0 ∧ y.sreg 2 = l.arg1 ∧ y.sreg 3 = BitVec.ofNat 64 (t % 64) ∧
        y.sreg 4 = BitVec.ofNat 64 ((List.range (t % 64)).countP (fun k => bit l.tiles k)) ∧ (∀ n, 5 ≤ n → n < 64 → y.sreg n = 0) ∧
        (∀ n < 8, y.spr.rg.toList.getD n 0 = l.rg.getD n 0) ∧ y.spr.pc = BitVec.ofNat 64 l.entry ∧
        (l.tag < 2 ^ 32 → fld y.spr.taskid 0 32 = l.tag ∧ (l.facets < 256 → fld y.spr.taskid 32 8 = l.facets)) ∧
        y.task.launch = some l ∧ y.task.run = .running ∧ y.task.placed = none ∧
        (l.stg = false → y.spr.stage = 0) ∧ (l.banks < 2 ^ 48 → ∀ b < 48, fld y.spr.bown b 1 = b2n (bit l.banks b && !bit (drainBanks z t) b))) ∧
    (∀ e, s.arg 0 = e → e < 1025 → s.hub.rot = true →
      exec .eqrcWrite s = .next (setEvq s e { evqOf s e with rc := v % 2 ^ 64, out := false })) ∧
    (∀ o v l, s.args = o :: v :: l → s.hub.rot = true → s.hub.writes = [] → v < 2 ^ 64 →
      let hub := l.headD 0 % 2
      (spineOk s d hub = true → fld x.cfg 4 1 = 0 →
        (o = off + 0x28 → locBad v (Nat.min (64 * depthOf x.cfg) 4096) 3 = 0 →
          exec .registerWrite s = .next (s.setQueue q { x with base := BitVec.ofNat 64 v })) ∧
        (o = off + 0x30 → v < 64 → exec .registerWrite s = .next (s.setQueue q { x with evq := BitVec.ofNat 64 v }))) ∧
      (spineOk s d hub = false → off ≤ o → o < off + 64 →
        exec .registerWrite s = .next (s.onHub (fun h => { h with writes := [[o, v, hub]] }))))

/-- A record that may start at the head of queue q, its queue chosen, has its effect and completes: the STAGE, BEAD, SIGNAL, WAIT, PROFILE
and TILECTL operations, each with nothing against it; a HOLD of a running stage, a SIGNAL behind other records, a pre-emption of a tile
whose task runs and a restart that lacks an AMO's value start and wait (R359, R364, R365, R368, R369, R372, R373, R377, R383, R385, R390,
R406, R408). The model's choices: the mark of a dead stage (log 28), which beads of a BEAD record enter and which are dropped (log 35), when
a stage is served (log 36), which queue goes first (log 38), what a restart waits for (log 53), and that a CONFIG which keeps STEP keeps the
warm-up (log 73). -/
def Obligations.RecordSteps : Prop :=
  ∀ (s : State) (q w : Nat), q < 16384 → s.arg 0 = q → s.codes.flaws.contains (.queue q) = false →
    s.codes.flaws.contains (.soft (.queue q)) = false →
    let d := q / 1024
    let i := recSidx w
    let x := s.stage d i
    let t := 64 * d + recWord w 1 % 64
    let y := s.tile t
    let rec' (kind op : Nat) (j : Instr) (s' : State) : Prop := ready s q kind op = some w → exec j s = .next s'
    let onStage (op : Nat) (j : Instr) (s' : State) : Prop :=
      beadsDue s d = false → s.codes.flaws.contains (.stage d i) = false → s.codes.flaws.contains (.soft (.stage d i)) = false →
        rec' 2 op j s'
    let ends (s' : State) : State := runRec s' q 0 0
    let at' (k : Nat) (wr : Bool) (s0 s1 : State) : Prop := locPlace s0 d (recWord w 1) 0 wr = (.ok k, s1)
    let wd (k : Nat) : Word := BitVec.ofNat 64 (recWord w k)
    (configBad x w = false → bit (recWord w 2) 63 = true → x.st = .off →
      onStage 0 .stageConfig (ends (s.setStage d i { Stage.reset with st := .run, w0 := wd 1, w1 := wd 2, w2 := wd 3 }))) ∧
    (configBad x w = false → bit (recWord w 2) 63 = true → x.valid = true →
      onStage 0 .stageConfig (ends (stepEnd d i (x.failed.length + 1) (s.setStage d i (x.reconfig (wd 1) (wd 2) (wd 3)))))) ∧
    (configBad x w =
      let lim := bits (recWord w 2) 8 8
      if bit (recWord w 2) 63 then
        decide (recWord w 1 = 0 ∨ lim = 0 ∨ lim < bits (recWord w 2) 16 6 ∨ bits (recWord w 2) 22 2 = 3 ∨
          (x.valid = true ∧ ¬(x.st = .held ∧ x.sh = true)))
      else decide (x.st ≠ .held ∧ x.st ≠ .faulted)) ∧
    (configBad x w = true → onStage 0 .stageConfig (failQueue s q 3)) ∧
    (bit (recWord w 2) 63 = false → x.st = .held ∨ x.st = .faulted →
      let s1 := ((x.ctl ++ x.fwd ++ x.bwd).foldl (fun s b => dropEvent s d i b 1) s).setStage d i { Stage.reset with holdRec := x.holdRec }
      onStage 0 .stageConfig (ends (x.holdRec.foldl (fun s r => completeRec s r.1 r.2 0 0 false) (s1.setStage d i Stage.reset)))) ∧
    (x.st = .faulted → onStage 1 .stageHold (ends (s.setStage d i { x with sh := true }))) ∧
    (x.st = .off → onStage 1 .stageHold (ends s)) ∧
    (¬(x.st = .held ∧ x.sh = true) → onStage 2 .stageRelease (ends s)) ∧
    (¬(x.st = .faulted ∧ stageServed s d i = true) → onStage 4 .stageClearflt (ends s)) ∧
    (x.st = .run ∨ x.st = .holding → onStage 1 .stageHold ((startRec s q 0).setStage d i
      { x with sh := true, st := .holding, holdRec := x.holdRec ++ [(q, (s.queue q).nid)] })) ∧
    (x.st = .held → onStage 1 .stageHold (ends (s.setStage d i { x with sh := true }))) ∧
    (x.st = .held → x.sh = true →
      onStage 2 .stageRelease (ends (s.setStage d i { x with sh := false, st := if x.lhs = [] then .run else .held }))) ∧
    onStage 3 .stageEvict (ends (s.setStage d i { x with opens := x.opens.map (fun o =>
      if o.step = bits (recWord w 1) 32 32 ∧ o.mb = bits (recWord w 1) 0 16 then { o with evicted := true } else o) })) ∧
    (x.st = .faulted → stageServed s d i = true → onStage 4 .stageClearflt (ends
      (endHolds (s.setStage d i { x with st := if x.sh ∨ x.lhs ≠ [] then .held else .run, dead := false }) d i))) ∧
    (∀ s1, locWrite s d (recWord w 1) 0 x.words = (none, s1) → onStage 5 .stageRead (ends s1)) ∧
    (∀ bs s1, retireDue s d = false → s.claspUp (4 * d + 1) = true →
      (s.queue q).running.find? (fun r => r.todo != []) = none → readBeads s d (recWord w 1) 0 (recWord w 2) = (.ok bs, s1) →
      let good := bs.filterMap (injected s1 d i)
      let id := (s1.queue q).nid
      let s2 := startRec s1 q 0
      rec' 3 0 .beadRecord (feedBeads q id (good.length + 1) (s2.setQueue q { s2.queue q with
        running := (s2.queue q).running.map (fun r => if r.id = id then { r with todo := good, drops := bs.length - good.length } else r) }))) ∧
    (∀ k s1, (s.queue q).running = [] → (s1.queue q).running = [] → at' k true s s1 → dozing s1 k = false →
      rec' 6 0 .signalStore (ends (writeN s1 k 8 (recWord w 2)))) ∧
    (∀ k j s1 s2, (s.queue q).running = [] → (s2.queue q).running = [] → at' j false s s1 → at' k true s1 s2 → dozing s2 k = false →
      poisonAt (s2.reads k 8) k 8 = none →
      rec' 6 1 .signalAmoAdd (ends (writeN (s2.reads k 8) k 8 (readN (s2.reads k 8) k 8 + recWord w 2)))) ∧
    (∀ k s1, (∀ r, (s.queue q).running.head? = some r → recKind r.w ≠ 6) → (s1.queue q).running ≠ [] → at' k true s s1 →
      rec' 6 0 .signalStore (startRec s1 q 0)) ∧
    (∀ k s1 op, op < 4 → at' k false s s1 → poisonAt (s1.reads k 8) k 8 = none → waitHolds w (readN (s1.reads k 8) k 8) = true →
      chosen (s1.reads k 8) q = true →
      ((s.queue q).placed = 0 → rec' 7 op .waitRecord (ends (s1.reads k 8))) ∧
      ((s.queue q).placed = 1 → rec' 7 op .waitPoll (ends (s1.reads k 8)))) ∧
    (∀ s1, locWrite s d (recWord w 1) 0 (profWords s d) = (none, s1) →
      rec' 8 0 .profileCopy (ends s1) ∧ rec' 8 1 .profileCopyClear (ends (s1.mapTiles (fun t x =>
        if tileDie t = d then { x with prof := Vector.replicate 8 0 } else x)))) ∧
    (y.task.rst = none → y.task.run ≠ .halted → rec' 9 0 .tilectlRestart (ends ((s.atTile t haltReads).atTile t restartCore))) ∧
    (y.task.rst = none → y.task.run = .halted → haltLacks ((s.atTile t haltReads).focus t) = false →
      rec' 9 0 .tilectlRestart (ends ((s.atTile t haltReads).atTile t restartCore))) ∧
    (y.task.rst = none → y.task.run = .halted → haltLacks ((s.atTile t haltReads).focus t) = true →
      rec' 9 0 .tilectlRestart ((startRec (s.atTile t haltReads) q 0).onTile t (fun y => y.onTask (fun k => { k with rst := some (q, (s.queue q).nid) })))) ∧
    (y.task.launch.isSome = true → y.task.away = false → (y.task.run = .running ∨ y.task.run = .frozen) →
      rec' 9 1 .tilectlPreempt ((startRec s q 0).onTile t (fun y =>
        let z := y.onTask (fun k => { k with preq := true, preqRecs := k.preqRecs ++ [(q, (s.queue q).nid)] })
        if z.inreg then z.onSpr (fun p => { p with tstat := setFld p.tstat 4 1 1 }) else z))) ∧
    (y.task.launch.isSome = true → rec' 9 2 .tilectlKill (ends (s.atTile t killCore)))

/-! ## The bead scheduler -/

/-- The port and the scheduler of die d: a bead whose peer port is in service again leaves, else the first send of tile t that no barrier
holds is stamped with its stage and goes on its way; a retirement passes; a bead that has arrived, or that a peer port brings, joins its
stage's queue or the Pendant's; the stage whose turn it is, once every other input has been taken, gives the bead that its policy chooses to
the tile whose turn it is; the retirement of the lowest tile and the first failure notice that a route leads on are taken; a HOLDING stage
without a bead at a tile is HELD; the requests of a Locket reach the scheduler. An arrival joins the tail of its queue, is dropped at a
stage that is not valid, discarded for a failed micro-batch, and fails one without an open entry; a delivery pops the head that the policy
chooses, opens the entry of a forward bead and marks NOSTASH and STEPEND, unless the step rules, an open or an evicted entry drop it; a
retirement closes the entry of a closing bead, fails its micro-batch by a nonzero status, and ends the step, STEP moving on, with the last
(R289, R290, R375 to R386, R450, R451, R461, R470). The model's choices: the mark of a dead stage (log 28), when a stage is served (log 36),
notices as steps of their own (log 39), the traffic of the peer ring as operands (log 43), which Locket's request is taken first (log 44),
and when the step rules drop a bead (log 73). -/
def Obligations.SchedulerSteps : Prop :=
  ∀ (s : State) (t d : Nat), t < 1024 → d < 16 →
    let x := s.tile t
    let e := tileDie t
    let y := s.die d
    let i := s.arg 1 % 64
    let z := s.stage d i
    let land (s' : State) (src b : Nat) : State :=
      if beadPnd b then s'.onDie d (fun x => { x with pend := { x.pend with inbox := x.pend.inbox ++ [b % 2 ^ 520 + 2 ^ 520 * s'.hub.gtc] } })
      else if s'.claspUp (4 * d + 1) then enterStage s' d (beadDst b % 64) b
      else dropBead s' src b 5
    let sound (k n : Nat) : Prop := s.codes.flaws.contains (.stage k n) = false ∧ s.codes.flaws.contains (.soft (.stage k n)) = false
    let isOpen (b : Nat) : Prop := ∃ o ∈ z.opens, o.step = beadStep b ∧ o.mb = beadMb b
    let rest (b : Nat) : List Open := z.opens.filter (fun o => !(o.step == beadStep b && o.mb == beadMb b))
    let onQ (b : Nat) (f : List Nat → List Nat) : Stage :=
      { z with ctl := if beadKind b = 4 then f z.ctl else z.ctl, bwd := if beadKind b = 2 then f z.bwd else z.bwd,
               fwd := if beadKind b = 4 ∨ beadKind b = 2 then z.fwd else f z.fwd }
    let failed (b : Nat) : Prop := beadKind b ≠ 3 ∧ (beadStep b, beadMb b) ∈ z.failed
    let closes (b : Nat) : Prop := beadKind b = if z.nnone then 1 else 2
    let name := stageName s d i
    (∀ k, s.arg 0 = t → peerReady s e t = some k →
      exec .beadSendRelease s = .next (s.onDie e (fun z => { z with transit := ldel z.transit k }))) ∧
    (∀ b bs, s.arg 0 = t → peerReady s e t = none → x.beads.sends = b :: bs → b.hasBar = false →
      (s.die e).transit.any (fun p => p.2.1 == t) = false → s.claspUp (4 * e + 1) = true → sound e (b.stage % 64) →
      let st := s.stage e (b.stage % 64)
      beadOk (b.bead % 2 ^ 520) st.next st.prev st.nnone st.pnone = true →
      exec .beadSendRelease s = .next (sendBead
        (s.setTile t { x with beads := { x.beads with sends := bs, dones := x.beads.dones.map (fun z => { z with waits := z.waits - 1 }) } })
        e t (stampSrc (b.bead % 2 ^ 520) (stageName s e (b.stage % 64))))) ∧
    (∀ b bs, s.arg 0 = t → x.beads.dones = b :: bs → b.waits = 0 →
      exec .beadDonePass s = .next ((s.setTile t { x with beads := { x.beads with dones := bs } }).onDie e (fun z =>
        { z with retire := z.retire ++ [(t, beadStage b.bead, b.bead, b.status)] }))) ∧
    (∀ src k b, s.args = [d] → y.retire = [] → nextArrival s d = some (src, k, b) →
      exec .beadArrival s = .next (land (s.onDie src (fun x => { x with transit := ldel x.transit k })) src b)) ∧
    (∀ b rest, s.args = d :: b :: rest → y.retire = [] → peerIn s d = true → bit (s.hub.rdy.getD d 0) 0 = true →
      takesBead s d b = true → exec .beadArrival s = .next (land s d (b % 2 ^ 520))) ∧
    (∀ j u b, s.arg 0 = d → s.claspUp (4 * d + 1) = true → beadsDue s d = false → nextStage s d = some j →
      s.codes.flaws.contains (.stage d j) = false → s.codes.flaws.contains (.soft (.stage d j)) = false → nextTile s d j = some u →
      let s1 := s.onDie d (fun x => { x with lastStage := j })
      (s1.stage d j).badHead = none → (s1.stage d j).choose = some b → chosenDrop s1 d j b = none →
      exec .beadDelivery s = .next (giveBead s1 d j u b)) ∧
    (∀ j u b, s.arg 0 = d → s.claspUp (4 * d + 1) = true → beadsDue s d = false → nextStage s d = some j → sound d j → nextTile s d j = some u →
      let s1 := s.onDie d (fun x => { x with lastStage := j })
      (∀ s2, (s1.stage d j).badHead = none → (s1.stage d j).choose = some b → chosenDrop s1 d j b = some s2 →
        exec .beadDelivery s = .next s2) ∧
      ((s1.stage d j).badHead = some b → exec .beadDelivery s = .next (dropHeadBead s1 d j b))) ∧
    (∀ b, sound d i →
      (z.valid = false → enterStage s d i b = dropEvent s d i b 1) ∧
      (z.valid = true → failed b → enterStage s d i b = s) ∧
      (z.valid = true → ¬failed b → beadKind b = 2 → ¬isOpen b →
        enterStage s d i b = failMb (dropEvent s d i b 4) d i (beadStep b) (beadMb b) 0xFC) ∧
      (z.valid = true → ¬failed b → (beadKind b = 2 → isOpen b) → z.dead = false →
        enterStage s d i b = s.setStage d i (onQ b (· ++ [b])))) ∧
    (let open' (b : Nat) : Bool := (z.stepMb == 0 || decide (beadStep b ≤ z.step)) &&
        (beadKind b == 3 || decide (z.opens.length < fld z.w1 8 8))
     let f := z.fwd.head?.filter open'
     let pol := fld z.w1 22 2
     (∀ b l, z.ctl = b :: l → z.choose = some b) ∧
     (z.ctl = [] → pol = 0 → fld z.w1 16 6 ≤ z.warm → z.lastBwd = some false → z.choose = z.bwd.head?.or f) ∧
     (z.ctl = [] → pol = 0 → (z.warm < fld z.w1 16 6 ∨ z.lastBwd ≠ some false) → z.choose = f.or z.bwd.head?) ∧
     (z.ctl = [] → pol = 1 → z.choose = f.or z.bwd.head?) ∧ (z.ctl = [] → pol = 2 → z.choose = z.bwd.head?.or f)) ∧
    (∀ b, z.stepDrop b = true ↔ z.stepMb ≠ 0 ∧ (z.stepMb ≤ beadMb b ∨ ((beadKind b = 1 ∨ beadKind b = 3) ∧ beadStep b < z.step) ∨
      (beadKind b = 2 ∧ beadStep b ≠ z.step))) ∧
    (∀ b, dropHeadBead s d i b =
      let s1 := s.setStage d i (onQ b (·.drop 1))
      if z.hasFailed b then s1
      else if beadKind b = 3 then tellPendant (dropEvent s1 d i b 3) d b 0xF7 else dropEvent s1 d i b 3) ∧
    (∀ b,
      let s1 := s.setStage d i (onQ b (·.drop 1))
      let gone : Prop := ∃ o ∈ z.opens, o.step = beadStep b ∧ o.mb = beadMb b ∧ o.evicted = true
      (beadKind b = 1 → isOpen b → chosenDrop s d i b = some (dropEvent s1 d i b 2)) ∧
      (beadKind b = 2 → ¬isOpen b → chosenDrop s d i b = some (failMb (dropEvent s1 d i b 4) d i (beadStep b) (beadMb b) 0xFC)) ∧
      (beadKind b = 2 → isOpen b → gone → fld z.w1 59 1 = 1 →
        chosenDrop s d i b = some (failMb (dropEvent s1 d i b 4) d i (beadStep b) (beadMb b) 0xFE)) ∧
      (beadKind b = 2 → isOpen b → (gone → fld z.w1 59 1 = 0) → chosenDrop s d i b = none) ∧
      (beadKind b = 1 → ¬isOpen b → chosenDrop s d i b = none)) ∧
    (∀ u b, u < 64 → b < 2 ^ 520 →
      let v := (giveBead s d i u b).stage d i
      let closing : Prop := closes b ∧ z.stepMb ≠ 0
      (v.ctl, v.fwd, v.bwd) = ((onQ b (·.drop 1)).ctl, (onQ b (·.drop 1)).fwd, (onQ b (·.drop 1)).bwd) ∧
        v.opens = z.opens ++ (if beadKind b = 1 then [{ step := beadStep b, mb := beadMb b, evicted := false }] else []) ∧
        v.warm = (if beadKind b = 1 then z.warm + 1 else z.warm) ∧ v.lastTile = u ∧
        v.lastBwd = (if beadKind b = 4 then z.lastBwd else some (beadKind b == 2)) ∧ (closing → v.closedSent = z.closedSent + 1) ∧
        (v.st, v.w0, v.w1, v.w2, v.closed, v.failed) = (z.st, z.w0, z.w1, z.w2, z.closed, z.failed) ∧
        ∃ b', ((giveBead s d i u b).tile (64 * d + u)).beads.mailbox =
            (s.tile (64 * d + u)).beads.mailbox ++ [b' + 2 ^ 520 * (i + 64 * epochOf s d)] ∧ b' < 2 ^ 520 ∧
          (bit b' 80 = true ↔ beadKind b = 2 ∧ ∃ o ∈ z.opens, o.step = beadStep b ∧ o.mb = beadMb b ∧ o.evicted = true) ∧
          (bit b' 81 = true ↔ closing ∧ z.closedSent + 1 + z.failedNow.length = z.stepMb) ∧
          ∀ k, k ≠ 80 → k ≠ 81 → bit b' k = bit b k) ∧
    (∀ b st, s.claspUp (4 * d + 1) = true → beadEpoch b = epochOf s d →
      (beadKind b = 3 → retireBead s d i b st = if st = 0 then s else tellPendant s d b st) ∧
      (beadKind b = 4 → retireBead s d i b st =
        if st = 0 then s else s.postDev d 6 (name + beadStep b * 2 ^ 32) (beadMb b + st % 256 * 65536)) ∧
      (beadKind b = 1 ∨ beadKind b = 2 →
        (¬isOpen b → retireBead s d i b st = s) ∧
        (isOpen b → st ≠ 0 → retireBead s d i b st = failMb s d i (beadStep b) (beadMb b) st) ∧
        (isOpen b → ¬closes b → retireBead s d i b 0 = s) ∧
        (isOpen b → closes b → retireBead s d i b 0 = stepEnd d i (z.failed.length + 1) (s.setStage d i { z with
          opens := rest b,
          closed := if beadStep b = z.step ∧ z.stepMb ≠ 0 ∧ beadMb b ∉ z.closed then z.closed ++ [beadMb b] else z.closed })))) ∧
    (∀ n,
      let done : Prop := z.stepMb ≠ 0 ∧ (∀ o ∈ z.opens, o.step ≠ z.step) ∧
        z.stepMb ≤ (z.failedNow ++ z.closed.filter (fun m => !z.failedNow.contains m)).length
      let s1 := s.setStage d i { z with
        w2 := setFld z.w2 0 32 (z.step + 1), closed := [], closedSent := 0, warm := 0, failed := z.failed.filter (fun p => decide (z.step < p.1)),
        st := if z.st = .run ∧ ∃ p ∈ z.lhs, p.2 ≤ z.step then .holding else z.st }
      (¬done → stepEnd d i n s = s) ∧
      (done → stepEnd d i (n + 1) s = stepEnd d i n
        (if z.pnone then reportStep (s1.postDev d 4 (name + z.step * 2 ^ 32) 0) name z.step else s1))) ∧
    (∀ step mb st,
      let s1 := s.postDev d 6 (name + step * 2 ^ 32) (mb + st % 256 * 65536)
      let keep (b : Nat) : Bool := beadKind b == 3 || beadStep b != step || beadMb b != mb
      failMb s d i step mb st = passNotice (passNotice (noteFailed s1 d i step mb) d i step mb true) d i step mb false ∧
        (z.valid = false → noteFailed s d i step mb = s) ∧
        (z.valid = true → noteFailed s d i step mb = stepEnd d i (z.failed.length + 1) (s.setStage d i { z with
          opens := z.opens.filter (fun o => !(o.step == step && o.mb == mb)),
          failed := if (step, mb) ∈ z.failed then z.failed else z.failed ++ [(step, mb)],
          ctl := z.ctl.filter keep, fwd := z.fwd.filter keep, bwd := z.bwd.filter keep })) ∧
        (z.valid = true → passNotice s d i step mb true = if z.nnone then s else sendNotice s d (fld z.w1 41 15) step mb true) ∧
        (z.valid = true → passNotice s d i step mb false = if z.pnone then s else sendNotice s d (fld z.w1 25 15) step mb false) ∧
        ∀ dest up, dest / 1024 = fld s.hub.prcfg 0 5 → sendNotice s d dest step mb up = s.onDie (bits dest 6 4) (fun x =>
          { x with notices := x.notices ++ [(d, dest, step, mb, up)] })) ∧
    (∀ b,
      let k := bits (beadDst b) 6 4
      (beadDst b / 1024 = fld s.hub.prcfg 0 5 → s.claspUp (4 * k + 1) = true → beadPnd b = false →
        sendBead s d t b = s.onDie d (fun x => { x with transit := x.transit ++ [(k, t, b)] })) ∧
      (beadDst b / 1024 = fld s.hub.prcfg 0 5 → s.claspUp (4 * k + 1) = false → beadPnd b = false → sendBead s d t b = dropBead s d b 5) ∧
      (beadDst b / 1024 = fld s.hub.prcfg 0 5 → beadPnd b = true →
        sendBead s d t b = s.onDie d (fun x => { x with transit := x.transit ++ [(64 + k, t, b)] })) ∧
      (beadDst b / 1024 ≠ fld s.hub.prcfg 0 5 → peerOut s d (beadDst b / 1024) = true → sendBead s d t b = s) ∧
      (beadDst b / 1024 ≠ fld s.hub.prcfg 0 5 → peerOut s d (beadDst b / 1024) = false →
        sendBead s d t b = s.onDie d (fun x => { x with transit := x.transit ++ [(128 + beadDst b / 1024, t, b)] }))) ∧
    (∀ b, beadEpoch b = epochOf s d → s.claspUp (4 * d + 1) = true → beadStage b = i → z.valid = true → ¬failed b → beadKind b = 1 →
      z.stepMb = 0 → returnBead s d b = s.setStage d i { z with opens := rest b, warm := z.warm - 1, fwd := bareBead b :: z.fwd }) ∧
    (∀ st, let w := s.tile t
      w.beads.mailbox = [] →
      leaveBeads s t st = (match w.beads.cur with
        | some b => if beadKind b = 4 then s else s.onDie e (fun y => { y with retire := y.retire ++ [(t, beadStage b, b, st)] })
        | none => s).onTile t (fun y => { y with beads := { y.beads with cur := none, mailbox := [] } })) ∧
    (∀ n u j b st, s.arg 0 = d → nextRetire y = some n → lget (0, 0, 0, 0) y.retire n = (u, j, b, st) →
      s.codes.flaws.contains (.stage d j) = false → s.codes.flaws.contains (.soft (.stage d j)) = false →
      exec .beadRetirement s = .next (retireBead (s.onDie d (fun x => { x with retire := ldel x.retire n })) d j b st)) ∧
    (∀ n src name step mb up, s.args = [d] → nextNotice s d = some n → lget (0, 0, 0, 0, false) y.notices n = (src, name, step, mb, up) →
      let s1 := s.onDie d (fun x => { x with notices := ldel x.notices n })
      (name / 1024 ≠ fld s.hub.prcfg 0 5 → exec .failureNotice s = .next s1) ∧
      (name / 1024 = fld s.hub.prcfg 0 5 → s1.claspUp (4 * d + 1) = true → sound d (name % 64) →
        exec .failureNotice s = .next (passNotice (noteFailed s1 d (name % 64) step mb) d (name % 64) step mb up))) ∧
    (∀ j step mb up, s.args = [d, j, step, mb, up] → exec .failureNotice s = .next (s.onDie d (fun x =>
      { x with notices := x.notices ++ [(16, stageName s d (j % 64), step % 2 ^ 32, mb % 65536, up == 1)] }))) ∧
    (s.arg 0 = d → z.st = .holding → stageBusy s d i = false → s.claspUp (4 * d + 1) = true →
      exec .stageHeld s = .next (endHolds (s.setStage d i { z with st := .held }) d i)) ∧
    (∀ k, s.arg 0 = d → lockWith s d (fun x => if x.relDies.contains d then [] else x.reqDies) = some k →
      bit (s.hub.rdy.getD d 0) 0 = true → (s.clasp (4 * d + 1)).mode ≠ 5 → beadsDue s d = false →
      exec .locketHoldRequest s = .next ((s.onStages d (fun y => y.holdBy k (s.die k).lock.step)).onLock k (fun y =>
        { y with reqDies := y.reqDies.filter (· != d), setDies := y.setDies ++ [d] }))) ∧
    (∀ k, s.arg 0 = d → lockWith s d (fun x => x.relDies) = some k → beadsDue s d = false →
      exec .locketReleaseRequest s = .next ((s.onStages d (fun y => y.releaseBy k)).onLock k (fun y =>
        { y with relDies := y.relDies.filter (· != d) })))

/-! ## The Pendant and the Locket -/

/-- The Pendant of a die that works: its five records, each with nothing against it, once the returned beads and notices have been taken;
its admissions; a batch that is formed, released as a bead, returned and taken in record by record, each sample deciding once it has every
stage; the retirement of a sample; a batch whose bead is late or that a notice names fails; a slot in error is freed; and the end of a
drained job. A sample queue beyond its depth overruns; an admission fills the lowest free slot or is rejected; a batch holds the samples of
the first ready stage, with each stage's time and inputs; a result is stored as its stage's k value; the error norm, the growth, the new
time, step and counts, and what ends a sample are those of a decision (R427 to R446). Decisions, beads and notices come before records,
records before admissions, and those before batches (R431). The model's choices: a decision and each record of a bead as steps of their own,
and what an ended access leaves, none here (log 42), what of a record the spec does not name (log 31), and the bookkeeping of the samples
(log 40). -/
def Obligations.PendantSteps : Prop :=
  ∀ (s : State) (q w d j : Nat), q < 16384 → d < 16 → j < 4 → pendUp s d = true → (s.die d).pend.ended = [] →
    let x := pjob s d j
    let record (op : Nat) : Prop :=
      s.arg 0 = q ∧ q / 1024 = d ∧ ready s q 4 op = some w ∧ s.codes.flaws.contains (.queue q) = false ∧
        s.codes.flaws.contains (.soft (.queue q)) = false ∧ beadsBack s d = false
    let clean : Prop := ∀ k, s.codes.flaws.contains (.soft (.sample d k)) = false
    let due : Prop := beadsBack s d = true ∨ recordsDue s d = true
    let onJob : Prop := s.arg 0 = d ∧ s.arg 1 = j
    let got {α : Type} (r : PRes α) (v : α) (s' : State) : Prop := r = .got v s'
    (∀ v s1, record 0 → slotInUse s d (recWord w 2) = false → got (pendRead s d (recWord w 1) 0 64) v s1 →
      let img := (List.range 64).map (fun i => bits v (64 * i) 64)
      tabBad img = 0 → exec .pendantLoadtab s = .next
        (runRec (s1.onPend d (fun p => { p with slots := mset p.slots (recWord w 2) img })) q 0 0)) ∧
    (∀ v s1 rc s2 cc s3 s4, record 1 → got (pendRead s d (recWord w 1) 0 16) v s1 →
      let desc := (List.range 16).map (fun i => bits v (64 * i) 64)
      let y : Job := { Job.reset with desc := desc }
      descRsv desc = false → startBad s1 d desc = false → got (pendRead s1 d (y.w 9) 0 1) rc s2 →
      got (pendRead s2 d (y.w 12) 0 1) cc s3 → got (pendWrite s3 d (y.w 10) 0 [rc]) () s4 →
      exec .pendantStart s = .next (setJob (startRec s4 q 0) d (y.f 0 0 2)
        { y with st := 1, rcount := rc, ccount := cc, due := true, startRec := (q, (s4.queue q).nid) })) ∧
    (record 2 → recWord w 1 = j → x.st = 1 → exec .pendantStop s = .next (runRec (drainJob s d j 0) q 0 0)) ∧
    (record 3 → recWord w 1 = j → x.st ≠ 0 → exec .pendantAbort s = .next (setJob (startRec s q 0) d j
      { x with st := 3, endStatus := if x.endStatus.isNone then some 1 else x.endStatus,
               abortRecs := x.abortRecs ++ [(q, (s.queue q).nid)] })) ∧
    (∀ s1, record 4 → clean → recWord w 1 = j → got (pendWrite s d (recWord w 2) 0
        ([x.st, x.admitted, x.finished, x.failedN, x.accN, x.rejN, x.batches.length, s.hub.gtc] ++
          (x.slots.map (fun k => (psample s d k).words)).flatten)) () s1 →
      exec .pendantRead s = .next (runRec s1 q 0 0)) ∧
    (onJob → x.st ≠ 0 → ¬due → x.dirty = true → exec .pendantSwcPoll s = .next (writeCount s d j)) ∧
    (∀ swc s1 s2 s3, onJob → x.st = 1 → ¬due → x.dirty = false → x.reading = false → freeSlots s d x ≠ [] →
      got (pendRead s d (x.w 9) 0 1) swc s1 →
      let dist := (swc + 2 ^ 64 - x.rcount) % 2 ^ 64
      dist ≤ 2 ^ (x.f 0 24 4 + 4) → got (admitRun d j (Nat.min dist 4096) s1) () s2 → (pjob s2 d j).dirty = true →
      (s2.die d).pend.held = none →
      got (pendWrite (setJob s2 d j { pjob s2 d j with due := false }) d ((pjob s2 d j).w 10) 0 [(pjob s2 d j).rcount]) () s3 →
      exec .pendantSwcPoll s = .next (setJob s3 d j { pjob s3 d j with dirty := false })) ∧
    (∀ b s1, onJob → (x.st = 1 ∨ x.st = 2) → (List.range (x.f 0 16 3 + 1)).find? (fun b => x.batches.all (fun c => c.buf != b)) = some b →
      let ks := batchSlots s d x
      let ri := 64 + padBytes x.dim
      ks ≠ [] → ¬due → admissionsDue s d = false → clean → got (writeInputs d (b * (x.f 0 8 6 + 1) * ri) ri x ks 0 s) .done s1 →
      let s2 := ks.foldl (fun s k => setSample s d k { psample s d k with sst := 2 }) s1
      exec .batchFormation s = .next (setJob s2 d j { x with
        seq := x.seq + 1,
        batches := x.batches ++ [{ buf := b, seq := x.seq % 2 ^ 18, stage := (psample s2 d (ks.headD 0)).stg, ns := ks.length,
                                   psb := ks.headD 0, slots := (List.range ks.length).zip ks, tick := 0, released := false, lost := false }] })) ∧
    (∀ swc s1, onJob → x.st = 1 → ¬due → x.dirty = false → x.reading = false → freeSlots s d x ≠ [] →
      got (pendRead s d (x.w 9) 0 1) swc s1 → 2 ^ (x.f 0 24 4 + 4) < (swc + 2 ^ 64 - x.rcount) % 2 ^ 64 →
      exec .pendantSwcPoll s = .next (setJob s1 d j { x with
        st := 2, endStatus := if x.endStatus.isNone then some 2 else x.endStatus })) ∧
    (∀ n, freeSlots s d x = [] → admitRun d j n s = .got () s) ∧
    (∀ n r s1, freeSlots s d x ≠ [] → got (pendRead s d (x.w 8) (64 * (x.rcount % 2 ^ (x.f 0 24 4 + 4))) 8) r s1 →
      admitRun d j (n + 1) s = admitRun d j n (admitOne s1 d j r)) ∧
    (∀ r,
      let y : Job := { x with rcount := (x.rcount + 1) % 2 ^ 64, dirty := true }
      let tol : Bool := bit (recWord r 0) 0
      (admitBad r = true → admitOne s d j r = setJob s d j { y with
        rejects := x.rejects ++ [bits (recWord r 0) 32 32], failedN := x.failedN + 1 }) ∧
      ∀ k l, admitBad r = false → freeSlots s d x = k :: l →
        admitOne s d j r = setJob (setSample s d k (Sample.startStep { Sample.reset with
          sst := 1, t := bits (recWord r 1) 0 32, tend := bits (recWord r 1) 32 32, h := bits (recWord r 2) 0 32, state := recWord r 3,
          hist := recWord r 4, atol := if tol then bits (recWord r 5) 0 32 else x.f 5 0 32,
          rtol := if tol then bits (recWord r 5) 32 32 else x.f 5 32 32, tag := bits (recWord r 0) 32 32, job := j }))
          d j { y with admitted := x.admitted + 1 }) ∧
    (∀ y : Sample,
      let dt := rn (fsub (fval y.tend) (fval y.t))
      let last := !fless (fval y.h) dt
      y.startStep = { y with isLast := last, hs := if last then codeOf dt else y.h }) ∧
    (let free := x.slots.filter (fun k => (psample s d k).sst == 1)
     batchSlots s d x = match free.head? with
       | none => []
       | some k => (free.filter (fun m => (psample s d m).stg == (psample s d k).stg)).take (x.f 0 8 6 + 1)) ∧
    (∀ base ri m, writeInputs d base ri x [] m s = .got .done s ∧ ∀ k ks r s1 s2, got (inputRecord s d k x) r s1 →
      got (pendWrite s1 d (x.w 7) (base + m * ri) r) () s2 → writeInputs d base ri x (k :: ks) m s = writeInputs d base ri x ks (m + 1) s2) ∧
    (∀ y dim nst n ks k s1 s2, got (readStages d y dim nst n s) ks s1 →
      got (pendFloats s1 d y.hist ((y.k0 + n) % nst * (64 * ((dim + 15) / 16))) dim) k s2 → got (readStages d y dim nst (n + 1) s) (ks ++ [k]) s2) ∧
    (∀ k y s1 ks s2,
      let z := psample s d k
      let img := jobTab s d x
      k < 4096 → z.stg < 8 → z.hs < 2 ^ 32 → z.t < 2 ^ 32 → got (pendCodes s d z.state 0 x.dim) y s1 →
      got (readStages d z x.dim (tabNst img) z.stg s1) ks s2 →
      let sum (n : Nat) : FVal := (List.range z.stg).foldl (fun acc m =>
        if tabA img z.stg m % 2 ^ 31 = 0 then acc else pfma acc (fval (tabA img z.stg m)) ((ks.getD m []).getD n FVal.dnan)) (.fin false 0 0)
      ∃ r, got (inputRecord s d k x) r { s2 with free := s2.free + 24 } ∧ bits (r.getD 0 0) 0 12 = k ∧ bits (r.getD 0 0) 12 3 = z.stg ∧
        r.getD 1 0 = codeOf (pfma (fval z.t) (fval (tabC img z.stg)) (fval z.hs)) + 2 ^ 32 * z.hs ∧
        ∀ n < x.dim, bits (r.getD (8 + n / 2) 0) (32 * (n % 2)) 32 =
          if z.stg = 0 then y.getD n 0 else codeOf (pfma (fval (y.getD n 0)) (fval z.hs) (sum n))) ∧
    (∀ k b c u s1,
      let z := psample s d k
      let g := pjob s d z.job
      let nst := tabNst (jobTab s d g)
      let val (n : Nat) : Nat := if g.f 0 5 1 = 1 then
          codeOf (pfma (fval (u.getD n 0)) (fval (g.f 4 32 32)) (rn (fsub (fval (c.getD n 0)) (fval (u.getD n 0))))) else c.getD n 0
      got (pendWrite32 s d z.hist ((z.k0 + b.stage) % nst * (64 * ((g.dim + 15) / 16))) ((List.range g.dim).map val)) () s1 →
      got (storeStage s d k b c u) () (setSample s1 d k { z with stg := b.stage + 1, sst := if b.stage + 1 < nst then 1 else 3 })) ∧
    (∀ b bead m k w1 s1,
      let g := if x.f 0 5 1 = 1 then 2 else 1
      let off := m * (64 + 64 * ((g * x.dim + 15) / 16))
      let drop (s : State) : State := setBatch s d j { b with slots := b.slots.drop 1 }
      got (pendRead s d (bits bead 192 64) off 1) w1 s1 →
      (bits w1 0 12 ≠ k → got (takeRecord s d j b bead m k) () (endSample (drop s1) d k 5 0xF9)) ∧
      (bits w1 0 12 = k → ∀ v s2 s3, got (pendCodes s1 d (bits bead 192 64) (off + 64) (g * x.dim)) v s2 →
        got (storeStage s2 d k b (v.take x.dim) (v.drop x.dim)) () s3 → got (takeRecord s d j b bead m k) () (drop s3))) ∧
    (∀ k s1, clean → (psample s d k).sst = 3 → (psample s d k).fin = none → got (decide1 s d k) () s1 → (s1.die d).pend.ended = [] →
      decideNow s d k = s1) ∧
    (∀ k y s1 ks s2,
      let z := psample s d k
      let g := pjob s d z.job
      let img := jobTab s d g
      let n := stepNorm z img g.dim y ks
      let c := decideStep z g img n.1
      let ends (s' : State) : State :=
        let s3 := setJob s' d z.job (if c.2.1 then { g with accN := g.accN + 1 } else { g with rejN := g.rejN + 1 })
        match c.2.2 with
        | some st => endSample (setSample s3 d k c.1) d k st 0
        | none => setSample s3 d k { c.1.startStep with sst := if c.1.stg < tabNst img then 1 else 3 }
      got (pendFloats s d z.state 0 g.dim) y s1 → got (readStages d z g.dim (tabNst img) (tabNst img) s1) ks s2 →
      (n.1.isNan = true → got (decide1 s d k) () (endSample s2 d k 3 0)) ∧
      (n.1.isNan = false → c.2.1 = false → got (decide1 s d k) () (ends s2)) ∧
      (n.1.isNan = false → c.2.1 = true → ∀ s3, got (pendWrite32 s2 d z.state 0 (n.2.map codeOf)) () s3 → got (decide1 s d k) () (ends s3))) ∧
    (∀ (z : Sample) (img : List Nat) (dim : Nat) (y : List FVal) (ks : List (List FVal)),
      let sum (cf : Nat → Nat) (n : Nat) : FVal := (List.range (tabNst img)).foldl (fun acc m =>
        if cf m % 2 ^ 31 = 0 then acc else pfma acc (fval (cf m)) ((ks.getD m []).getD n FVal.dnan)) (.fin false 0 0)
      let old (n : Nat) : FVal := y.getD n FVal.dnan
      let new (n : Nat) : FVal := pfma (old n) (fval z.hs) (sum (tabB img) n)
      let r (n : Nat) : FVal := rn (fdiv (rn (fmul (fval z.hs) (sum (tabD img) n)))
        (pfma (fval z.atol) (fval z.rtol) (fmax (fabs (old n)) (fabs (new n)))))
      let lane (l : Nat) : FVal := ((List.range dim).filter (fun n => n % 256 == l)).foldl (fun p n => pfma p (r n) (r n)) (.fin false 0 0)
      stepNorm z img dim y ks = (rn (fsqrt (rn (fdiv
        ((reduceTree (fun a b => rn (fadd a b)) 8 ((List.range 256).map lane)).headD FVal.dnan) (ofInt dim)))), (List.range dim).map new)) ∧
    (∀ (z : Sample) (g : Job) (img : List Nat) (err : FVal),
      let c := decideStep z g img err
      let acc : Prop := fless (.fin false 1 0) err = false
      let gr := rn (fexp2 (rn (fdiv (fneg (rn (flog2 err))) (ofInt (bits (img.getD 0 0) 8 4 + 1)))))
      let fac := fmin (fmax (rn (fmul (fval (g.f 3 0 32)) gr)) (fval (g.f 3 32 32))) (if acc then fval (g.f 4 0 32) else .fin false 1 0)
      let tn := rn (fadd (fval z.t) (fval z.hs))
      let done : Prop := acc ∧ (z.isLast = true ∨ fless tn (fval z.tend) = false)
      let h := rn (fmul (fval z.hs) fac)
      let maxst := g.f 6 32 32
      let n := z.nacc + z.nrej + 1
      let fsal : Prop := bit (img.getD 0 0) 4 = true
      (c.2.1 = true ↔ acc) ∧
        c.1 = { z with
          h := codeOf h, err := codeOf err, nacc := if acc then z.nacc + 1 else z.nacc, nrej := if acc then z.nrej else z.nrej + 1,
          t := if done then z.tend else if acc then codeOf tn else z.t,
          k0 := if acc ∧ fsal then (z.k0 + tabNst img - 1) % tabNst img else z.k0, stg := if acc ∧ ¬fsal then 0 else 1 } ∧
        c.2.2 = if ¬acc ∧ fless h (fval (g.f 6 0 32)) = true then some 2 else if done then some 1
          else if maxst ≠ 0 ∧ maxst ≤ n then some 4 else none) ∧
    (∀ k st ds,
      let z := psample s d k
      let g := pjob s d z.job
      endSample s d k st ds = setJob (setSample s d k { z with sst := 3, fin := some st, dstat := ds }) d z.job
        (if st = 1 then { g with finished := g.finished + 1 } else { g with failedN := g.failedN + 1 })) ∧
    (∀ b, onJob → peerReady s d 4096 = none → s.claspUp (4 * d + 1) = true → x.batches.find? (fun b => !b.released) = some b →
      let ri := 64 + padBytes x.dim
      exec .pendantBeadRelease s = .next (sendBead
        (setJob s d j { x with batches := x.batches.map (fun c => if c.buf = b.buf then { c with released := true, tick := s.hub.gtc } else c) })
        d 4096 (batchBid s d j b * 2 ^ 32 + 2 ^ 64 * (3 * 2 ^ 24 + b.ns * 2 ^ 32) + 2 ^ 128 * x.f 1 0 15 +
          2 ^ 192 * locAdd (x.w 7) (b.buf * (x.f 0 8 6 + 1) * ri) + 2 ^ 256 * (b.ns * ri) +
          2 ^ 320 * (b.stage * 2 ^ 12 + b.psb)))) ∧
    (∀ k, s.arg 0 = d → (s.die d).pend.undecided = some k → exec .pendantBeadReturn s = .next (decideAgain s d k)) ∧
    (∀ raw rest b, s.arg 0 = d → (s.die d).pend.undecided = none → (s.die d).pend.inbox = raw :: rest → x.overdue b (raw / 2 ^ 520) = false →
      let bead := raw % 2 ^ 520
      findBatch s d (beadBid bead) = some (j, b) →
      let ro := 64 + padBytes ((if x.f 0 5 1 = 1 then 2 else 1) * x.dim)
      bits bead 96 16 = b.ns → b.ns * ro ≤ bits bead 256 40 → locBad (bits bead 192 64) 64 2 = 0 →
      (∀ m k l s1, clean → b.slots = (m, k) :: l → got (takeRecord s d j b bead m k) () s1 →
        exec .pendantBeadReturn s = .next (decideNow s1 d k)) ∧
      (b.slots = [] → exec .pendantBeadReturn s = .next
        (setJob (s.onPend d (fun p => { p with inbox := rest })) d j { x with batches := x.batches.filter (fun c => c.buf != b.buf) }))) ∧
    (∀ k st rc s1 s2 s3, s.arg 0 = d → s.arg 1 = k → k < 4096 →
      let y := psample s d k
      clean → y.fin = some st → y.job = j →
      let depth := 2 ^ (x.f 0 28 4 + 4)
      got (pendRead s d (x.w 13) 0 1) rc s1 → (x.ccount + 2 ^ 64 - rc) % 2 ^ 64 < depth →
      got (pendWrite s1 d (x.w 11) (32 * (x.ccount % depth))
        [y.tag * 2 ^ 32 + k * 2 ^ 16 + y.dstat * 2 ^ 8 + st, y.t + 2 ^ 32 * y.h, y.nacc + 2 ^ 32 * y.nrej, s.hub.gtc]) () s2 →
      got (pendWrite s2 d (x.w 12) 0 [(x.ccount + 1) % 2 ^ 64]) () s3 →
      let s4 := setJob s3 d j { pjob s3 d j with ccount := (x.ccount + 1) % 2 ^ 64 }
      exec .sampleRetirement s = .next (setJob (setSample s4 d k Sample.reset) d j { pjob s4 d j with due := true })) ∧
    (∀ b, onJob → x.batches.find? (fun b => b.buf == s.arg 2 && b.released) = some b → x.f 14 0 32 ≠ 0 →
      b.tick + 1000 * x.f 14 0 32 ≤ s.hub.gtc → beadBack s d j b = false → exec .batchTimeout s = .next (failBatch s d j b 0xFA)) ∧
    (∀ n src bid st b, s.args = [d] → nextTold s d = some n → lget (0, 0, 0) (s.die d).pend.notices n = (src, bid, st) →
      let s1 := s.onPend d (fun p => { p with notices := ldel p.notices n })
      findBatch s1 d bid = some (j, b) → exec .pendantFailureNotice s = .next (failBatch s1 d j b st)) ∧
    (∀ bid st, s.args = [d, bid, st] → exec .pendantFailureNotice s = .next
      (s.onPend d (fun p => { p with notices := p.notices ++ [(16, bid % 2 ^ 32, st % 256)] }))) ∧
    (∀ k, s.arg 0 = d → s.arg 1 = k → k < 4096 → s.arg 2 = 0 → (psample s d k).sst ≠ 0 → (psample s d k).job = j →
      exec .sampleEntryEccError s = .next (setSample (setJob s d j { x with
        failedN := x.failedN + b2n (psample s d k).fin.isNone, due := true,
        batches := x.batches.map (fun b => { b with slots := b.slots.filter (fun p => p.2 != k) }) }) d k
        Sample.reset)) ∧
    (onJob → (x.st = 2 ∨ (x.st = 3 ∧ x.awaited = [])) → x.dirty = false → x.reading = false →
      x.slots.filter (fun k => (psample s d k).sst != 0) = [] → x.rejects = [] →
      let y : Job := { x with batches := x.awaited }
      exec .pendantJobEnd s = .next (x.abortRecs.foldl (fun s p => completeRec s p.1 p.2 0 0 false)
        (completeRec (setJob (setJob s d j y) d j { y with st := 0 }) x.startRec.1 x.startRec.2 (x.endStatus.getD 0) 0 false)))

/-- The Locket of a die that works: ARM, TRIGGER, RESTORE and DISARM with nothing against them; the period tick and the step report that
start a checkpoint; a hold that is complete, or late; the readout and the restore of a facet; and the mark that ends the image. A trigger
that comes while a checkpoint runs counts in MISS, also where a fault holds the Locket; header and sections have the layout of R455; a
restore writes SYM, FCFG, PCTR, RWA and RWC exactly and the cells within 2^-7, credits the barrier, and with a column of more than ten cells
outside tolerance fails the facet with code 0x03 and the job with 0x05 (R448 to R456). The model's choices: the image's words are written in
the steps shown, its header before the facets and without its mark, and cells that cannot come within tolerance are borne up to ten (log
44), a section in one step (log 24), and what an ended access leaves, none here (log 42). -/
def Obligations.LocketSteps : Prop :=
  (∀ (s : State) (q w d : Nat), q < 16384 → q / 1024 = d → s.arg 0 = q → s.codes.flaws.contains (.queue q) = false →
    s.codes.flaws.contains (.soft (.queue q)) = false → lockOn s d = true → (s.die d).lock.held.isSome = true →
    let x := (s.die d).lock
    (ready s q 5 1 = some w → x.armed = true → x.st ≠ 0 → exec .locketTrigger s = .next
      (runRec { s.onLock d (fun _ => { x with miss := x.miss + 1 }) with free := s.free + 1 } q (Config.freeNat s.free % 256) 0)) ∧
    (ready s q 5 3 = some w → exec .locketDisarm s = .next
      (runRec ((countMissed s d).onLock d (fun x => { x with armed := false, reports := [] })) q 0 0))) ∧
  (∀ (f : Facet) (v free gtc t k : Nat) (stuck : Bool),
    let y := restoreFacet f v free gtc stuck
    let arr (isC : Bool) : Nat := if isC then 0x204000 else 0x4000
    let code (isC : Bool) (i j : Nat) : Int := sext (bits v (8 * (arr isC + 2 * (1024 * j + i))) 16) 16
    (restoreFails v stuck = true ↔ stuck = true ∨ ∃ isC, ∃ j < 1024, 10 < (List.range 1024).countP (fun i => decide (16512 < (code isC i j).natAbs))) ∧
      y.fcfg = BitVec.ofNat 256 (bits v (8 * 0x40) 256) ∧ y.pctr = BitVec.ofNat 64 (bits v (8 * 0x60) 64) ∧ y.drift = gtc ∧
      (∀ j < 1024, mget 0 y.sym j = sext (bits v (8 * 0x400 + 16 * j) 16) 16) ∧
      (∀ m < 4096, mget 0 y.rwa m = sext (bits v (8 * (0x1000 + m)) 8) 8 ∧ mget 0 y.rwc m = sext (bits v (8 * (0x2000 + m)) 8) 8) ∧
      (restoreFails v stuck = false → y.err = false ∧ y.ecode = 0) ∧
      (restoreFails v stuck = false → ∀ (isC : Bool), ∀ j < 1024, (List.range 1024).countP (fun i =>
        decide (2 ^ 33 < (cellOf t k y isC i j - code isC i j * 2 ^ 26).natAbs)) ≤ 10)) ∧
  (∀ (f : Facet) (t k b n ticks free : Nat) (qne : Bool), b < 512 → f.sym.Pairwise (fun p q => p.1 < q.1) →
    f.rwa.Pairwise (fun p q => p.1 < q.1) → f.rwc.Pairwise (fun p q => p.1 < q.1) →
    let ws := facetSection t k b f qne n ticks free
    let at' (off w : Nat) : Nat := bits (ws.getD (off / 8) 0) (8 * (off % 8)) w
    ws.length = 0x404000 / 8 ∧ at' 0 64 = b + b2n qne * 512 ∧ (∀ i < 4, at' (0x40 + 8 * i) 64 = bits f.fcfg.toNat (64 * i) 64) ∧
      at' 0x60 64 = f.pctr.toNat ∧ (∀ j < 1024, at' (0x400 + 2 * j) 16 = wrap 16 (mget 0 f.sym j)) ∧
      (∀ m < 4096, at' (0x1000 + m) 8 = wrap 8 (mget 0 f.rwa m) ∧ at' (0x2000 + m) 8 = wrap 8 (mget 0 f.rwc m)) ∧
      (∀ i < 1024, ∀ j < 1024, ∀ isC : Bool, 0 < n → (cellOf t k f isC i j).natAbs ≤ 2 ^ 40 →
        ∃ c : Int, at' ((if isC then 0x204000 else 0x4000) + 2 * (1024 * j + i)) 16 = wrap 16 c ∧ c.natAbs ≤ 16384 ∧
          (c * 2 ^ 26 - cellOf t k f isC i j).natAbs ≤ imageBound n ticks) ∧
      ∀ i, (1 ≤ i ∧ i < 8) ∨ (13 ≤ i ∧ i < 128) ∨ (384 ≤ i ∧ i < 512) ∨ (1536 ≤ i ∧ i < 2048) → ws.getD i 0 = 0) ∧
  ∀ (s : State) (q w d : Nat), q < 16384 → d < 16 → lockUp s d = true → (s.die d).lock.ended = [] →
    let x := (s.die d).lock
    let record (op : Nat) : Prop :=
      s.arg 0 = q ∧ q / 1024 = d ∧ ready s q 5 op = some w ∧ s.codes.flaws.contains (.queue q) = false ∧
        s.codes.flaws.contains (.soft (.queue q)) = false
    let got {α : Type} (r : PRes α) (v : α) (s' : State) : Prop := r = .got v s'
    let free : Prop := x.armed = false ∧ x.st = 0
    let y (v : Nat) : Lock := { Lock.reset with desc := wordsOf 16 v, relDies := x.relDies }
    let fits (v : Nat) (s1 : State) : Prop :=
      lockRsv (fun i => (wordsOf 16 v).getD i 0) = false ∧ lockLimits s1 (fun i => (wordsOf 16 v).getD i 0) = false
    let b := s.arg 1
    let t := 64 * d + b / 8
    let facet := (s.tile t).facet (b % 8)
    (∀ v s1, record 0 → free → got (lockRead s d (recWord w 1) 0 16) v s1 → fits v s1 →
      exec .locketArm s = .next (runRec (s1.onLock d (fun _ => { y v with
        armed := true, next := if bits ((y v).w 0) 8 2 = 1 then firstPeriod ((y v).w 3) ((y v).w 2) s1.hub.gtc else 0 })) q 0 0)) ∧
    (record 1 → x.armed = true → x.st = 0 →
      exec .locketTrigger s = .next (startHold (startRec s q 0) d 1 0 x (some (q, (s.queue q).nid)))) ∧
    (∀ v s1 h s2 img s3 rl s4, record 2 → free → got (lockRead s d (recWord w 1) 0 16) v s1 → fits v s1 →
      got (lockRead s1 d ((y v).w 1) 0 32) h s2 → got (lockRead s2 d ((y v).w 1) 0x1400 32) img s3 →
      got (lockRead s3 d ((y v).w 6) 0 (2 * (y v).ranges)) rl s4 → partBad (y v) h = 0 → rangesBad img rl = false →
      exec .locketRestore s = .next (startHold (startRec s4 q 0) d 3 0 (y v) (some (q, (s4.queue q).nid)))) ∧
    (record 1 → x.armed = true → x.st ≠ 0 → exec .locketTrigger s = .next
      (runRec { s.onLock d (fun _ => { x with miss := x.miss + 1 }) with free := s.free + 1 } q (Config.freeNat s.free % 256) 0)) ∧
    (record 1 → x.armed = false → exec .locketTrigger s = .next (failQueue s q 3)) ∧
    (s.arg 0 = d → x.armed = true → bits (x.w 0) 8 2 = 1 → x.next ≤ s.hub.gtc → x.st ≠ 0 →
      exec .locketPeriodTrigger s = .next (s.onLock d (fun _ => { x with next := x.next + x.w 2, miss := x.miss + 1 }))) ∧
    (x.st ≠ 0 → x.armed = true → bits (x.w 0) 8 2 = 1 → x.next ≤ s.hub.gtc →
      let m := (s.hub.gtc - x.next) / x.w 2 + 1
      countMissed s d = s.onLock d (fun _ => { x with miss := x.miss + m, next := x.next + m * x.w 2 })) ∧
    (x.st ≠ 0 → x.armed = true → bits (x.w 0) 8 2 = 2 → reportGoes s d x = true → countMissed s d = s.onLock d (fun _ => { x with
      miss := x.miss + x.reports.countP (fun e => (e + 2) % bits (x.w 4) 32 16 == 0), reports := [] })) ∧
    (x.st = 0 ∨ x.armed = false → countMissed s d = s.onLock d (fun _ => x)) ∧
    (∀ st step z r, startHold s d st step z r = s.onLock d (fun _ => { z with
      st := st, step := step, miss := 0, trig := s.hub.gtc, since := s.hub.gtc, reqDies := (List.range 16).filter (fun k => bit (z.w 5) k),
      setDies := [], group := [], todo := (List.range 512).filter (fun b => bit (z.w (8 + b / 64)) (b % 64)), taken := [], failed := false,
      record := r })) ∧
    (∀ st,
      let s0 := countMissed s d
      let z := (s0.die d).lock
      let s1 := s0.onLock d (fun _ => { z with st := 0, reqDies := [], setDies := [], relDies := z.relDies ++ z.setDies, group := [], todo := [],
                                               taken := [], record := none, held := none, ended := [] })
      z.taken = [] → (∀ k n, z.record = some (k, n) → endLock s d st = completeRec s1 k n st 0 false) ∧
        (z.record = none → z.st = 1 ∨ z.st = 2 → endLock s d st = s1.postDev d 0x0B (z.step % 2 ^ 32 + st * 2 ^ 32) 0)) ∧
    (let h := lockHeader s d x
     let at' (i lo n : Nat) : Nat := bits (h.getD i 0) lo n
     h.length = 512 ∧ at' 0 0 32 = 0x4C4B4131 ∧ at' 0 32 16 = 1 ∧ at' 1 0 4 = d ∧ at' 1 4 5 = (List.range 16).countP (fun k => bit (x.w 5) k) ∧
      at' 1 9 3 = 7 ∧ at' 1 12 10 = 1023 ∧ at' 1 22 10 = 1023 ∧ at' 1 32 5 = fld s.hub.prcfg 0 5 ∧ at' 2 0 16 = bits (x.w 5) 0 16 ∧
      at' 2 16 8 = bits (x.w 0) 0 8 ∧ at' 2 32 32 = x.step % 2 ^ 32 ∧ h.getD 3 0 = x.trig ∧ h.getD 4 0 = s.hub.gtc ∧
      h.getD 5 0 = ((List.range 512).filter (fun b => bit (x.w (8 + b / 64)) (b % 64))).length ∧ h.getD 6 0 = x.miss ∧
      (∀ i < 8, h.getD (7 + i) 0 = x.w (8 + i)) ∧ h.getD 31 0 = 0 ∧
      ∀ k < 64, (seedWords s d).getD (2 * k) 0 = (s.tile (64 * d + k)).rng.seed.toNat ∧
        (seedWords s d).getD (2 * k + 1) 0 = (s.tile (64 * d + k)).rng.gen - (s.tile (64 * d + k)).rng.count) ∧
    (∀ k c, x.section? k = some c ↔ k ∈ x.facets ∧ c = 0x2000 + 0x404000 * (x.facets.filter (fun m => decide (m < k))).length) ∧
    (record 3 → exec .locketDisarm s = .next (runRec ((countMissed s d).onLock d (fun x => { x with armed := false, reports := [] })) q 0 0)) ∧
    (s.arg 0 = d → x.armed = true → bits (x.w 0) 8 2 = 1 → x.next ≤ s.hub.gtc → x.st = 0 →
      exec .locketPeriodTrigger s = .next (startHold s d 1 0 { x with next := x.next + x.w 2 } none)) ∧
    (∀ e rest, s.args = [d] → x.reports = e :: rest → reportGoes s d x = true → x.armed = true → (e + 2) % bits (x.w 4) 32 16 = 0 → x.st = 0 →
      exec .locketStepTrigger s = .next (startHold s d 1 (e + 1) { x with reports := rest } none)) ∧
    (∀ rl s1 s2 s3, s.arg 0 = d → x.st = 1 → allHeld s d x = true → got (lockRead s d (x.w 6) 0 (2 * x.ranges)) rl s1 →
      got (lockWrite s1 d (x.w 1) 0 (lockHeader s1 d x ++ seedWords s1 d ++ wordsOf 32 rl)) () s2 →
      got (copyRanges d (x.w 1) x.rangeBase false (rangeList rl x.ranges) s2) () s3 →
      exec .locketHoldComplete s = .next { firstGroup s3 d 2 with free := s3.free + 512 }) ∧
    (∀ rl s1 s2, s.arg 0 = d → x.st = 3 → allHeld s d x = true → got (lockRead s d (x.w 6) 0 (2 * x.ranges)) rl s1 →
      got (copyRanges d (x.w 1) x.rangeBase true (rangeList rl x.ranges) s1) () s2 →
      exec .locketHoldComplete s = .next (firstGroup s2 d 4)) ∧
    (s.arg 0 = d → (x.st = 1 ∨ x.st = 3) → allHeld s d x = false → x.since + 1000 * bits (x.w 5) 16 32 ≤ s.hub.gtc →
      exec .locketHoldTimeout s = .next (endLock s d 3)) ∧
    (∀ off s1, s.arg 0 = d → b < 512 → x.st = 2 → x.section? b = some off → x.group.contains b = true →
      (facet.queue = [] ∨ x.taken.contains b = true) → s.codes.flaws.contains (.soft (.staging d)) = false →
      got (lockWrite s d (x.w 1) off (facetSection t (b % 8) b facet (x.taken.contains b) x.reads (facet.age s.hub.gtc) s.free)) () s1 →
      exec .locketFacetReadout s = .next (onFacet (nextGroup { s1 with free := s1.free + 2097152 * x.reads } d b) d b
        (fun f => { f with held := false }))) ∧
    (s.arg 0 = d → b < 512 → x.st = 2 → x.group.contains b = true → x.taken.contains b = false → facet.queue ≠ [] →
      x.since + 100000 ≤ s.hub.gtc →
      exec .locketQueueTimeout s = .next (onFacet (s.onLock d (fun x => { x with taken := x.taken ++ [b] })) d b
        (fun f => { f with held := true }))) ∧
    (∀ s1 s2, s.arg 0 = d → x.st = 2 → x.group = [] → x.todo = [] →
      got (lockWrite (countMissed s d) d (x.w 1) 32 [s.hub.gtc, x.facets.length, ((countMissed s d).die d).lock.miss]) () s1 →
      got (lockWrite s1 d (x.w 1) 248 [1]) () s2 → exec .locketImageMark s = .next (endLock s2 d 0)) ∧
    (∀ off v s1, s.arg 0 = d → b < 512 → x.st = 4 → x.section? b = some off → x.group.contains b = true →
      got (lockRead s d (x.w 1) off 526336) v s1 →
      let stuck := restoreFails v (s1.arg 2 == 1)
      let new := restoreFacet ((s1.tile t).facet (b % 8)) v s1.free s1.hub.gtc (s1.arg 2 == 1)
      let s2 := { (if stuck then facetFail s1 t (b % 8) 3 new else onFacet s1 d b (fun _ => new)) with free := s1.free + 2117632 }
      let s3 := if bit (x.w 7) 22 then barUpdate s2 (scratchKey t (bits (x.w 7) 0 22)) (-4194304) false 0 else s2
      let s4 := nextGroup (s3.onLock d (fun y => { y with failed := y.failed || stuck })) d b
      let z := (s4.die d).lock
      exec .locketFacetRestore s = .next (if z.group = [] ∧ z.todo = [] then endLock s4 d (if z.failed then 5 else 0) else s4))

/-! ## The clasp -/

/-- A clasped machine x: a dissent marks the copy and starts its resynchronisation in dual mode, or with the eighth in the window retires
it; the resynchronisation ends in triple mode and counts in RSYN, but live copies that differ break the clasp; a break stops the machine
with its cause, RESTORE brings it to its reset state and to triple mode; RETCLR returns a retired copy where MODE reads 3, INJGO flips a bit
of the copy INJ where MODE reads 1, a read of CLCNT clears DISS and RSYN; the host reaches these registers only after a good boot and over
the spine of the machine's die (R415 to R423, R462, R481). The tick in which a dissent shows and its resynchronisation starts is log 62,
what a restore does to the machine's work logs 62 and 71. -/
def Obligations.ClaspSteps : Prop :=
  ∀ (s : State) (x : Nat), x < 81 → s.arg 0 = x →
    let c := s.clasp x
    let cp := s.arg 1
    let now := s.hub.gtc
    let y := c.dissent cp now
    let put (c : Clasp) : State := s.setClasp x c
    (1 ≤ cp → cp ≤ 3 → c.mode = 1 → y.count cp < 8 →
      exec .claspDissent s = .next (put { y with mode := 2, marked := cp, start := now + 1, prev := 1, since := now + 1, restarts := 0 })) ∧
    (1 ≤ cp → cp ≤ 3 → c.mode = 1 → 8 ≤ y.count cp →
      exec .claspDissent s = .next (put { y with
        mode := 3, ret := cp, marked := 0, start := now + 1, prev := 1, hist := y.hist.filter (fun p => p.1 != cp) })) ∧
    (∀ k : Clasp, k.mode = 2 ∨ k.mode = 3 → (now < k.start → k.shown now = k.prev) ∧ (k.start ≤ now → k.shown now = k.mode)) ∧
    (c.liveDiffer = true → exec .resyncComplete s = .next (breakClasp s x 2)) ∧
    (c.mode = 2 → c.liveDiffer = false → c.since + resyncCycles x ≤ now →
      exec .resyncComplete s = .next (put { c with
        mode := 1, marked := 0, restarts := 0, upset := 0, rsyn := Nat.min (c.rsyn + 1) 65535,
        lrt := Nat.min (c.since + resyncCycles x - c.start) 65535 })) ∧
    ((cp = 1 ∨ cp = 2) ∧ (c.mode = 2 ∨ c.mode = 3) ∨ cp = 3 ∧ c.mode = 1 ∨ cp = 4 ∧ c.mode = 2 ∧ c.restarts = 15 → exec .claspBreak s = .next (breakClasp s x cp)) ∧
    (claspReach s x = true ↔ s.hub.booted = true ∧ s.hub.tripped = false ∧
      (x = 80 ∨ linkState s (16 + (if x < 64 then x / 4 else x - 64)) ≠ 0)) ∧
    (claspReach s x = false →
      exec .claspRestore s = .next s ∧ exec .claspRetclr s = .next s ∧ exec .claspInjgo s = .next s ∧ exec .clcntRead s = .next s) ∧
    (c.mode = 4 → claspReach s x = true → exec .claspRestore s = .next (put { c with
      mode := 5, bcause := 0, last := 0, ret := 0, marked := 0, upset := 0, restarts := 0, hist := [] })) ∧
    (c.mode = 5 → exec .claspRestoreDone s = .next (restoreWork (put { c with mode := 1, restores := c.restores + 1 }) x)) ∧
    (c.shown now = 3 → claspReach s x = true →
      exec .claspRetclr s = .next (put { c with mode := 2, marked := c.ret, start := now, prev := 3, since := now, restarts := 0, ret := 0 })) ∧
    (c.shown now ≠ 3 → exec .claspRetclr s = .next s) ∧
    (c.shown now = 1 → c.inj ≠ 0 → claspReach s x = true → exec .claspInjgo s = .next (put { c with upset := c.upset ^^^ 2 ^ c.inj })) ∧
    (c.shown now ≠ 1 → exec .claspInjgo s = .next s) ∧
    (claspReach s x = true → exec .clcntRead s = .next ((put { c with diss := 0, rsyn := 0 }).onHub (fun h =>
      { h with rdData := c.lrt + c.rsyn * 65536 + c.diss * 2 ^ 32 })))

/-! ## The module -/

/-- The links, the features, the power states and the reset of the module, and the accesses from outside it: a link that fails goes DOWN and
a peer port that is enabled comes UP where its far end fits, with an event each; GTC is slewed toward position 0; the first good write of
FEATACC is taken; a clock setting waits for its switch; a die that is not busy is gated; the lanes that are written retrain; a reading of
105 degrees trips the module, which keeps the contents of HBM and of the second tier; a module whose record and images verify starts, one
whose record is older than C does not; its functions report ready; an access through the aperture or from a peer is performed at its home,
the data of a poisoned read marked, and one that has no way waits (R340, R460 to R481). The model's choices: the state of a link and when it
changes (log 45), the places of the registers and the waiting of their writes (log 46), what an access through the aperture or from a peer
is answered with (log 47), GTC and its slew (log 14), the features and sensors as operands (logs 17, 18), and that a bit of GATE reads as
written once its die has it (log 73). -/
def Obligations.ModuleSteps : Prop :=
  ∀ s : State,
    let a := s.arg 0
    let h := s.hub
    let p := fld h.prcfg 0 5
    let m := fld h.prcfg 5 5 + 1
    let c := h.flashNew.getD h.flash
    let rot : Prop := h.booted = true ∧ h.tripped = false
    let start : Prop := rot ∧ s.claspUp 80 = true
    let atHub (f : Hub → Hub) : State := s.onHub f
    (a < 35 → exec .linkRetry s = .next s) ∧
    (a < 35 → linkState s a ≠ 0 →
      exec .hopDown s = .next (pumpAll ((atHub (fun h => { h with links := mset h.links a 0 })).postMgmt 0x0C a 0))) ∧
    (a < 2 → fld h.prcfg 10 1 = 1 → p < m → s.arg 1 = m → s.arg 2 = (if a = 0 then p + 1 else p + m - 1) % m → linkState s (34 - a) = 0 →
      exec .peerPortUp s = .next (pumpAll (pumpAnswers ((atHub (fun h => { h with links := mset h.links (34 - a) 1 })).postMgmt 0x0C (34 - a + 256) 0)))) ∧
    exec .gtcSync s = .next (atHub (fun h => { h with
      prcfg := setFld h.prcfg 11 1 (if a ≤ 20 then 1 else 0), slew := if p = 0 then 0 else if s.arg 1 = 1 then -(a : Int) else a })) ∧
    (rot → a < 2 ^ 256 → bit a 0 = true → a &&& h.flash.featcap = a → bit h.featacc 0 = false →
      exec .feataccWrite s = .next (atHub (fun h => { h with featacc := a }))) ∧
    (rot → bit h.featacc 0 = true → exec .feataccWrite s = .next (atHub (fun h => { h with fstat := withBit h.fstat 1 }))) ∧
    (rot → a < 16 → s.arg 1 % 16 < 10 →
      exec .clkWrite s = .next (s.onDie a (fun d => { d with clkNext := some (s.arg 1 % 16) }))) ∧
    (∀ v, a < 16 → (s.die a).clkNext = some v → exec .clockSwitch s = .next (s.onDie a (fun d => { d with clk := v, clkNext := none }))) ∧
    (∀ d, rot → d < 16 → a = 2 ^ d → h.gate = 0 → h.ref = 0 → (∀ e < 16, spineOk s e 0 = true) → (∀ w ∈ h.writes, w.length ≠ 4) →
      (dieBusy s d = false → exec .gateWrite s = .next (gateDie (atHub (fun h => { h with gate := a, ref := 0 })) d)) ∧
      (dieBusy s d = true → exec .gateWrite s = .next (atHub (fun h => { h with gate := 0, ref := a })))) ∧
    (rot → ∃ s1, exec .srefWrite s = .next (pumpAll s1) ∧ ∀ d < 16,
      (spineOk s d 0 = true → bit s1.hub.sref d = bit a d) ∧
      (spineOk s d 0 = false → bit s1.hub.sref d = bit h.sref d ∧
        (bit a d ≠ bit h.sref d → [0x1001088, if bit a d then 1 else 0, 0, d] ∈ s1.hub.writes))) ∧
    (rot → ∃ s1, exec .tgateWrite s = .next (pumpAll s1) ∧ ∀ d < 16,
      (spineOk s d 0 = true → bit s1.hub.tgate d = bit a d) ∧
      (spineOk s d 0 = false → bit s1.hub.tgate d = bit h.tgate d ∧
        (bit a d ≠ bit h.tgate d → [0x1001098, if bit a d then 1 else 0, 0, d] ∈ s1.hub.writes))) ∧
    (let v := packFields 2 (fun k => if bits a (2 * k) 2 = 3 then bits h.lanesReg (2 * k) 2 else bits a (2 * k) 2) 16
     rot → exec .lanesWrite s = .next (atHub (fun h => { h with lanesNext := some v }))) ∧
    (a < 16 → spineOk s a 0 = false → exec .hopRetrain s = .next s) ∧
    (∀ v, a < 16 → h.lanesNext = some v → spineOk s a 0 = true →
      exec .hopRetrain s = .next (setLink (atHub (fun h => { h with lanes := setBits h.lanes (2 * a) 2 (bits v (2 * a) 2) })) a 1)) ∧
    (a < 34 → 1680 ≤ s.arg 1 → h.tripped = false →
      let s1 := tripEvent s a (s.arg 1)
      let cut := loseState (s1.tileNums.foldl (fun s t => (List.range 8).foldl (fun s f => interrupt s t f) s) s1)
      exec .thermalTrip s = .next { loseState s1 with
        core := cut.core, others := cut.others, free := cut.free,
        hub := { Hub.reset with ctr := s1.hub.ctr, flash := s1.hub.flash, flashNew := s1.hub.flashNew, gtc := s1.hub.gtc, mgmt := s1.hub.mgmt,
                                rdyh := s1.hub.rdyh % 2, booted := s1.hub.booted, tripped := true, sref := 65535, tgate := 65535,
                                trips := mset s1.hub.trips a (s.arg 1) } }) ∧
    (∀ k, 2 ^ 56 ≤ k → memGet (loseState s).mem k = memGet s.mem k) ∧
    ((loseState s).core.task.run = .idle ∧ (loseState s).core.sup = true ∧ (loseState s).hub.ctr = h.ctr ∧
      (loseState s).hub.flash = h.flash) ∧
    (bootFail s c = 0 → exec .moduleReset s = .next ((loseState s).onHub (fun g =>
      { g with fail := 0, booted := true, ctr := max h.ctr c.v, flash := c, flashNew := none }))) ∧
    (bootFail s c ≠ 0 → exec .moduleReset s = .next ((loseState s).onHub (fun g => { g with fail := bootFail s c, booted := false }))) ∧
    (bit a 0 = true → bootFail s c = 5) ∧
    (bit a 0 = false → (bit a 1 = true ∨ bit a 2 = true) → bootFail s c = 1) ∧
    (bit a 0 = false → bit a 1 = false → bit a 2 = false → c.v < h.ctr → bootFail s c = 2) ∧
    (let new : CfgRecord := { h.flash with v := s.arg 1, featcap := s.args.getD 2 h.flash.featcap, serial := s.args.getD 3 h.flash.serial }
     a = 1 → s.claspUp 80 = true → s.args.length ≤ 4 → exec .signedUpdate s = .next (atHub (fun h => { h with flashNew := some new }))) ∧
    (start →
      (a < 16 → bit h.rdyh (a / 8) = true → bit h.gate a = false → exec .functionReady s = .next (setRdy s a 0)) ∧
      (16 ≤ a → a < 32 → exec .functionReady s = .next (setRdy s (a % 16) 1)) ∧
      (32 ≤ a → a < 48 → exec .functionReady s = .next (setRdy s (a % 16) 2)) ∧
      (48 ≤ a → a < 64 → bit h.gate (a % 16) = false → exec .functionReady s = .next (setRdy s (a % 16) 3)) ∧
      (64 ≤ a → a < 80 → bit h.gate (a % 16) = false → exec .functionReady s = .next (setRdy s (a % 16) 4)) ∧
      (80 ≤ a → a < 96 → exec .functionReady s = .next (setRdyh s (8 + a % 16))) ∧
      (a = 96 → exec .functionReady s = .next (setRdyh s 1)) ∧ (a = 97 → exec .functionReady s = .next (setRdyh s 0))) ∧
    (∀ v bad s1, s.arg 1 + s.arg 2 ≤ 2 ^ 36 → rot →
      hostMove (a == 1) (s.arg 4 % 2) (s.arg 2 / 4096 + 3) (s.arg 1) (s.arg 2) (s.arg 3) s = some (v, bad, s1) →
      exec .hostApertureAccess s = .next (if a = 1 then s1
        else s1.onHub (fun h => { h with rdData := if bad = true then 2 ^ (8 * s.arg 2) else v }))) ∧
    (let A := s.arg 1
     rot → s.args ≠ [] → bits A 47 5 = p →
      (bits A 44 3 ≤ 2 →
        (∀ v s1 hub, peerHub s (bits A 44 3) (bits A 40 4) (bits A 0 40) = some hub →
          outAccess s hub (bits A 44 3) (bits A 40 4) (bits A 0 40) (s.arg 2) (s.arg 3) (a == 1) (s.arg 4 == 1) = .done v s1 →
          exec .peerMemoryAccess s = .next (if a = 1 then s1 else s1.onHub (fun h => { h with rdData := v }))) ∧
        (linkState s 33 ≠ 0 ∨ linkState s 34 ≠ 0 → peerHub s (bits A 44 3) (bits A 40 4) (bits A 0 40) = none →
          exec .peerMemoryAccess s = .next (atHub (fun h =>
            { h with peerDue := h.peerDue ++ [(homeOf (bits A 44 3) (bits A 40 4) (bits A 0 40), false, s.args)] })))) ∧
      (linkState s 33 ≠ 0 ∨ linkState s 34 ≠ 0 → 2 < bits A 44 3 →
        exec .peerMemoryAccess s = .next (atHub (fun h => { h with rdData := 2 ^ (8 * s.arg 2 + 1) })))) ∧
    (∀ m ops, s.args = [] → h.peerDue = [(m, true, ops)] → spineOk s m 0 = true → linkState s 33 ≠ 0 →
      exec .peerMemoryAccess s = .next (atHub (fun h => { h with peerDue := [], rdData := 2 ^ (8 * ops.getD 2 0 + 1) }))) ∧
    (∀ m ops, s.args = [] → h.peerDue = [(m, true, ops)] → linkState s 33 = 0 → linkState s 34 = 0 →
      exec .peerMemoryAccess s = .next s)

/-! ## Rules stated whole -/

/-- An MTS or SETFMT of a value that sets a reserved bit of FMT, or gives RM, AFMT or BFMT a reserved code, traps as ILLEGAL with TVAL 0x02,
and FMT stays as it was (R67). -/
def Obligations.FmtRefused : Prop :=
  ∀ (o : OpSNgai) (i : OpSI) (s : State),
    let refused (v : Nat) : Prop :=
      bits v 17 47 ≠ 0 ∨ bits v 13 3 ≠ 0 ∨ bits v 10 2 ≠ 0 ∨ bits v 6 2 ≠ 0 ∨ 2 ≤ bits v 8 2 ∨ 4 ≤ bits v 3 3 ∨ 4 ≤ bits v 0 3
    let traps (j : Instr) (g : Tag) : Prop :=
      ∃ s', exec j s = .next s' ∧ .next s' = trapOut s .illegal s.core.iss.slot 2 g ∧ s'.core.spr.fmt = s.core.spr.fmt
    (Enabled (.mts o) s → o.i.val = 2 → refused (s.core.sreg o.a).toNat → traps (.mts o) .trapIssue) ∧
    (refused i.i.val → traps (.setfmt i) .trapDecode)

/-- A global address matches RGn when V = 1 and a[55:30 + SZ] = VB[25:SZ]; the lowest-numbered register that matches gives DIA, CLS and TGT,
and without a match the access traps as RANGE, at both levels; with one whose R or W does not allow it, as PERM; MRNG comes first at
supervisor level (R337, R338, R394). -/
def Obligations.RangeMatch : Prop :=
  ∀ (s : State) (a : Nat) (rd wr : Bool), Config.globalBase ≤ a → a < 2 ^ 56 →
    let rs := if s.core.sup then s.core.spr.mrng :: s.core.spr.rg.toList else s.core.spr.rg.toList
    let hit (r : Word) : Prop :=
      r.getLsbD 0 = true ∧ bits a (30 + fld r 11 5) (26 - fld r 11 5) = bits (fld r 38 26) (fld r 11 5) (26 - fld r 11 5)
    let ok (r : Word) : Prop := (rd = true → r.getLsbD 1 = true) ∧ (wr = true → r.getLsbD 2 = true)
    ((∀ r ∈ rs, ¬hit r) → checkRegion s a rd wr false = .error (.range, a)) ∧
    (∀ pre r post, rs = pre ++ r :: post → (∀ x ∈ pre, ¬hit x) → hit r →
      (ok r → ∃ d, checkRegion s a rd wr false = .ok d ∧ d.cls = fld r 8 3 ∧ d.tgt = rgTgt r ∧
        d.place = (fld r 16 22 * 2 ^ 30 + (a - fld r 38 26 * 2 ^ 30)) % 2 ^ 52) ∧
      (¬ok r → checkRegion s a rd wr false = .error (.perm, a)))

/-- For a fixed key, mix64 is a bijection of the 64-bit counter: distinct counters give distinct outputs, every output comes, and mix64(0,
0) = 0; the random-bit queue's entries are its values (R45, R82). -/
def Obligations.MixBijection : Prop :=
  (∀ key a b : Nat, a < 2 ^ 64 → b < 2 ^ 64 → mix64 key a = mix64 key b → a = b) ∧
  (∀ key y : Nat, y < 2 ^ 64 → ∃ a < 2 ^ 64, mix64 key a = y) ∧ mix64 0 0 = 0 ∧
  ∀ seed g w : Nat, w < 16 → lane (rngEntry seed g) w 64 = mix64 seed (g * 16 + w)

/-! ## Decoding -/

/-- Slot words written out from the opcode maps and the field maps of their formats decode to the instructions that they stand for (R89, R92
to R98). -/
def Obligations.SlotWordsDecode : Prop :=
  decodeTableWord 32 0x0200C108 = some (.add { n := 0, g := 0, d := 3, a := 1, b := 2 }) ∧
  decodeTableWord 32 0x68380000 = some (.ldi { d := 7, i := 0 }) ∧
  decodeTableWord 32 0x843FFFFD = some (.brG { n := 0, g := 3, o := 0xFFFFD }) ∧
  decodeTableWord 32 0x8E020000 = some (.loopr { n := 0, g := 0, s := 1, o := 0 }) ∧
  decodeTableWord 32 0xD601C400 = some (.stD { n := 0, g := 0, d := 7, a := 4, i := 0 }) ∧
  decodeV 0x08020A31 0 0 = some (.vfma { g := 0, d := 4, a := 5, b := 6, f := 1, h := 0, e := 0 }) ∧
  decodeT 0x44000200 0 = some (.barArr { n := 0, g := 0, a := 2, b := 0, e := 0 }) ∧
  decodeT 0x06000084 8 = some (.xupdA { n := 0, g := 0, f := 0, a := 1, b := 2, e := 8 }) ∧
  decodeTableWord 32 0x3C000000 = none

/-- Decoding gives back every well-formed instruction from its slot word, with every operand (R10, R84 to R98). -/
def Obligations.DecodeEncode : Prop := ∀ (i : Instr) (x : SlotWord), i.wf = true → encode i = some x → decodeSlot x = some i

/-! ## Issue and commit -/

/-- What stands against a slot operation, in its order: a word that fails the checks of its slot, one of no opcode always, traps as ILLEGAL;
a guard that is off lets it only count its landings; a pending register that it reads stalls it. A bundle that stalls passes one cycle of
the tile and changes nothing else: time, the counts that run with it and the mark of its cause apart, every register, every byte, every
special register and every unit is as it was (R10, R90, R99, R100, R102). -/
def Obligations.IssueChecks : Prop :=
  (∀ (i : Instr) (s : State), (encode i).isSome = true → extOk i = true →
    let bad := legal i = false ∨ featOk s.hub.featacc i = false
    let on := (guardOf i).on s.core
    (bad → exec i s = trapOut s .illegal s.core.iss.slot (illegalTval i) .trapDecode) ∧
    (¬bad → on = false → exec i s = .next (finish (s.dead i))) ∧
    (¬bad → on = true → readsPending s.core i = true → exec i s = stallOut s i .stallSb)) ∧
  (∀ (o : OpUnassigned) (s : State), exec (.unassignedOpcode o) s = trapOut s .illegal s.core.iss.slot o.word .trapDecode) ∧
  ∀ (i : Instr) (s : State) (g : Tag), ∃ (p : Vector Nat 8) (k : Tag), stallOut s i g = .next { s with
    hub := s.hub.tick (s.die (tileDie s.self)).clk,
    core := { s.core with spr := { s.core.spr with cyc := s.core.spr.cyc + 1 }, mxWait := s.core.mxWait - 1,
                          chkWait := s.core.chkWait - 1, prof := p, iss := { s.core.iss with out := k } } }

/-- The step of a state whose next steps are listed is the first of them; that of a running tile whose fetched bytes hold one operation,
with nothing that stands at the boundary, is that operation's, issued alone in its slot and last (R84, R111, R393). That the list of next
steps goes first is the model's choice (log 4). -/
def Obligations.StepRunsBundle : Prop :=
  (∀ (s : State) (i : Instr) (a : List Nat) (rest : List (Instr × List Nat)), s.agenda = (i, a) :: rest →
    step s = exec i { s with args := a, agenda := rest }) ∧
  ∀ (s : State) (bs : List Nat) (p : Nat) (i : Instr), s.agenda = [] → s.mayIssue = true → s.core.task.pend = none →
    let s1 := s.onCore (fun t => { t with iss := Iss.reset })
    let b := decodeBundle bs
    s.core.osb.toList.any (·.refill) = false → fetch s1 = .bytes bs → decodeFault s1 b = none → s.core.chkWait = 0 →
    s.core.task.preq = false → regionExpired s1 = false → b.ops = [(p, i)] →
    (newLoads s.core [(p, i)] = 0 ∨ (s.core.reqs.filter isLoadReq).length + newLoads s.core [(p, i)] ≤ 16) →
    step s = exec i (atSlot s1 b p i true)

/-- The commit of a bundle whose effects are all landings: PC moves to the transfer's target or the next bundle, every result in flight is
one bundle nearer, a register of any file, a twin latch or FMT is written by the last result that has reached it and otherwise keeps its
value with its poison, the outstanding requests are one bundle older and the fetch is done, and nothing else of the module changes but time:
no byte of memory, no other tile, no unit, and of the special registers only PC, CYC, FMT by its landing and the region bit with the start
of the region (R51, R52, R100, R106, R111). The model's choices: the marks of poison (log 67) and the wrap of PC (log 73). -/
def Obligations.CommitFrame : Prop :=
  ∀ s : State, s.core.iss.last = true → s.core.iss.effs = [] →
    let i := s.core.iss
    let t := s.core
    let t' := (finish s).core
    let fl := t.flight ++ i.lands
    let due (l : Landing) : Prop := l ∈ fl ∧ l.d ≤ 1 ∧ l.live = true
    let names (w : Land) (n : Nat) : Prop := match w with | .vec k _ _ => k = n | .pair a b _ _ => a = n ∨ b = n | .octet ns _ => n ∈ ns | _ => False
    let last (w : Land) (p : Land → Prop) : Prop := ∃ pre post l, fl = pre ++ l :: post ∧ l.d ≤ 1 ∧ l.live = true ∧ l.what = w ∧
      ∀ k ∈ post, k.d ≤ 1 → k.live = true → ¬p k.what
    let sole (w : Land) (p : Land → Prop) : Prop := ∃ pre post l, fl = pre ++ l :: post ∧ l.d ≤ 1 ∧ l.live = true ∧ l.what = w ∧
      ∀ k ∈ pre ++ post, k.d ≤ 1 → k.live = true → ¬p k.what
    let vec (n : Nat) : VWord := t.regs.v.getD n 0
    let vec' (n : Nat) : VWord := t'.regs.v.getD n 0
    (finish s).mem = s.mem ∧ (finish s).poison = s.poison ∧ (finish s).others = s.others ∧ (finish s).mbs = s.mbs ∧
    (finish s).dies = s.dies ∧ (finish s).self = s.self ∧ (finish s).free = s.free ∧ (finish s).view = s.view ∧ (finish s).codes = s.codes ∧
    (finish s).hub = s.hub.tick (s.die (tileDie s.self)).clk ∧
    t'.spr.pc = i.npc.getD (BitVec.ofNat 64 ((t.spr.pc.toNat + 16) % 2 ^ 56)) ∧ t'.spr.cyc = t.spr.cyc + 1 ∧
    t'.spr.lc = t.spr.lc ∧ t'.spr.rotw = t.spr.rotw ∧ t'.spr.tcause = t.spr.tcause ∧ t'.spr.tpc = t.spr.tpc ∧
    t'.spr.tval = t.spr.tval ∧ t'.spr.taskid = t.spr.taskid ∧ t'.spr.bown = t.spr.bown ∧ t'.spr.wchk = t.spr.wchk ∧
    t'.spr.stage = t.spr.stage ∧ t'.spr.rg = t.spr.rg ∧ t'.spr.snap = t.spr.snap ∧ t'.spr.mvec = t.spr.mvec ∧
    t'.spr.mrng = t.spr.mrng ∧ t'.spr.mcsb = t.spr.mcsb ∧
    t'.spr.tstat = (if i.re then setFld t.spr.tstat 2 1 0 else if i.rb then setFld t.spr.tstat 2 1 1 else t.spr.tstat) ∧
    ((∀ l, due l → ∀ v, l.what ≠ .fmt v) → t'.spr.fmt = t.spr.fmt) ∧
    t'.tcq = t.tcq ∧ t'.chans = t.chans ∧ t'.osb = t.osb ∧ t'.slots = t.slots ∧ t'.rng = t.rng ∧ t'.stats = t.stats ∧
    t'.facets = t.facets ∧ t'.beads = t.beads ∧ t'.regs.accU = t.regs.accU ∧ t'.l1 = t.l1 ∧ t'.icache = t.icache ∧ t'.casts = t.casts ∧
    t'.notes = t.notes ∧ t'.snapPay = t.snapPay ∧ t'.snapEn = t.snapEn ∧ t'.snapPois = t.snapPois ∧ t'.snapOrd = t.snapOrd ∧ t'.snapDead = t.snapDead ∧
    t'.task = { t.task with regionStart := if i.rb then s.hub.gtc else t.task.regionStart } ∧
    t'.reqs = (t.reqs.filter (fun r => r.kind != .fetch)).map (fun r => if r.late = true ∧ r.pw ≠ 254 then r else { r with j := r.j + 1 }) ∧
    (finish s).args = s.args ∧ (finish s).agenda = s.agenda ∧ (finish s).turn = s.turn ∧
    (∀ l ∈ fl, 1 < l.d → { l with d := l.d - 1, j := l.j + 1 } ∈ t'.flight) ∧
    (∀ n, (∀ l, due l → ∀ v, l.what ≠ .sreg n v) → t'.regs.s.getD n 0 = t.regs.s.getD n 0) ∧
    (∀ n, (∀ l, due l → ∀ v, l.what ≠ .pred n v) → t'.regs.q.getD n false = t.regs.q.getD n false) ∧
    (∀ n, (∀ l, due l → ∀ e v, l.what ≠ .mask n e v) → t'.regs.m.getD n 0 = t.regs.m.getD n 0) ∧
    ((∀ l, due l → ∀ n r v k, l.what ≠ .acc n r v k) → t'.regs.acc = t.regs.acc) ∧
    ((∀ l, due l → ∀ v, l.what ≠ .twinS v) → t'.regs.twinS = t.regs.twinS) ∧
    ((∀ l, due l → ∀ e v, l.what ≠ .twinV e v) → (∀ l, due l → ∀ e v, l.what ≠ .twinM e v) → t'.regs.twinV = t.regs.twinV) ∧
    (∀ n, (∀ l, due l → ¬names l.what n) → vec' n = vec n ∧
      (n < 64 → (∀ l, due l → ∀ v, l.what ≠ .sreg (64 + n) v) → ((64 + n) ∈ t'.regs.pois ↔ (64 + n) ∈ t.regs.pois))) ∧
    (∀ n < 64, (∀ l, due l → ∀ v, l.what ≠ .sreg n v) → (n ∈ t'.regs.pois ↔ n ∈ t.regs.pois)) ∧
    (∀ pre post l n v, 0 < n → n < 64 → fl = pre ++ l :: post → l.d ≤ 1 → l.live = true → l.what = .sreg n v →
      (∀ k ∈ post, k.d ≤ 1 → k.live = true → ∀ w, k.what ≠ .sreg n w) → (n ∈ t'.regs.pois ↔ l.pois = true)) ∧
    (∀ n v, 0 < n → n < 64 → last (.sreg n v) (fun k => ∃ w, k = .sreg n w) → t'.regs.s.getD n 0 = v) ∧
    (∀ n v, 0 < n → n < 16 → last (.pred n v) (fun k => ∃ w, k = .pred n w) → t'.regs.q.getD n false = v) ∧
    (∀ n en v, n < 8 → sole (.mask n en v) (fun k => ∃ e w, k = .mask n e w) →
      t'.regs.m.getD n 0 = (t.regs.m.getD n 0 &&& ~~~en) ||| (v &&& en)) ∧
    (∀ n en v, n < 64 → sole (.vec n en v) (fun k => names k n) →
      ∀ b < 128, lane (vec' n) b 8 = if bit en.toNat (b / 2) then lane v b 8 else lane (vec n) b 8) ∧
    (∀ a b v w, a < 64 → b < 64 → a ≠ b →
      (last (.pair a b v w) (fun k => names k a) → vec' a = v) ∧ (last (.pair a b v w) (fun k => names k b) → vec' b = w)) ∧
    (∀ (ns : List Nat) (vs : List VWord) (k n : Nat) (v : VWord), ns.Nodup → ns[k]? = some n → vs[k]? = some v → n < 64 → last (.octet ns vs) (fun k => names k n) → vec' n = v) ∧
    (∀ n rows vs k, n < 8 → sole (.acc n rows vs k) (fun k => ∃ m r w q, k = .acc m r w q) → ∀ i < 512,
      t'.regs.acc.getD i 0 = if i / 64 = n ∧ bit rows (i % 64 / 8) = true then vs.getD (i % 64) 0 else t.regs.acc.getD i 0) ∧
    (∀ v, last (.fmt v) (fun k => ∃ w, k = .fmt w) → t'.spr.fmt = v) ∧
    (∀ v, last (.twinS v) (fun k => ∃ w, k = .twinS w) → t'.regs.twinS = v) ∧
    (∀ en v, sole (.twinV en v) (fun k => (∃ e w, k = .twinV e w) ∨ ∃ e w, k = .twinM e w) →
      ∀ b < 128, lane t'.regs.twinV b 8 = if bit en.toNat (b / 2) then lane v b 8 else lane t.regs.twinV b 8) ∧
    (∀ en v, sole (.twinM en v) (fun k => (∃ e w, k = .twinV e w) ∨ ∃ e w, k = .twinM e w) →
      ∀ b < 64, t'.regs.twinV.getLsbD b = if en.getLsbD b then v.getLsbD b else t.regs.twinV.getLsbD b) ∧
    t'.sreg 0 = 0 ∧ t'.pred 0 = true

/-- The commit of a bundle with one effect. A store: every byte outside those that it enables reads as before; where no poison is marked,
the enabled bytes of a scratchpad store in the linear view hold its data; a store of the other classes changes no byte and becomes the
tile's last request. That a scratchpad store is performed at the commit is the model's reading (log 6); where storage holds an error not yet
found, a partial write may find it (log 49). A load where no storage holds an error, a request, a write of a special register, of LC or of
the wheel, a seed, or an entry taken: no byte of memory changes, no register where nothing lands, no unit, and no special register but the
one written and those that count or compute (R7, R26, R53, R111, R173). -/
def Obligations.CommitEffects : Prop :=
  (∀ (s : State) (r : Req), s.core.iss.last = true → s.core.iss.effs = [.store r] →
    (r.cls = 8 → s.codes.flaws = [] → (swzVa r.va = true → r.size = 128 → r.va % 128 = 0) →
      ∀ a, (∀ k < r.size, bit r.enb k = true → a ≠ viewPlace r.cls r.place r.va r.size k) →
        memGet (finish s).mem a = memGet s.mem a) ∧
    (r.cls = 8 → s.codes.flaws = [] → s.poison = [] → swzVa r.va = false → ∀ k < r.size, bit r.enb k = true →
      (memGet (finish s).mem (r.place + k)).toNat = bits r.data (8 * k) 8) ∧
    (r.cls ≠ 8 → (finish s).mem = s.mem ∧
      (r.kind = .st → r.late = false → (finish s).core.reqs.getLast? = some { r with j := r.j + 1 }))) ∧
  ∀ (s : State) (e : Eff), s.core.iss.last = true → s.core.iss.effs = [e] → s.core.iss.lands = [] → s.core.flight = [] →
    s.core.iss.rb = false → s.core.iss.re = false →
    (match e with | .load r => s.codes.flaws = [] ∧ (hasSlice r.place = false ∨ s.poison = []) | .req _ | .spec _ _ | .lc _ | .rotw _ | .seed _ | .pop => True | _ => False) →
    let u := finish s
    let written (n : Nat) : Prop := match e with | .spec i _ => n = i | .lc _ => n = 3 | .rotw _ => n = 5 | _ => False
    u.mem = s.mem ∧ u.poison = s.poison ∧ u.others = s.others ∧ u.mbs = s.mbs ∧ u.dies = s.dies ∧ u.core.regs = s.core.regs ∧
      u.core.tcq = s.core.tcq ∧ u.core.chans = s.core.chans ∧ u.core.osb = s.core.osb ∧ u.core.stats = s.core.stats ∧
      u.core.facets = s.core.facets ∧ u.core.beads = s.core.beads ∧
      (∀ n, n ≠ 0 → n ≠ 11 → n ≠ 12 → n ≠ 15 → ¬written n → readSpec u n = readSpec s n) ∧
      ((∀ v, e ≠ .seed v) → e ≠ .pop → u.core.rng = s.core.rng)

/-! ## Traps, storage and reset -/

/-- Taking an exception with a cause, slot, value and address: the three trap registers record them, the level becomes supervisor, the
region ends and PC is the address of MVEC; from task level, where the tile has a monitor, PSUP is 0, the context image is stored at the save
area with its VALID bit and every register in its place, no byte outside it changes where no pre-emption waits, and the task is away; from
supervisor level PSUP is 1 and no byte of memory changes; a tile without a monitor stops. A return within the monitor goes back to TPC with
its level, but where a live SNAP entry of an AMO holds a failure, that is taken before its first bundle (R31, R162, R395 to R397, R407,
R522). That the image is stored in one step is the model's reading (log 15), and so are the marks of poisoned registers, which lie in it as
poison (log 67). -/
def Obligations.TrapsAndReturns : Prop :=
  ∀ (s : State) (c : Cause) (slot v : Nat) (p : Word), slot < 16 → v < 2 ^ 64 →
    let t := s.core
    let s' := takeTrap s c slot v p
    let t' := s'.core
    let r := returnSupervisor s
    (t'.spr.tcause = BitVec.ofNat 64 (fld t.spr.tstat 2 1 * 4096 + slot * 256 + c.code) ∧ t'.spr.tpc = p ∧
      t'.spr.tval = BitVec.ofNat 64 v ∧ t'.sup = true ∧ t'.inreg = false) ∧
    (t.sup = true → fld t'.spr.tstat 1 1 = 1 ∧ t'.spr.pc = BitVec.ofNat 64 (fld t.spr.mvec 4 52 * 16) ∧ s'.mem = s.mem ∧
      t'.regs = t.regs ∧ t'.task.run = .running ∧ t'.flight = []) ∧
    (t.sup = false → fld t.spr.mcsb 6 1 = 1 → fld t'.spr.tstat 1 1 = 0 ∧ t'.spr.pc = BitVec.ofNat 64 (fld t.spr.mvec 4 52 * 16) ∧
      t'.task.run = .running ∧ t'.task.away = true ∧ t'.flight = [] ∧ t'.tcq = []) ∧
    (t.sup = false → fld t.spr.mcsb 6 1 = 1 → t.task.preqRecs = [] →
      let k := saveArea s s.self
      let tstat := if c = .twin then setFld t.spr.tstat 3 1 1 else t.spr.tstat
      let u := { t with fetchRg := [], task := { t.task with pend := none }, spr := { t.spr with
        tcause := t'.spr.tcause, tpc := t'.spr.tpc, tval := t'.spr.tval, tstat := tstat, wchk := t'.spr.wchk } }.latch.sfltStands
      let loads := (sortReqs (t.reqs.filter (fun r => isLoadReq r && r.st != .done))).take 16
      let image := imageWords ((u.reqs.filter (fun r => isLoadReq r && r.st == .done)).foldl (fun x r => r.deliver x) u) tstat
        (t.task.run == .frozen) s.hub.gtc ((u.spr.snap.toList.map (·.toNat)).filter (· != 0)) (u.snapPay.map (·.2)) loads
      let w (n : Nat) : Nat := readN s' (k + n) 8
      (s.memOk = true → s'.mem = memWrite s.mem k ((image.map (toBytes 8)).flatten)) ∧
      (∀ a, a < k ∨ k + 16384 ≤ a → memGet s'.mem a = memGet s.mem a) ∧
      (t.flight = [] → t.reqs = [] → t.tcq.length ≤ 16 →
        t'.regs = t.regs ∧ bit (w 0) 63 = true ∧ w 0x08 = p.toNat ∧ w 0x10 = t'.spr.tcause.toNat ∧ w 0x18 = v ∧ w 0x20 = tstat.toNat ∧
        w 0x28 = s.hub.gtc % 2 ^ 64 ∧ w 0x30 = t.spr.cyc.toNat ∧ w 0x40 = t.spr.fmt.toNat ∧ w 0x48 = t.spr.lc.toNat ∧ w 0x50 = 0 ∧
        w 0x58 = t.spr.rotw.toNat ∧ w 0x70 = t.spr.taskid.toNat ∧ w 0x78 = t.spr.bown.toNat ∧ w 0x80 = t.spr.stage.toNat ∧
        w 0x88 = t'.spr.wchk.toNat ∧ (∀ i < 8, w (0x90 + 8 * i) = (t.spr.rg.getD i 0).toNat) ∧ w 0xD0 = t.rng.seed.toNat ∧
        w 0xE8 = t.regs.twinS.toNat ∧ w 0x100 = 0 ∧ (∀ n < 64, n ≠ 0 → w (0x100 + 8 * n) = (t.regs.s.getD n 0).toNat) ∧
        (∀ n < 8, w (0x300 + 8 * n) = (t.regs.m.getD n 0).toNat) ∧
        (∀ n < 16, bit (w 0xE0) n = (n == 0 || t.regs.q.getD n false)) ∧
        (∀ i < 16, w (0x440 + 8 * i) = lane t.regs.twinV i 64) ∧
        (∀ n < 64, ∀ i < 16, w (0x900 + 128 * n + 8 * i) = lane (t.regs.v.getD n 0) i 64) ∧
        (∀ i < 512, readN s' (k + 0x2900 + 4 * i) 4 = (t.regs.acc.getD i 0).toNat) ∧
        ∀ n < 64, n ≠ 0 → (n ∈ t.regs.pois ↔ (poisonAt s' (k + 0x100 + 8 * n) 8).isSome = true))) ∧
    (t.sup = false → fld t.spr.mcsb 6 1 = 0 → t'.task.run = .haltedNoMon ∧ t'.spr.pc = p) ∧
    (fld t.spr.tstat 1 1 = 1 → (∀ q ∈ t.reqs, q.st ≠ .poisoned ∧ q.st ≠ .page ∧ q.st ≠ .perm) →
      (∀ w ∈ t.spr.snap.toList, fld w 63 1 = 1 → fld w 59 4 = 12 → fld w 52 1 = 1 ∨ fld w 53 2 = 0) →
      r.core.spr.pc = t.spr.tpc ∧ fld r.core.spr.tstat 0 1 = 1 ∧ fld r.core.spr.tstat 2 1 = fld t.spr.tcause 12 1 ∧ r.mem = s.mem) ∧
    (∀ n < 32, fld t.spr.tstat 1 1 = 1 → t.reqs = [] → (∀ k < 32, k ≠ n → t.spr.snap.getD k 0 = 0) →
      let w := t.spr.snap.getD n 0
      fld w 63 1 = 1 → fld w 59 4 = 12 → fld w 52 1 = 0 → fld w 53 2 ≠ 0 →
      r.core.spr.tcause.toNat % 4096 = 15 * 256 + (if fld w 53 2 = 1 then Cause.poison else if fld w 53 2 = 2 then .page else .perm).code ∧
      r.core.spr.tval = BitVec.ofNat 64 (mget 0 t.snapPay (fld w 8 9)) ∧ r.core.spr.tpc = t.spr.tpc ∧ r.core.sup = true ∧ r.mem = s.mem)

/-- Every step keeps storage in its canonical form: the addresses of the listed bytes rise, and none of them is listed with the value of an
unlisted one. The form is the model's own representation of storage (log 1). -/
def Obligations.MemoryKept : Prop := ∀ s s' : State, s.memOk = true → step s = .next s' → s'.memOk = true

/-- The module right after reset: every tile at supervisor level and halted, no task, no result in flight, no accepted feature, GTC 0; every
facet's FCFG at its reset value, every staging buffer EMPTY, every window closed (R17, R24 to R48); storage in its canonical form, which is
the model's representation (log 1). GTC and every value for which the spec states none are the model's choice (log 2). -/
def Obligations.ResetState : Prop :=
  let s := State.reset
  s.memOk = true ∧ s.agenda = [] ∧ s.mayIssue = false ∧ s.hub.gtc = 0 ∧ s.hub.featacc = 0 ∧
    ∀ t < 1024,
      let x := s.tile t
      x.sup = true ∧ x.task.run = .idle ∧ x.task.launch = none ∧ x.flight = [] ∧ x.reqs = [] ∧ x.tcq = [] ∧ x.spr.lc = 0 ∧
      x.spr.rotw = 0 ∧ x.spr.fmt = 0 ∧ (∀ f, (x.facet f).fcfg = fcfgReset) ∧ (∀ b < 4, (x.buf b).st = 0) ∧
      (∀ c < 8, (x.chan c).lo = 0 ∧ (x.chan c).hi = 0)
end

