-- ==== Sys2Proof/Laws/Issue.lean ====
section
/-! SUPPORT. What issue answers, case by case (R90, R99, R102, R392). -/

namespace Sys2Proof.Machine

theorem issueOn_runs (i : Instr) (op : Op) (s : State) (hw : writesPending s.core i s.core.diverted = none) (ht : op.trap = none)
    (hc : op.wchk = none) (hx : op.twin = none) (hz : op.waitSb = false) (hq : op.wait = false) :
    issueOn i op s = .next (finish (op.run s)) := by
  simp [issueOn, hw, ht, hc, hx, hz, hq]

theorem issue_decodes (i : Instr) (op : Op) (s : State) (h : Decodes i s) (hr : readsPending s.core i = false) :
    issue i op s = issueOn i op s := by
  obtain ⟨h1, h2, h3, h4⟩ := h
  simp [issue, h1, h2, h3, h4, hr]

/-- An operation that may take effect, with no cause of its own and nothing to wait for, runs. -/
theorem issue_enabled (i : Instr) (op : Op) (s : State) (h : Enabled i s) (ht : op.trap = none) (hc : op.wchk = none)
    (hx : op.twin = none) (hz : op.waitSb = false) (hq : op.wait = false) : issue i op s = .next (finish (op.run s)) := by
  rw [issue_decodes i op s h.1 h.2.1, issueOn_runs i op s h.2.2 ht hc hx hz hq]

/-- A guarded-off operation only counts its landing. -/
theorem issue_off (i : Instr) (op : Op) (s : State) (h1 : extOk i = true) (h2 : legal i = true) (h3 : featOk s.hub.featacc i = true)
    (h4 : (guardOf i).on s.core = false) : issue i op s = .next (finish (s.dead i)) := by
  simp [issue, h1, h2, h3, h4]

/-- An operation that reads a pending register stalls. -/
theorem issue_stall (i : Instr) (op : Op) (s : State) (h : Decodes i s) (hr : readsPending s.core i = true) :
    issue i op s = stallOut s i .stallSb := by
  obtain ⟨h1, h2, h3, h4⟩ := h
  simp [issue, h1, h2, h3, h4, hr]

/-- An operation whose own cause stands traps with it. -/
theorem issue_trap (i : Instr) (op : Op) (s : State) (h : Enabled i s) (c : Cause) (v : Nat) (ht : op.trap = some (c, v)) :
    issue i op s = trapOut s c s.core.iss.slot v .trapIssue := by
  rw [issue_decodes i op s h.1 h.2.1]
  simp [issueOn, h.2.2, ht]

/-- An operation that needs a staging buffer that is being filled waits on the scoreboard (R102, R271). -/
theorem issue_waitSb (i : Instr) (op : Op) (s : State) (h : Enabled i s) (ht : op.trap = none) (hz : op.waitSb = true) : issue i op s = stallOut s i .stallSb := by
  rw [issue_decodes i op s h.1 h.2.1]
  simp [issueOn, h.2.2, ht, hz]

/-- An operation that has nothing against it but something to wait for stalls. -/
theorem issue_wait (i : Instr) (op : Op) (s : State) (h : Enabled i s) (ht : op.trap = none) (hc : op.wchk = none)
    (hx : op.twin = none) (hz : op.waitSb = false) (hq : op.wait = true) : issue i op s = stallOut s i .stall := by
  rw [issue_decodes i op s h.1 h.2.1]
  simp [issueOn, h.2.2, ht, hc, hx, hz, hq]

/-- A word that fails a check of its slot traps as ILLEGAL. -/
theorem issue_illegal (i : Instr) (op : Op) (s : State) (h1 : extOk i = true) (h2 : legal i = false ∨ featOk s.hub.featacc i = false) :
    issue i op s = trapOut s .illegal s.core.iss.slot (illegalTval i) .trapDecode := by
  rcases h2 with h | h <;> simp [issue, h1, h]

end Sys2Proof.Machine
end

