-- ==== Sys2Proof/Laws/Bits.lean ====
section
/-! SUPPORT. Fields, sign extension and wrapping as bit-vector operations. -/

namespace Sys2Proof.Machine

theorem bits_lt (x lo w : Nat) : bits x lo w < 2 ^ w := Nat.mod_lt _ (Nat.two_pow_pos w)

theorem sext_toNat (a : Word) : sext a.toNat 64 = a.toInt := by
  have h := a.isLt
  rw [sext, Nat.mod_eq_of_lt h, BitVec.toInt_eq_toNat_cond]
  by_cases hc : a.toNat < 2 ^ (64 - 1)
  · have hd : 2 * a.toNat < 2 ^ 64 := by omega
    simp only [hc, hd, if_true]
  · have hd : ¬2 * a.toNat < 2 ^ 64 := by omega
    simp only [hc, hd, if_false]; norm_num

theorem ofNat_wrap (x : Int) : BitVec.ofNat 64 (wrap 64 x) = BitVec.ofInt 64 x := by
  apply BitVec.eq_of_toNat_eq
  rw [BitVec.toNat_ofNat, BitVec.toNat_ofInt, wrap]
  have h : (x % 2 ^ 64).toNat < 2 ^ 64 := by omega
  rw [Nat.mod_eq_of_lt h]
  norm_num

theorem sext_small (x w : Nat) (hw : 0 < w) : sext x w = (BitVec.ofNat w x).toInt := by
  rw [sext, BitVec.toInt_eq_toNat_cond, BitVec.toNat_ofNat]
  have hp : 2 ^ w = 2 * 2 ^ (w - 1) := by
    obtain ⟨k, rfl⟩ : ∃ k, w = k + 1 := ⟨w - 1, by omega⟩
    rw [pow_succ, Nat.add_sub_cancel, mul_comm]
  by_cases hc : x % 2 ^ w < 2 ^ (w - 1)
  · have hd : 2 * (x % 2 ^ w) < 2 ^ w := by omega
    simp only [hc, hd, if_true]
  · have hd : ¬2 * (x % 2 ^ w) < 2 ^ w := by omega
    simp only [hc, hd, if_false]; push_cast; rfl

theorem ofNat_sx64 (x w : Nat) (hw : 0 < w) : BitVec.ofNat 64 (sx64 x w) = (BitVec.ofNat w x).signExtend 64 := by
  rw [sx64, ofNat_wrap, sext_small x w hw]; rfl

theorem sx64_lt (x w : Nat) : sx64 x w < 2 ^ 64 := by
  rw [sx64, wrap]; omega

theorem land_toNat (s : State) (k d v : Nat) : s.landS k d v = s.withS k d (BitVec.ofNat 64 v) := rfl

theorem ofNat_imm (i : Fin 256) : (BitVec.ofNat 64 i.val).toNat = i.val := by
  rw [BitVec.toNat_ofNat]; omega

theorem sx64_toNat (x w : Nat) (hw : 0 < w) : sx64 x w = ((BitVec.ofNat w x).signExtend 64).toNat := by
  rw [← ofNat_sx64 x w hw, BitVec.toNat_ofNat, Nat.mod_eq_of_lt (sx64_lt _ _)]

/-! ## The scalar operations -/

theorem aluAdd_eq (a b : Word) : BitVec.ofNat 64 (aluAdd a.toNat b.toNat) = a + b := by
  simp [aluAdd, BitVec.ofNat_add]
theorem aluSub_eq (a b : Word) : BitVec.ofNat 64 (aluSub a.toNat b.toNat) = a - b := by
  apply BitVec.eq_of_toNat_eq; simp [aluSub, BitVec.toNat_sub]; omega
theorem aluAnd_eq (a b : Word) : BitVec.ofNat 64 (aluAnd a.toNat b.toNat) = a &&& b := by
  apply BitVec.eq_of_toNat_eq; simp only [aluAnd, ← BitVec.toNat_and, BitVec.ofNat_toNat, BitVec.setWidth_eq]
theorem aluOr_eq (a b : Word) : BitVec.ofNat 64 (aluOr a.toNat b.toNat) = a ||| b := by
  simp only [aluOr, ← BitVec.toNat_or, BitVec.ofNat_toNat, BitVec.setWidth_eq]
theorem aluXor_eq (a b : Word) : BitVec.ofNat 64 (aluXor a.toNat b.toNat) = a ^^^ b := by
  simp only [aluXor, ← BitVec.toNat_xor, BitVec.ofNat_toNat, BitVec.setWidth_eq]
theorem aluAndn_eq (a b : Word) : BitVec.ofNat 64 (aluAndn a.toNat b.toNat) = a &&& ~~~b := by
  simp only [aluAndn, ← BitVec.toNat_xor,← BitVec.toNat_and, BitVec.ofNat_toNat, BitVec.setWidth_eq]
  ext i; simp; cases a[i] <;> cases b[i] <;> rfl
theorem aluShl_eq (a : Word) (n : Nat) : BitVec.ofNat 64 (aluShl a.toNat n) = a <<< (n % 64) := by
  apply BitVec.eq_of_toNat_eq; simp [aluShl, Nat.shiftLeft_eq]
theorem aluShr_eq (a : Word) (n : Nat) : BitVec.ofNat 64 (aluShr a.toNat n) = a >>> (n % 64) := by
  apply BitVec.eq_of_toNat_eq; rw [BitVec.toNat_ushiftRight, BitVec.toNat_ofNat, aluShr, Nat.shiftRight_eq_div_pow]
  exact Nat.mod_eq_of_lt (lt_of_le_of_lt (Nat.div_le_self _ _) a.isLt)
theorem aluSra_eq (a : Word) (n : Nat) : BitVec.ofNat 64 (aluSra a.toNat n) = a.sshiftRight (n % 64) := by
  rw [aluSra, ofNat_wrap, sext_toNat, BitVec.sshiftRight, Int.shiftRight_eq_div_pow]; norm_cast
theorem aluMul_eq (a b : Word) : BitVec.ofNat 64 (aluMul a.toNat b.toNat) = a * b := by
  simp [aluMul, BitVec.ofNat_mul]
theorem aluMinI_eq (a b : Word) : BitVec.ofNat 64 (aluMinI a.toNat b.toNat) = if b.slt a then b else a := by
  simp only [aluMinI, sext_toNat, BitVec.slt, decide_eq_true_eq]; split <;> simp
theorem aluMaxI_eq (a b : Word) : BitVec.ofNat 64 (aluMaxI a.toNat b.toNat) = if a.slt b then b else a := by
  simp only [aluMaxI, sext_toNat, BitVec.slt, decide_eq_true_eq]; split <;> simp
theorem aluMinN_eq (a b : Word) : BitVec.ofNat 64 (aluMinN a.toNat b.toNat) = if b < a then b else a := by
  simp only [aluMinN, BitVec.lt_def]; split
  · rw [show a.toNat.min b.toNat = b.toNat from Nat.min_eq_right (by omega)]; simp
  · rw [show a.toNat.min b.toNat = a.toNat from Nat.min_eq_left (by omega)]; simp
theorem aluMaxN_eq (a b : Word) : BitVec.ofNat 64 (aluMaxN a.toNat b.toNat) = if a < b then b else a := by
  simp only [aluMaxN, BitVec.lt_def]; split
  · rw [show a.toNat.max b.toNat = b.toNat from Nat.max_eq_right (by omega)]; simp
  · rw [show a.toNat.max b.toNat = a.toNat from Nat.max_eq_left (by omega)]; simp

theorem popc_eq (n x : Nat) : popc n x = (List.range n).countP (fun k => x.testBit k) := by
  induction n generalizing x with
  | zero => rfl
  | succ n ih =>
    rw [popc, ih, List.range_succ_eq_map, List.countP_cons, List.countP_map]
    have : (fun k => x.testBit k) ∘ Nat.succ = fun k => (x / 2).testBit k := by
      funext k; simp [Nat.testBit_succ]
    rw [this]; simp [Nat.testBit_zero]; 
    rcases Nat.mod_two_eq_zero_or_one x with h | h <;> simp [h, Nat.add_comm]

/-- An enabled scalar operation has its result under way. -/
theorem scalarOut_enabled (i : Instr) (k d r : Nat) (s : State) (h : Enabled i s) (v : Word) (hv : BitVec.ofNat 64 r = v) :
   scalarOut i k d r s = .next (finish (s.withS k d v)) := by
  rw [scalarOut, issue_enabled i _ s h rfl rfl rfl rfl rfl]; subst hv; rfl


end Sys2Proof.Machine
end

