-- ==== Sys2Proof/Laws/State.lean ====
section
/-! SUPPORT. One lemma for each field of the state under each named update: what the update leaves alone, and what it changes. -/

namespace Sys2Proof.Machine

/-! ## The whole state -/

@[simp] theorem State.onCore_self (s : State) (f : Tile → Tile) : (s.onCore f).self = s.self := rfl
@[simp] theorem State.onCore_others (s : State) (f : Tile → Tile) : (s.onCore f).others = s.others := rfl
@[simp] theorem State.onCore_mem (s : State) (f : Tile → Tile) : (s.onCore f).mem = s.mem := rfl
@[simp] theorem State.onCore_poison (s : State) (f : Tile → Tile) : (s.onCore f).poison = s.poison := rfl
@[simp] theorem State.onCore_view (s : State) (f : Tile → Tile) : (s.onCore f).view = s.view := rfl
@[simp] theorem State.onCore_codes (s : State) (f : Tile → Tile) : (s.onCore f).codes = s.codes := rfl
@[simp] theorem State.onCore_mbs (s : State) (f : Tile → Tile) : (s.onCore f).mbs = s.mbs := rfl
@[simp] theorem State.onCore_dies (s : State) (f : Tile → Tile) : (s.onCore f).dies = s.dies := rfl
@[simp] theorem State.onCore_hub (s : State) (f : Tile → Tile) : (s.onCore f).hub = s.hub := rfl
@[simp] theorem State.onCore_args (s : State) (f : Tile → Tile) : (s.onCore f).args = s.args := rfl
@[simp] theorem State.onCore_agenda (s : State) (f : Tile → Tile) : (s.onCore f).agenda = s.agenda := rfl
@[simp] theorem State.onCore_turn (s : State) (f : Tile → Tile) : (s.onCore f).turn = s.turn := rfl
@[simp] theorem State.onCore_free (s : State) (f : Tile → Tile) : (s.onCore f).free = s.free := rfl
@[simp] theorem State.onCore_core (s : State) (f : Tile → Tile) : (s.onCore f).core = f s.core := rfl

@[simp] theorem State.onHub_core (s : State) (f : Hub → Hub) : (s.onHub f).core = s.core := rfl
@[simp] theorem State.onHub_self (s : State) (f : Hub → Hub) : (s.onHub f).self = s.self := rfl
@[simp] theorem State.onHub_others (s : State) (f : Hub → Hub) : (s.onHub f).others = s.others := rfl
@[simp] theorem State.onHub_mem (s : State) (f : Hub → Hub) : (s.onHub f).mem = s.mem := rfl
@[simp] theorem State.onHub_poison (s : State) (f : Hub → Hub) : (s.onHub f).poison = s.poison := rfl
@[simp] theorem State.onHub_view (s : State) (f : Hub → Hub) : (s.onHub f).view = s.view := rfl
@[simp] theorem State.onHub_codes (s : State) (f : Hub → Hub) : (s.onHub f).codes = s.codes := rfl
@[simp] theorem State.onHub_mbs (s : State) (f : Hub → Hub) : (s.onHub f).mbs = s.mbs := rfl
@[simp] theorem State.onHub_dies (s : State) (f : Hub → Hub) : (s.onHub f).dies = s.dies := rfl
@[simp] theorem State.onHub_args (s : State) (f : Hub → Hub) : (s.onHub f).args = s.args := rfl
@[simp] theorem State.onHub_agenda (s : State) (f : Hub → Hub) : (s.onHub f).agenda = s.agenda := rfl
@[simp] theorem State.onHub_turn (s : State) (f : Hub → Hub) : (s.onHub f).turn = s.turn := rfl
@[simp] theorem State.onHub_free (s : State) (f : Hub → Hub) : (s.onHub f).free = s.free := rfl
@[simp] theorem State.onHub_hub (s : State) (f : Hub → Hub) : (s.onHub f).hub = f s.hub := rfl

@[simp] theorem State.setDie_core (s : State) (d : Nat) (x : Die) : (s.setDie d x).core = s.core := rfl
@[simp] theorem State.setDie_self (s : State) (d : Nat) (x : Die) : (s.setDie d x).self = s.self := rfl
@[simp] theorem State.setDie_others (s : State) (d : Nat) (x : Die) : (s.setDie d x).others = s.others := rfl
@[simp] theorem State.setDie_mem (s : State) (d : Nat) (x : Die) : (s.setDie d x).mem = s.mem := rfl
@[simp] theorem State.setDie_poison (s : State) (d : Nat) (x : Die) : (s.setDie d x).poison = s.poison := rfl
@[simp] theorem State.setDie_view (s : State) (d : Nat) (x : Die) : (s.setDie d x).view = s.view := rfl
@[simp] theorem State.setDie_codes (s : State) (d : Nat) (x : Die) : (s.setDie d x).codes = s.codes := rfl
@[simp] theorem State.setDie_mbs (s : State) (d : Nat) (x : Die) : (s.setDie d x).mbs = s.mbs := rfl
@[simp] theorem State.setDie_hub (s : State) (d : Nat) (x : Die) : (s.setDie d x).hub = s.hub := rfl
@[simp] theorem State.setDie_args (s : State) (d : Nat) (x : Die) : (s.setDie d x).args = s.args := rfl
@[simp] theorem State.setDie_agenda (s : State) (d : Nat) (x : Die) : (s.setDie d x).agenda = s.agenda := rfl
@[simp] theorem State.setDie_turn (s : State) (d : Nat) (x : Die) : (s.setDie d x).turn = s.turn := rfl
@[simp] theorem State.setDie_free (s : State) (d : Nat) (x : Die) : (s.setDie d x).free = s.free := rfl
@[simp] theorem State.setDie_dies (s : State) (d : Nat) (x : Die) : (s.setDie d x).dies = mset s.dies d x := rfl

@[simp] theorem State.onDie_core (s : State) (d : Nat) (f : Die → Die) : (s.onDie d f).core = s.core := rfl
@[simp] theorem State.onDie_self (s : State) (d : Nat) (f : Die → Die) : (s.onDie d f).self = s.self := rfl
@[simp] theorem State.onDie_others (s : State) (d : Nat) (f : Die → Die) : (s.onDie d f).others = s.others := rfl
@[simp] theorem State.onDie_mem (s : State) (d : Nat) (f : Die → Die) : (s.onDie d f).mem = s.mem := rfl
@[simp] theorem State.onDie_poison (s : State) (d : Nat) (f : Die → Die) : (s.onDie d f).poison = s.poison := rfl
@[simp] theorem State.onDie_view (s : State) (d : Nat) (f : Die → Die) : (s.onDie d f).view = s.view := rfl
@[simp] theorem State.onDie_codes (s : State) (d : Nat) (f : Die → Die) : (s.onDie d f).codes = s.codes := rfl
@[simp] theorem State.onDie_mbs (s : State) (d : Nat) (f : Die → Die) : (s.onDie d f).mbs = s.mbs := rfl
@[simp] theorem State.onDie_hub (s : State) (d : Nat) (f : Die → Die) : (s.onDie d f).hub = s.hub := rfl
@[simp] theorem State.onDie_args (s : State) (d : Nat) (f : Die → Die) : (s.onDie d f).args = s.args := rfl
@[simp] theorem State.onDie_agenda (s : State) (d : Nat) (f : Die → Die) : (s.onDie d f).agenda = s.agenda := rfl
@[simp] theorem State.onDie_turn (s : State) (d : Nat) (f : Die → Die) : (s.onDie d f).turn = s.turn := rfl
@[simp] theorem State.onDie_free (s : State) (d : Nat) (f : Die → Die) : (s.onDie d f).free = s.free := rfl
@[simp] theorem State.onDie_dies (s : State) (d : Nat) (f : Die → Die) : (s.onDie d f).dies = mset s.dies d (f (s.die d)) := rfl

@[simp] theorem State.setQueue_core (s : State) (q : Nat) (x : Queue) : (s.setQueue q x).core = s.core := rfl
@[simp] theorem State.setQueue_self (s : State) (q : Nat) (x : Queue) : (s.setQueue q x).self = s.self := rfl
@[simp] theorem State.setQueue_others (s : State) (q : Nat) (x : Queue) : (s.setQueue q x).others = s.others := rfl
@[simp] theorem State.setQueue_mem (s : State) (q : Nat) (x : Queue) : (s.setQueue q x).mem = s.mem := rfl
@[simp] theorem State.setQueue_poison (s : State) (q : Nat) (x : Queue) : (s.setQueue q x).poison = s.poison := rfl
@[simp] theorem State.setQueue_view (s : State) (q : Nat) (x : Queue) : (s.setQueue q x).view = s.view := rfl
@[simp] theorem State.setQueue_codes (s : State) (q : Nat) (x : Queue) : (s.setQueue q x).codes = s.codes := rfl
@[simp] theorem State.setQueue_mbs (s : State) (q : Nat) (x : Queue) : (s.setQueue q x).mbs = s.mbs := rfl
@[simp] theorem State.setQueue_hub (s : State) (q : Nat) (x : Queue) : (s.setQueue q x).hub = s.hub := rfl
@[simp] theorem State.setQueue_args (s : State) (q : Nat) (x : Queue) : (s.setQueue q x).args = s.args := rfl
@[simp] theorem State.setQueue_agenda (s : State) (q : Nat) (x : Queue) : (s.setQueue q x).agenda = s.agenda := rfl
@[simp] theorem State.setQueue_turn (s : State) (q : Nat) (x : Queue) : (s.setQueue q x).turn = s.turn := rfl
@[simp] theorem State.setQueue_free (s : State) (q : Nat) (x : Queue) : (s.setQueue q x).free = s.free := rfl

@[simp] theorem State.setStage_core (s : State) (d i : Nat) (x : Stage) : (s.setStage d i x).core = s.core := rfl
@[simp] theorem State.setStage_self (s : State) (d i : Nat) (x : Stage) : (s.setStage d i x).self = s.self := rfl
@[simp] theorem State.setStage_others (s : State) (d i : Nat) (x : Stage) : (s.setStage d i x).others = s.others := rfl
@[simp] theorem State.setStage_mem (s : State) (d i : Nat) (x : Stage) : (s.setStage d i x).mem = s.mem := rfl
@[simp] theorem State.setStage_poison (s : State) (d i : Nat) (x : Stage) : (s.setStage d i x).poison = s.poison := rfl
@[simp] theorem State.setStage_view (s : State) (d i : Nat) (x : Stage) : (s.setStage d i x).view = s.view := rfl
@[simp] theorem State.setStage_codes (s : State) (d i : Nat) (x : Stage) : (s.setStage d i x).codes = s.codes := rfl
@[simp] theorem State.setStage_mbs (s : State) (d i : Nat) (x : Stage) : (s.setStage d i x).mbs = s.mbs := rfl
@[simp] theorem State.setStage_hub (s : State) (d i : Nat) (x : Stage) : (s.setStage d i x).hub = s.hub := rfl
@[simp] theorem State.setStage_args (s : State) (d i : Nat) (x : Stage) : (s.setStage d i x).args = s.args := rfl
@[simp] theorem State.setStage_agenda (s : State) (d i : Nat) (x : Stage) : (s.setStage d i x).agenda = s.agenda := rfl
@[simp] theorem State.setStage_turn (s : State) (d i : Nat) (x : Stage) : (s.setStage d i x).turn = s.turn := rfl
@[simp] theorem State.setStage_free (s : State) (d i : Nat) (x : Stage) : (s.setStage d i x).free = s.free := rfl

@[simp] theorem State.onLock_core (s : State) (d : Nat) (f : Lock → Lock) : (s.onLock d f).core = s.core := rfl
@[simp] theorem State.onLock_self (s : State) (d : Nat) (f : Lock → Lock) : (s.onLock d f).self = s.self := rfl
@[simp] theorem State.onLock_others (s : State) (d : Nat) (f : Lock → Lock) : (s.onLock d f).others = s.others := rfl
@[simp] theorem State.onLock_mem (s : State) (d : Nat) (f : Lock → Lock) : (s.onLock d f).mem = s.mem := rfl
@[simp] theorem State.onLock_poison (s : State) (d : Nat) (f : Lock → Lock) : (s.onLock d f).poison = s.poison := rfl
@[simp] theorem State.onLock_view (s : State) (d : Nat) (f : Lock → Lock) : (s.onLock d f).view = s.view := rfl
@[simp] theorem State.onLock_codes (s : State) (d : Nat) (f : Lock → Lock) : (s.onLock d f).codes = s.codes := rfl
@[simp] theorem State.onLock_mbs (s : State) (d : Nat) (f : Lock → Lock) : (s.onLock d f).mbs = s.mbs := rfl
@[simp] theorem State.onLock_hub (s : State) (d : Nat) (f : Lock → Lock) : (s.onLock d f).hub = s.hub := rfl
@[simp] theorem State.onLock_args (s : State) (d : Nat) (f : Lock → Lock) : (s.onLock d f).args = s.args := rfl
@[simp] theorem State.onLock_agenda (s : State) (d : Nat) (f : Lock → Lock) : (s.onLock d f).agenda = s.agenda := rfl
@[simp] theorem State.onLock_turn (s : State) (d : Nat) (f : Lock → Lock) : (s.onLock d f).turn = s.turn := rfl
@[simp] theorem State.onLock_free (s : State) (d : Nat) (f : Lock → Lock) : (s.onLock d f).free = s.free := rfl

@[simp] theorem State.onPend_core (s : State) (d : Nat) (f : Pend → Pend) : (s.onPend d f).core = s.core := rfl
@[simp] theorem State.onPend_self (s : State) (d : Nat) (f : Pend → Pend) : (s.onPend d f).self = s.self := rfl
@[simp] theorem State.onPend_others (s : State) (d : Nat) (f : Pend → Pend) : (s.onPend d f).others = s.others := rfl
@[simp] theorem State.onPend_mem (s : State) (d : Nat) (f : Pend → Pend) : (s.onPend d f).mem = s.mem := rfl
@[simp] theorem State.onPend_poison (s : State) (d : Nat) (f : Pend → Pend) : (s.onPend d f).poison = s.poison := rfl
@[simp] theorem State.onPend_view (s : State) (d : Nat) (f : Pend → Pend) : (s.onPend d f).view = s.view := rfl
@[simp] theorem State.onPend_codes (s : State) (d : Nat) (f : Pend → Pend) : (s.onPend d f).codes = s.codes := rfl
@[simp] theorem State.onPend_mbs (s : State) (d : Nat) (f : Pend → Pend) : (s.onPend d f).mbs = s.mbs := rfl
@[simp] theorem State.onPend_hub (s : State) (d : Nat) (f : Pend → Pend) : (s.onPend d f).hub = s.hub := rfl
@[simp] theorem State.onPend_args (s : State) (d : Nat) (f : Pend → Pend) : (s.onPend d f).args = s.args := rfl
@[simp] theorem State.onPend_agenda (s : State) (d : Nat) (f : Pend → Pend) : (s.onPend d f).agenda = s.agenda := rfl
@[simp] theorem State.onPend_turn (s : State) (d : Nat) (f : Pend → Pend) : (s.onPend d f).turn = s.turn := rfl
@[simp] theorem State.onPend_free (s : State) (d : Nat) (f : Pend → Pend) : (s.onPend d f).free = s.free := rfl

@[simp] theorem State.setMb_core (s : State) (m : Nat) (x : Mb) : (s.setMb m x).core = s.core := rfl
@[simp] theorem State.setMb_self (s : State) (m : Nat) (x : Mb) : (s.setMb m x).self = s.self := rfl
@[simp] theorem State.setMb_others (s : State) (m : Nat) (x : Mb) : (s.setMb m x).others = s.others := rfl
@[simp] theorem State.setMb_mem (s : State) (m : Nat) (x : Mb) : (s.setMb m x).mem = s.mem := rfl
@[simp] theorem State.setMb_poison (s : State) (m : Nat) (x : Mb) : (s.setMb m x).poison = s.poison := rfl
@[simp] theorem State.setMb_view (s : State) (m : Nat) (x : Mb) : (s.setMb m x).view = s.view := rfl
@[simp] theorem State.setMb_codes (s : State) (m : Nat) (x : Mb) : (s.setMb m x).codes = s.codes := rfl
@[simp] theorem State.setMb_dies (s : State) (m : Nat) (x : Mb) : (s.setMb m x).dies = s.dies := rfl
@[simp] theorem State.setMb_hub (s : State) (m : Nat) (x : Mb) : (s.setMb m x).hub = s.hub := rfl
@[simp] theorem State.setMb_args (s : State) (m : Nat) (x : Mb) : (s.setMb m x).args = s.args := rfl
@[simp] theorem State.setMb_agenda (s : State) (m : Nat) (x : Mb) : (s.setMb m x).agenda = s.agenda := rfl
@[simp] theorem State.setMb_turn (s : State) (m : Nat) (x : Mb) : (s.setMb m x).turn = s.turn := rfl
@[simp] theorem State.setMb_free (s : State) (m : Nat) (x : Mb) : (s.setMb m x).free = s.free := rfl
@[simp] theorem State.setMb_mbs (s : State) (m : Nat) (x : Mb) : (s.setMb m x).mbs = mset s.mbs m x := rfl

@[simp] theorem State.setClasp_core (s : State) (x : Nat) (c : Clasp) : (s.setClasp x c).core = s.core := rfl
@[simp] theorem State.setClasp_self (s : State) (x : Nat) (c : Clasp) : (s.setClasp x c).self = s.self := rfl
@[simp] theorem State.setClasp_others (s : State) (x : Nat) (c : Clasp) : (s.setClasp x c).others = s.others := rfl
@[simp] theorem State.setClasp_mem (s : State) (x : Nat) (c : Clasp) : (s.setClasp x c).mem = s.mem := rfl
@[simp] theorem State.setClasp_poison (s : State) (x : Nat) (c : Clasp) : (s.setClasp x c).poison = s.poison := rfl
@[simp] theorem State.setClasp_view (s : State) (x : Nat) (c : Clasp) : (s.setClasp x c).view = s.view := rfl
@[simp] theorem State.setClasp_codes (s : State) (x : Nat) (c : Clasp) : (s.setClasp x c).codes = s.codes := rfl
@[simp] theorem State.setClasp_mbs (s : State) (x : Nat) (c : Clasp) : (s.setClasp x c).mbs = s.mbs := rfl
@[simp] theorem State.setClasp_dies (s : State) (x : Nat) (c : Clasp) : (s.setClasp x c).dies = s.dies := rfl
@[simp] theorem State.setClasp_args (s : State) (x : Nat) (c : Clasp) : (s.setClasp x c).args = s.args := rfl
@[simp] theorem State.setClasp_agenda (s : State) (x : Nat) (c : Clasp) : (s.setClasp x c).agenda = s.agenda := rfl
@[simp] theorem State.setClasp_turn (s : State) (x : Nat) (c : Clasp) : (s.setClasp x c).turn = s.turn := rfl
@[simp] theorem State.setClasp_free (s : State) (x : Nat) (c : Clasp) : (s.setClasp x c).free = s.free := rfl

@[simp] theorem State.setTile_self (s : State) (t : Nat) (x : Tile) : (s.setTile t x).self = s.self := by unfold State.setTile; split <;> rfl
@[simp] theorem State.setTile_mem (s : State) (t : Nat) (x : Tile) : (s.setTile t x).mem = s.mem := by unfold State.setTile; split <;> rfl
@[simp] theorem State.setTile_poison (s : State) (t : Nat) (x : Tile) : (s.setTile t x).poison = s.poison := by unfold State.setTile; split <;> rfl
@[simp] theorem State.setTile_view (s : State) (t : Nat) (x : Tile) : (s.setTile t x).view = s.view := by unfold State.setTile; split <;> rfl
@[simp] theorem State.setTile_codes (s : State) (t : Nat) (x : Tile) : (s.setTile t x).codes = s.codes := by unfold State.setTile; split <;> rfl
@[simp] theorem State.setTile_mbs (s : State) (t : Nat) (x : Tile) : (s.setTile t x).mbs = s.mbs := by unfold State.setTile; split <;> rfl
@[simp] theorem State.setTile_dies (s : State) (t : Nat) (x : Tile) : (s.setTile t x).dies = s.dies := by unfold State.setTile; split <;> rfl
@[simp] theorem State.setTile_hub (s : State) (t : Nat) (x : Tile) : (s.setTile t x).hub = s.hub := by unfold State.setTile; split <;> rfl
@[simp] theorem State.setTile_args (s : State) (t : Nat) (x : Tile) : (s.setTile t x).args = s.args := by unfold State.setTile; split <;> rfl
@[simp] theorem State.setTile_agenda (s : State) (t : Nat) (x : Tile) : (s.setTile t x).agenda = s.agenda := by unfold State.setTile; split <;> rfl
@[simp] theorem State.setTile_turn (s : State) (t : Nat) (x : Tile) : (s.setTile t x).turn = s.turn := by unfold State.setTile; split <;> rfl
@[simp] theorem State.setTile_free (s : State) (t : Nat) (x : Tile) : (s.setTile t x).free = s.free := by unfold State.setTile; split <;> rfl

@[simp] theorem State.onTile_self (s : State) (t : Nat) (f : Tile → Tile) : (s.onTile t f).self = s.self := by simp [State.onTile]
@[simp] theorem State.onTile_mem (s : State) (t : Nat) (f : Tile → Tile) : (s.onTile t f).mem = s.mem := by simp [State.onTile]
@[simp] theorem State.onTile_poison (s : State) (t : Nat) (f : Tile → Tile) : (s.onTile t f).poison = s.poison := by simp [State.onTile]
@[simp] theorem State.onTile_view (s : State) (t : Nat) (f : Tile → Tile) : (s.onTile t f).view = s.view := by simp [State.onTile]
@[simp] theorem State.onTile_codes (s : State) (t : Nat) (f : Tile → Tile) : (s.onTile t f).codes = s.codes := by simp [State.onTile]
@[simp] theorem State.onTile_mbs (s : State) (t : Nat) (f : Tile → Tile) : (s.onTile t f).mbs = s.mbs := by simp [State.onTile]
@[simp] theorem State.onTile_dies (s : State) (t : Nat) (f : Tile → Tile) : (s.onTile t f).dies = s.dies := by simp [State.onTile]
@[simp] theorem State.onTile_hub (s : State) (t : Nat) (f : Tile → Tile) : (s.onTile t f).hub = s.hub := by simp [State.onTile]
@[simp] theorem State.onTile_args (s : State) (t : Nat) (f : Tile → Tile) : (s.onTile t f).args = s.args := by simp [State.onTile]
@[simp] theorem State.onTile_agenda (s : State) (t : Nat) (f : Tile → Tile) : (s.onTile t f).agenda = s.agenda := by simp [State.onTile]
@[simp] theorem State.onTile_turn (s : State) (t : Nat) (f : Tile → Tile) : (s.onTile t f).turn = s.turn := by simp [State.onTile]
@[simp] theorem State.onTile_free (s : State) (t : Nat) (f : Tile → Tile) : (s.onTile t f).free = s.free := by simp [State.onTile]

@[simp] theorem State.tag_self (s : State) (g : Tag) : (s.tag g).self = s.self := rfl
@[simp] theorem State.tag_others (s : State) (g : Tag) : (s.tag g).others = s.others := rfl
@[simp] theorem State.tag_mem (s : State) (g : Tag) : (s.tag g).mem = s.mem := rfl
@[simp] theorem State.tag_poison (s : State) (g : Tag) : (s.tag g).poison = s.poison := rfl
@[simp] theorem State.tag_view (s : State) (g : Tag) : (s.tag g).view = s.view := rfl
@[simp] theorem State.tag_codes (s : State) (g : Tag) : (s.tag g).codes = s.codes := rfl
@[simp] theorem State.tag_mbs (s : State) (g : Tag) : (s.tag g).mbs = s.mbs := rfl
@[simp] theorem State.tag_dies (s : State) (g : Tag) : (s.tag g).dies = s.dies := rfl
@[simp] theorem State.tag_hub (s : State) (g : Tag) : (s.tag g).hub = s.hub := rfl
@[simp] theorem State.tag_args (s : State) (g : Tag) : (s.tag g).args = s.args := rfl
@[simp] theorem State.tag_agenda (s : State) (g : Tag) : (s.tag g).agenda = s.agenda := rfl
@[simp] theorem State.tag_turn (s : State) (g : Tag) : (s.tag g).turn = s.turn := rfl
@[simp] theorem State.tag_free (s : State) (g : Tag) : (s.tag g).free = s.free := rfl

@[simp] theorem State.land_self (s : State) (k : Nat) (l : Land) : (s.land k l).self = s.self := rfl
@[simp] theorem State.land_others (s : State) (k : Nat) (l : Land) : (s.land k l).others = s.others := rfl
@[simp] theorem State.land_mem (s : State) (k : Nat) (l : Land) : (s.land k l).mem = s.mem := rfl
@[simp] theorem State.land_poison (s : State) (k : Nat) (l : Land) : (s.land k l).poison = s.poison := rfl
@[simp] theorem State.land_view (s : State) (k : Nat) (l : Land) : (s.land k l).view = s.view := rfl
@[simp] theorem State.land_codes (s : State) (k : Nat) (l : Land) : (s.land k l).codes = s.codes := rfl
@[simp] theorem State.land_mbs (s : State) (k : Nat) (l : Land) : (s.land k l).mbs = s.mbs := rfl
@[simp] theorem State.land_dies (s : State) (k : Nat) (l : Land) : (s.land k l).dies = s.dies := rfl
@[simp] theorem State.land_hub (s : State) (k : Nat) (l : Land) : (s.land k l).hub = s.hub := rfl
@[simp] theorem State.land_args (s : State) (k : Nat) (l : Land) : (s.land k l).args = s.args := rfl
@[simp] theorem State.land_agenda (s : State) (k : Nat) (l : Land) : (s.land k l).agenda = s.agenda := rfl
@[simp] theorem State.land_turn (s : State) (k : Nat) (l : Land) : (s.land k l).turn = s.turn := rfl
@[simp] theorem State.land_free (s : State) (k : Nat) (l : Land) : (s.land k l).free = s.free := rfl

@[simp] theorem State.eff_self (s : State) (e : Eff) : (s.eff e).self = s.self := rfl
@[simp] theorem State.eff_others (s : State) (e : Eff) : (s.eff e).others = s.others := rfl
@[simp] theorem State.eff_mem (s : State) (e : Eff) : (s.eff e).mem = s.mem := rfl
@[simp] theorem State.eff_poison (s : State) (e : Eff) : (s.eff e).poison = s.poison := rfl
@[simp] theorem State.eff_view (s : State) (e : Eff) : (s.eff e).view = s.view := rfl
@[simp] theorem State.eff_codes (s : State) (e : Eff) : (s.eff e).codes = s.codes := rfl
@[simp] theorem State.eff_mbs (s : State) (e : Eff) : (s.eff e).mbs = s.mbs := rfl
@[simp] theorem State.eff_dies (s : State) (e : Eff) : (s.eff e).dies = s.dies := rfl
@[simp] theorem State.eff_hub (s : State) (e : Eff) : (s.eff e).hub = s.hub := rfl
@[simp] theorem State.eff_args (s : State) (e : Eff) : (s.eff e).args = s.args := rfl
@[simp] theorem State.eff_agenda (s : State) (e : Eff) : (s.eff e).agenda = s.agenda := rfl
@[simp] theorem State.eff_turn (s : State) (e : Eff) : (s.eff e).turn = s.turn := rfl
@[simp] theorem State.eff_free (s : State) (e : Eff) : (s.eff e).free = s.free := rfl

@[simp] theorem State.goto_self (s : State) (pc : Nat) : (s.goto pc).self = s.self := rfl
@[simp] theorem State.goto_others (s : State) (pc : Nat) : (s.goto pc).others = s.others := rfl
@[simp] theorem State.goto_mem (s : State) (pc : Nat) : (s.goto pc).mem = s.mem := rfl
@[simp] theorem State.goto_poison (s : State) (pc : Nat) : (s.goto pc).poison = s.poison := rfl
@[simp] theorem State.goto_view (s : State) (pc : Nat) : (s.goto pc).view = s.view := rfl
@[simp] theorem State.goto_codes (s : State) (pc : Nat) : (s.goto pc).codes = s.codes := rfl
@[simp] theorem State.goto_mbs (s : State) (pc : Nat) : (s.goto pc).mbs = s.mbs := rfl
@[simp] theorem State.goto_dies (s : State) (pc : Nat) : (s.goto pc).dies = s.dies := rfl
@[simp] theorem State.goto_hub (s : State) (pc : Nat) : (s.goto pc).hub = s.hub := rfl
@[simp] theorem State.goto_args (s : State) (pc : Nat) : (s.goto pc).args = s.args := rfl
@[simp] theorem State.goto_agenda (s : State) (pc : Nat) : (s.goto pc).agenda = s.agenda := rfl
@[simp] theorem State.goto_turn (s : State) (pc : Nat) : (s.goto pc).turn = s.turn := rfl
@[simp] theorem State.goto_free (s : State) (pc : Nat) : (s.goto pc).free = s.free := rfl

@[simp] theorem State.landS_self (s : State) (k n v : Nat) : (s.landS k n v).self = s.self := rfl
@[simp] theorem State.landS_others (s : State) (k n v : Nat) : (s.landS k n v).others = s.others := rfl
@[simp] theorem State.landS_mem (s : State) (k n v : Nat) : (s.landS k n v).mem = s.mem := rfl
@[simp] theorem State.landS_poison (s : State) (k n v : Nat) : (s.landS k n v).poison = s.poison := rfl
@[simp] theorem State.landS_view (s : State) (k n v : Nat) : (s.landS k n v).view = s.view := rfl
@[simp] theorem State.landS_codes (s : State) (k n v : Nat) : (s.landS k n v).codes = s.codes := rfl
@[simp] theorem State.landS_mbs (s : State) (k n v : Nat) : (s.landS k n v).mbs = s.mbs := rfl
@[simp] theorem State.landS_dies (s : State) (k n v : Nat) : (s.landS k n v).dies = s.dies := rfl
@[simp] theorem State.landS_hub (s : State) (k n v : Nat) : (s.landS k n v).hub = s.hub := rfl
@[simp] theorem State.landS_args (s : State) (k n v : Nat) : (s.landS k n v).args = s.args := rfl
@[simp] theorem State.landS_agenda (s : State) (k n v : Nat) : (s.landS k n v).agenda = s.agenda := rfl
@[simp] theorem State.landS_turn (s : State) (k n v : Nat) : (s.landS k n v).turn = s.turn := rfl
@[simp] theorem State.landS_free (s : State) (k n v : Nat) : (s.landS k n v).free = s.free := rfl

@[simp] theorem State.landQ_self (s : State) (k n : Nat) (v : Bool) : (s.landQ k n v).self = s.self := rfl
@[simp] theorem State.landQ_others (s : State) (k n : Nat) (v : Bool) : (s.landQ k n v).others = s.others := rfl
@[simp] theorem State.landQ_mem (s : State) (k n : Nat) (v : Bool) : (s.landQ k n v).mem = s.mem := rfl
@[simp] theorem State.landQ_poison (s : State) (k n : Nat) (v : Bool) : (s.landQ k n v).poison = s.poison := rfl
@[simp] theorem State.landQ_view (s : State) (k n : Nat) (v : Bool) : (s.landQ k n v).view = s.view := rfl
@[simp] theorem State.landQ_codes (s : State) (k n : Nat) (v : Bool) : (s.landQ k n v).codes = s.codes := rfl
@[simp] theorem State.landQ_mbs (s : State) (k n : Nat) (v : Bool) : (s.landQ k n v).mbs = s.mbs := rfl
@[simp] theorem State.landQ_dies (s : State) (k n : Nat) (v : Bool) : (s.landQ k n v).dies = s.dies := rfl
@[simp] theorem State.landQ_hub (s : State) (k n : Nat) (v : Bool) : (s.landQ k n v).hub = s.hub := rfl
@[simp] theorem State.landQ_args (s : State) (k n : Nat) (v : Bool) : (s.landQ k n v).args = s.args := rfl
@[simp] theorem State.landQ_agenda (s : State) (k n : Nat) (v : Bool) : (s.landQ k n v).agenda = s.agenda := rfl
@[simp] theorem State.landQ_turn (s : State) (k n : Nat) (v : Bool) : (s.landQ k n v).turn = s.turn := rfl
@[simp] theorem State.landQ_free (s : State) (k n : Nat) (v : Bool) : (s.landQ k n v).free = s.free := rfl

@[simp] theorem State.landV_self (s : State) (k n : Nat) (en : Word) (v : VWord) : (s.landV k n en v).self = s.self := rfl
@[simp] theorem State.landV_others (s : State) (k n : Nat) (en : Word) (v : VWord) : (s.landV k n en v).others = s.others := rfl
@[simp] theorem State.landV_mem (s : State) (k n : Nat) (en : Word) (v : VWord) : (s.landV k n en v).mem = s.mem := rfl
@[simp] theorem State.landV_poison (s : State) (k n : Nat) (en : Word) (v : VWord) : (s.landV k n en v).poison = s.poison := rfl
@[simp] theorem State.landV_view (s : State) (k n : Nat) (en : Word) (v : VWord) : (s.landV k n en v).view = s.view := rfl
@[simp] theorem State.landV_codes (s : State) (k n : Nat) (en : Word) (v : VWord) : (s.landV k n en v).codes = s.codes := rfl
@[simp] theorem State.landV_mbs (s : State) (k n : Nat) (en : Word) (v : VWord) : (s.landV k n en v).mbs = s.mbs := rfl
@[simp] theorem State.landV_dies (s : State) (k n : Nat) (en : Word) (v : VWord) : (s.landV k n en v).dies = s.dies := rfl
@[simp] theorem State.landV_hub (s : State) (k n : Nat) (en : Word) (v : VWord) : (s.landV k n en v).hub = s.hub := rfl
@[simp] theorem State.landV_args (s : State) (k n : Nat) (en : Word) (v : VWord) : (s.landV k n en v).args = s.args := rfl
@[simp] theorem State.landV_agenda (s : State) (k n : Nat) (en : Word) (v : VWord) : (s.landV k n en v).agenda = s.agenda := rfl
@[simp] theorem State.landV_turn (s : State) (k n : Nat) (en : Word) (v : VWord) : (s.landV k n en v).turn = s.turn := rfl
@[simp] theorem State.landV_free (s : State) (k n : Nat) (en : Word) (v : VWord) : (s.landV k n en v).free = s.free := rfl

@[simp] theorem State.landM_self (s : State) (k n : Nat) (en v : Word) : (s.landM k n en v).self = s.self := rfl
@[simp] theorem State.landM_others (s : State) (k n : Nat) (en v : Word) : (s.landM k n en v).others = s.others := rfl
@[simp] theorem State.landM_mem (s : State) (k n : Nat) (en v : Word) : (s.landM k n en v).mem = s.mem := rfl
@[simp] theorem State.landM_poison (s : State) (k n : Nat) (en v : Word) : (s.landM k n en v).poison = s.poison := rfl
@[simp] theorem State.landM_view (s : State) (k n : Nat) (en v : Word) : (s.landM k n en v).view = s.view := rfl
@[simp] theorem State.landM_codes (s : State) (k n : Nat) (en v : Word) : (s.landM k n en v).codes = s.codes := rfl
@[simp] theorem State.landM_mbs (s : State) (k n : Nat) (en v : Word) : (s.landM k n en v).mbs = s.mbs := rfl
@[simp] theorem State.landM_dies (s : State) (k n : Nat) (en v : Word) : (s.landM k n en v).dies = s.dies := rfl
@[simp] theorem State.landM_hub (s : State) (k n : Nat) (en v : Word) : (s.landM k n en v).hub = s.hub := rfl
@[simp] theorem State.landM_args (s : State) (k n : Nat) (en v : Word) : (s.landM k n en v).args = s.args := rfl
@[simp] theorem State.landM_agenda (s : State) (k n : Nat) (en v : Word) : (s.landM k n en v).agenda = s.agenda := rfl
@[simp] theorem State.landM_turn (s : State) (k n : Nat) (en v : Word) : (s.landM k n en v).turn = s.turn := rfl
@[simp] theorem State.landM_free (s : State) (k n : Nat) (en v : Word) : (s.landM k n en v).free = s.free := rfl

@[simp] theorem putEnb_core (s : State) (k n data enb : Nat) (p : Bool) : (putEnb s k n data enb p).core = s.core := rfl
@[simp] theorem putEnb_self (s : State) (k n data enb : Nat) (p : Bool) : (putEnb s k n data enb p).self = s.self := rfl
@[simp] theorem putEnb_others (s : State) (k n data enb : Nat) (p : Bool) : (putEnb s k n data enb p).others = s.others := rfl
@[simp] theorem putEnb_mbs (s : State) (k n data enb : Nat) (p : Bool) : (putEnb s k n data enb p).mbs = s.mbs := rfl
@[simp] theorem putEnb_dies (s : State) (k n data enb : Nat) (p : Bool) : (putEnb s k n data enb p).dies = s.dies := rfl
@[simp] theorem putEnb_hub (s : State) (k n data enb : Nat) (p : Bool) : (putEnb s k n data enb p).hub = s.hub := rfl
@[simp] theorem putEnb_args (s : State) (k n data enb : Nat) (p : Bool) : (putEnb s k n data enb p).args = s.args := rfl
@[simp] theorem putEnb_agenda (s : State) (k n data enb : Nat) (p : Bool) : (putEnb s k n data enb p).agenda = s.agenda := rfl
@[simp] theorem putEnb_turn (s : State) (k n data enb : Nat) (p : Bool) : (putEnb s k n data enb p).turn = s.turn := rfl
@[simp] theorem putEnb_free (s : State) (k n data enb : Nat) (p : Bool) : (putEnb s k n data enb p).free = s.free := rfl

/-! ## A tile -/

@[simp] theorem Tile.onIss_regs (t : Tile) (f : Iss → Iss) : (t.onIss f).regs = t.regs := rfl
@[simp] theorem Tile.onIss_spr (t : Tile) (f : Iss → Iss) : (t.onIss f).spr = t.spr := rfl
@[simp] theorem Tile.onIss_flight (t : Tile) (f : Iss → Iss) : (t.onIss f).flight = t.flight := rfl
@[simp] theorem Tile.onIss_snapPay (t : Tile) (f : Iss → Iss) : (t.onIss f).snapPay = t.snapPay := rfl
@[simp] theorem Tile.onIss_snapPois (t : Tile) (f : Iss → Iss) : (t.onIss f).snapPois = t.snapPois := rfl
@[simp] theorem Tile.onIss_reqs (t : Tile) (f : Iss → Iss) : (t.onIss f).reqs = t.reqs := rfl
@[simp] theorem Tile.onIss_tcq (t : Tile) (f : Iss → Iss) : (t.onIss f).tcq = t.tcq := rfl
@[simp] theorem Tile.onIss_chans (t : Tile) (f : Iss → Iss) : (t.onIss f).chans = t.chans := rfl
@[simp] theorem Tile.onIss_osb (t : Tile) (f : Iss → Iss) : (t.onIss f).osb = t.osb := rfl
@[simp] theorem Tile.onIss_slots (t : Tile) (f : Iss → Iss) : (t.onIss f).slots = t.slots := rfl
@[simp] theorem Tile.onIss_rng (t : Tile) (f : Iss → Iss) : (t.onIss f).rng = t.rng := rfl
@[simp] theorem Tile.onIss_stats (t : Tile) (f : Iss → Iss) : (t.onIss f).stats = t.stats := rfl
@[simp] theorem Tile.onIss_facets (t : Tile) (f : Iss → Iss) : (t.onIss f).facets = t.facets := rfl
@[simp] theorem Tile.onIss_beads (t : Tile) (f : Iss → Iss) : (t.onIss f).beads = t.beads := rfl
@[simp] theorem Tile.onIss_task (t : Tile) (f : Iss → Iss) : (t.onIss f).task = t.task := rfl
@[simp] theorem Tile.onIss_l1 (t : Tile) (f : Iss → Iss) : (t.onIss f).l1 = t.l1 := rfl
@[simp] theorem Tile.onIss_icache (t : Tile) (f : Iss → Iss) : (t.onIss f).icache = t.icache := rfl
@[simp] theorem Tile.onIss_fetchRg (t : Tile) (f : Iss → Iss) : (t.onIss f).fetchRg = t.fetchRg := rfl
@[simp] theorem Tile.onIss_snapEn (t : Tile) (f : Iss → Iss) : (t.onIss f).snapEn = t.snapEn := rfl
@[simp] theorem Tile.onIss_snapOrd (t : Tile) (f : Iss → Iss) : (t.onIss f).snapOrd = t.snapOrd := rfl
@[simp] theorem Tile.onIss_snapDead (t : Tile) (f : Iss → Iss) : (t.onIss f).snapDead = t.snapDead := rfl
@[simp] theorem Tile.onIss_casts (t : Tile) (f : Iss → Iss) : (t.onIss f).casts = t.casts := rfl
@[simp] theorem Tile.onIss_notes (t : Tile) (f : Iss → Iss) : (t.onIss f).notes = t.notes := rfl
@[simp] theorem Tile.onIss_stamp (t : Tile) (f : Iss → Iss) : (t.onIss f).stamp = t.stamp := rfl
@[simp] theorem Tile.onIss_mxWait (t : Tile) (f : Iss → Iss) : (t.onIss f).mxWait = t.mxWait := rfl
@[simp] theorem Tile.onIss_chkWait (t : Tile) (f : Iss → Iss) : (t.onIss f).chkWait = t.chkWait := rfl
@[simp] theorem Tile.onIss_prof (t : Tile) (f : Iss → Iss) : (t.onIss f).prof = t.prof := rfl
@[simp] theorem Tile.onIss_iss (t : Tile) (f : Iss → Iss) : (t.onIss f).iss = f t.iss := rfl

@[simp] theorem Tile.onSpr_regs (t : Tile) (f : Spr → Spr) : (t.onSpr f).regs = t.regs := rfl
@[simp] theorem Tile.onSpr_flight (t : Tile) (f : Spr → Spr) : (t.onSpr f).flight = t.flight := rfl
@[simp] theorem Tile.onSpr_snapPay (t : Tile) (f : Spr → Spr) : (t.onSpr f).snapPay = t.snapPay := rfl
@[simp] theorem Tile.onSpr_snapPois (t : Tile) (f : Spr → Spr) : (t.onSpr f).snapPois = t.snapPois := rfl
@[simp] theorem Tile.onSpr_iss (t : Tile) (f : Spr → Spr) : (t.onSpr f).iss = t.iss := rfl
@[simp] theorem Tile.onSpr_reqs (t : Tile) (f : Spr → Spr) : (t.onSpr f).reqs = t.reqs := rfl
@[simp] theorem Tile.onSpr_tcq (t : Tile) (f : Spr → Spr) : (t.onSpr f).tcq = t.tcq := rfl
@[simp] theorem Tile.onSpr_chans (t : Tile) (f : Spr → Spr) : (t.onSpr f).chans = t.chans := rfl
@[simp] theorem Tile.onSpr_osb (t : Tile) (f : Spr → Spr) : (t.onSpr f).osb = t.osb := rfl
@[simp] theorem Tile.onSpr_slots (t : Tile) (f : Spr → Spr) : (t.onSpr f).slots = t.slots := rfl
@[simp] theorem Tile.onSpr_rng (t : Tile) (f : Spr → Spr) : (t.onSpr f).rng = t.rng := rfl
@[simp] theorem Tile.onSpr_stats (t : Tile) (f : Spr → Spr) : (t.onSpr f).stats = t.stats := rfl
@[simp] theorem Tile.onSpr_facets (t : Tile) (f : Spr → Spr) : (t.onSpr f).facets = t.facets := rfl
@[simp] theorem Tile.onSpr_beads (t : Tile) (f : Spr → Spr) : (t.onSpr f).beads = t.beads := rfl
@[simp] theorem Tile.onSpr_task (t : Tile) (f : Spr → Spr) : (t.onSpr f).task = t.task := rfl
@[simp] theorem Tile.onSpr_l1 (t : Tile) (f : Spr → Spr) : (t.onSpr f).l1 = t.l1 := rfl
@[simp] theorem Tile.onSpr_icache (t : Tile) (f : Spr → Spr) : (t.onSpr f).icache = t.icache := rfl
@[simp] theorem Tile.onSpr_fetchRg (t : Tile) (f : Spr → Spr) : (t.onSpr f).fetchRg = t.fetchRg := rfl
@[simp] theorem Tile.onSpr_snapEn (t : Tile) (f : Spr → Spr) : (t.onSpr f).snapEn = t.snapEn := rfl
@[simp] theorem Tile.onSpr_snapOrd (t : Tile) (f : Spr → Spr) : (t.onSpr f).snapOrd = t.snapOrd := rfl
@[simp] theorem Tile.onSpr_snapDead (t : Tile) (f : Spr → Spr) : (t.onSpr f).snapDead = t.snapDead := rfl
@[simp] theorem Tile.onSpr_casts (t : Tile) (f : Spr → Spr) : (t.onSpr f).casts = t.casts := rfl
@[simp] theorem Tile.onSpr_notes (t : Tile) (f : Spr → Spr) : (t.onSpr f).notes = t.notes := rfl
@[simp] theorem Tile.onSpr_stamp (t : Tile) (f : Spr → Spr) : (t.onSpr f).stamp = t.stamp := rfl
@[simp] theorem Tile.onSpr_mxWait (t : Tile) (f : Spr → Spr) : (t.onSpr f).mxWait = t.mxWait := rfl
@[simp] theorem Tile.onSpr_chkWait (t : Tile) (f : Spr → Spr) : (t.onSpr f).chkWait = t.chkWait := rfl
@[simp] theorem Tile.onSpr_prof (t : Tile) (f : Spr → Spr) : (t.onSpr f).prof = t.prof := rfl
@[simp] theorem Tile.onSpr_spr (t : Tile) (f : Spr → Spr) : (t.onSpr f).spr = f t.spr := rfl

@[simp] theorem Tile.onRegs_spr (t : Tile) (f : Regs → Regs) : (t.onRegs f).spr = t.spr := rfl
@[simp] theorem Tile.onRegs_flight (t : Tile) (f : Regs → Regs) : (t.onRegs f).flight = t.flight := rfl
@[simp] theorem Tile.onRegs_snapPay (t : Tile) (f : Regs → Regs) : (t.onRegs f).snapPay = t.snapPay := rfl
@[simp] theorem Tile.onRegs_snapPois (t : Tile) (f : Regs → Regs) : (t.onRegs f).snapPois = t.snapPois := rfl
@[simp] theorem Tile.onRegs_iss (t : Tile) (f : Regs → Regs) : (t.onRegs f).iss = t.iss := rfl
@[simp] theorem Tile.onRegs_reqs (t : Tile) (f : Regs → Regs) : (t.onRegs f).reqs = t.reqs := rfl
@[simp] theorem Tile.onRegs_tcq (t : Tile) (f : Regs → Regs) : (t.onRegs f).tcq = t.tcq := rfl
@[simp] theorem Tile.onRegs_chans (t : Tile) (f : Regs → Regs) : (t.onRegs f).chans = t.chans := rfl
@[simp] theorem Tile.onRegs_osb (t : Tile) (f : Regs → Regs) : (t.onRegs f).osb = t.osb := rfl
@[simp] theorem Tile.onRegs_slots (t : Tile) (f : Regs → Regs) : (t.onRegs f).slots = t.slots := rfl
@[simp] theorem Tile.onRegs_rng (t : Tile) (f : Regs → Regs) : (t.onRegs f).rng = t.rng := rfl
@[simp] theorem Tile.onRegs_stats (t : Tile) (f : Regs → Regs) : (t.onRegs f).stats = t.stats := rfl
@[simp] theorem Tile.onRegs_facets (t : Tile) (f : Regs → Regs) : (t.onRegs f).facets = t.facets := rfl
@[simp] theorem Tile.onRegs_beads (t : Tile) (f : Regs → Regs) : (t.onRegs f).beads = t.beads := rfl
@[simp] theorem Tile.onRegs_task (t : Tile) (f : Regs → Regs) : (t.onRegs f).task = t.task := rfl
@[simp] theorem Tile.onRegs_l1 (t : Tile) (f : Regs → Regs) : (t.onRegs f).l1 = t.l1 := rfl
@[simp] theorem Tile.onRegs_icache (t : Tile) (f : Regs → Regs) : (t.onRegs f).icache = t.icache := rfl
@[simp] theorem Tile.onRegs_fetchRg (t : Tile) (f : Regs → Regs) : (t.onRegs f).fetchRg = t.fetchRg := rfl
@[simp] theorem Tile.onRegs_snapEn (t : Tile) (f : Regs → Regs) : (t.onRegs f).snapEn = t.snapEn := rfl
@[simp] theorem Tile.onRegs_snapOrd (t : Tile) (f : Regs → Regs) : (t.onRegs f).snapOrd = t.snapOrd := rfl
@[simp] theorem Tile.onRegs_snapDead (t : Tile) (f : Regs → Regs) : (t.onRegs f).snapDead = t.snapDead := rfl
@[simp] theorem Tile.onRegs_casts (t : Tile) (f : Regs → Regs) : (t.onRegs f).casts = t.casts := rfl
@[simp] theorem Tile.onRegs_notes (t : Tile) (f : Regs → Regs) : (t.onRegs f).notes = t.notes := rfl
@[simp] theorem Tile.onRegs_stamp (t : Tile) (f : Regs → Regs) : (t.onRegs f).stamp = t.stamp := rfl
@[simp] theorem Tile.onRegs_mxWait (t : Tile) (f : Regs → Regs) : (t.onRegs f).mxWait = t.mxWait := rfl
@[simp] theorem Tile.onRegs_chkWait (t : Tile) (f : Regs → Regs) : (t.onRegs f).chkWait = t.chkWait := rfl
@[simp] theorem Tile.onRegs_prof (t : Tile) (f : Regs → Regs) : (t.onRegs f).prof = t.prof := rfl
@[simp] theorem Tile.onRegs_regs (t : Tile) (f : Regs → Regs) : (t.onRegs f).regs = f t.regs := rfl

@[simp] theorem Tile.onTask_regs (t : Tile) (f : Task → Task) : (t.onTask f).regs = t.regs := rfl
@[simp] theorem Tile.onTask_spr (t : Tile) (f : Task → Task) : (t.onTask f).spr = t.spr := rfl
@[simp] theorem Tile.onTask_flight (t : Tile) (f : Task → Task) : (t.onTask f).flight = t.flight := rfl
@[simp] theorem Tile.onTask_snapPay (t : Tile) (f : Task → Task) : (t.onTask f).snapPay = t.snapPay := rfl
@[simp] theorem Tile.onTask_snapPois (t : Tile) (f : Task → Task) : (t.onTask f).snapPois = t.snapPois := rfl
@[simp] theorem Tile.onTask_iss (t : Tile) (f : Task → Task) : (t.onTask f).iss = t.iss := rfl
@[simp] theorem Tile.onTask_reqs (t : Tile) (f : Task → Task) : (t.onTask f).reqs = t.reqs := rfl
@[simp] theorem Tile.onTask_tcq (t : Tile) (f : Task → Task) : (t.onTask f).tcq = t.tcq := rfl
@[simp] theorem Tile.onTask_chans (t : Tile) (f : Task → Task) : (t.onTask f).chans = t.chans := rfl
@[simp] theorem Tile.onTask_osb (t : Tile) (f : Task → Task) : (t.onTask f).osb = t.osb := rfl
@[simp] theorem Tile.onTask_slots (t : Tile) (f : Task → Task) : (t.onTask f).slots = t.slots := rfl
@[simp] theorem Tile.onTask_rng (t : Tile) (f : Task → Task) : (t.onTask f).rng = t.rng := rfl
@[simp] theorem Tile.onTask_stats (t : Tile) (f : Task → Task) : (t.onTask f).stats = t.stats := rfl
@[simp] theorem Tile.onTask_facets (t : Tile) (f : Task → Task) : (t.onTask f).facets = t.facets := rfl
@[simp] theorem Tile.onTask_beads (t : Tile) (f : Task → Task) : (t.onTask f).beads = t.beads := rfl
@[simp] theorem Tile.onTask_l1 (t : Tile) (f : Task → Task) : (t.onTask f).l1 = t.l1 := rfl
@[simp] theorem Tile.onTask_icache (t : Tile) (f : Task → Task) : (t.onTask f).icache = t.icache := rfl
@[simp] theorem Tile.onTask_fetchRg (t : Tile) (f : Task → Task) : (t.onTask f).fetchRg = t.fetchRg := rfl
@[simp] theorem Tile.onTask_snapEn (t : Tile) (f : Task → Task) : (t.onTask f).snapEn = t.snapEn := rfl
@[simp] theorem Tile.onTask_snapOrd (t : Tile) (f : Task → Task) : (t.onTask f).snapOrd = t.snapOrd := rfl
@[simp] theorem Tile.onTask_snapDead (t : Tile) (f : Task → Task) : (t.onTask f).snapDead = t.snapDead := rfl
@[simp] theorem Tile.onTask_casts (t : Tile) (f : Task → Task) : (t.onTask f).casts = t.casts := rfl
@[simp] theorem Tile.onTask_notes (t : Tile) (f : Task → Task) : (t.onTask f).notes = t.notes := rfl
@[simp] theorem Tile.onTask_stamp (t : Tile) (f : Task → Task) : (t.onTask f).stamp = t.stamp := rfl
@[simp] theorem Tile.onTask_mxWait (t : Tile) (f : Task → Task) : (t.onTask f).mxWait = t.mxWait := rfl
@[simp] theorem Tile.onTask_chkWait (t : Tile) (f : Task → Task) : (t.onTask f).chkWait = t.chkWait := rfl
@[simp] theorem Tile.onTask_prof (t : Tile) (f : Task → Task) : (t.onTask f).prof = t.prof := rfl
@[simp] theorem Tile.onTask_task (t : Tile) (f : Task → Task) : (t.onTask f).task = f t.task := rfl

@[simp] theorem Tile.setChan_regs (t : Tile) (c : Nat) (x : Chan) : (t.setChan c x).regs = t.regs := rfl
@[simp] theorem Tile.setChan_spr (t : Tile) (c : Nat) (x : Chan) : (t.setChan c x).spr = t.spr := rfl
@[simp] theorem Tile.setChan_flight (t : Tile) (c : Nat) (x : Chan) : (t.setChan c x).flight = t.flight := rfl
@[simp] theorem Tile.setChan_snapPay (t : Tile) (c : Nat) (x : Chan) : (t.setChan c x).snapPay = t.snapPay := rfl
@[simp] theorem Tile.setChan_snapPois (t : Tile) (c : Nat) (x : Chan) : (t.setChan c x).snapPois = t.snapPois := rfl
@[simp] theorem Tile.setChan_iss (t : Tile) (c : Nat) (x : Chan) : (t.setChan c x).iss = t.iss := rfl
@[simp] theorem Tile.setChan_reqs (t : Tile) (c : Nat) (x : Chan) : (t.setChan c x).reqs = t.reqs := rfl
@[simp] theorem Tile.setChan_tcq (t : Tile) (c : Nat) (x : Chan) : (t.setChan c x).tcq = t.tcq := rfl
@[simp] theorem Tile.setChan_osb (t : Tile) (c : Nat) (x : Chan) : (t.setChan c x).osb = t.osb := rfl
@[simp] theorem Tile.setChan_slots (t : Tile) (c : Nat) (x : Chan) : (t.setChan c x).slots = t.slots := rfl
@[simp] theorem Tile.setChan_rng (t : Tile) (c : Nat) (x : Chan) : (t.setChan c x).rng = t.rng := rfl
@[simp] theorem Tile.setChan_stats (t : Tile) (c : Nat) (x : Chan) : (t.setChan c x).stats = t.stats := rfl
@[simp] theorem Tile.setChan_facets (t : Tile) (c : Nat) (x : Chan) : (t.setChan c x).facets = t.facets := rfl
@[simp] theorem Tile.setChan_beads (t : Tile) (c : Nat) (x : Chan) : (t.setChan c x).beads = t.beads := rfl
@[simp] theorem Tile.setChan_task (t : Tile) (c : Nat) (x : Chan) : (t.setChan c x).task = t.task := rfl
@[simp] theorem Tile.setChan_l1 (t : Tile) (c : Nat) (x : Chan) : (t.setChan c x).l1 = t.l1 := rfl
@[simp] theorem Tile.setChan_icache (t : Tile) (c : Nat) (x : Chan) : (t.setChan c x).icache = t.icache := rfl
@[simp] theorem Tile.setChan_fetchRg (t : Tile) (c : Nat) (x : Chan) : (t.setChan c x).fetchRg = t.fetchRg := rfl
@[simp] theorem Tile.setChan_snapEn (t : Tile) (c : Nat) (x : Chan) : (t.setChan c x).snapEn = t.snapEn := rfl
@[simp] theorem Tile.setChan_snapOrd (t : Tile) (c : Nat) (x : Chan) : (t.setChan c x).snapOrd = t.snapOrd := rfl
@[simp] theorem Tile.setChan_snapDead (t : Tile) (c : Nat) (x : Chan) : (t.setChan c x).snapDead = t.snapDead := rfl
@[simp] theorem Tile.setChan_casts (t : Tile) (c : Nat) (x : Chan) : (t.setChan c x).casts = t.casts := rfl
@[simp] theorem Tile.setChan_notes (t : Tile) (c : Nat) (x : Chan) : (t.setChan c x).notes = t.notes := rfl
@[simp] theorem Tile.setChan_stamp (t : Tile) (c : Nat) (x : Chan) : (t.setChan c x).stamp = t.stamp := rfl
@[simp] theorem Tile.setChan_mxWait (t : Tile) (c : Nat) (x : Chan) : (t.setChan c x).mxWait = t.mxWait := rfl
@[simp] theorem Tile.setChan_chkWait (t : Tile) (c : Nat) (x : Chan) : (t.setChan c x).chkWait = t.chkWait := rfl
@[simp] theorem Tile.setChan_prof (t : Tile) (c : Nat) (x : Chan) : (t.setChan c x).prof = t.prof := rfl

@[simp] theorem Tile.setFacet_regs (t : Tile) (k : Nat) (x : Facet) : (t.setFacet k x).regs = t.regs := rfl
@[simp] theorem Tile.setFacet_spr (t : Tile) (k : Nat) (x : Facet) : (t.setFacet k x).spr = t.spr := rfl
@[simp] theorem Tile.setFacet_flight (t : Tile) (k : Nat) (x : Facet) : (t.setFacet k x).flight = t.flight := rfl
@[simp] theorem Tile.setFacet_snapPay (t : Tile) (k : Nat) (x : Facet) : (t.setFacet k x).snapPay = t.snapPay := rfl
@[simp] theorem Tile.setFacet_snapPois (t : Tile) (k : Nat) (x : Facet) : (t.setFacet k x).snapPois = t.snapPois := rfl
@[simp] theorem Tile.setFacet_iss (t : Tile) (k : Nat) (x : Facet) : (t.setFacet k x).iss = t.iss := rfl
@[simp] theorem Tile.setFacet_reqs (t : Tile) (k : Nat) (x : Facet) : (t.setFacet k x).reqs = t.reqs := rfl
@[simp] theorem Tile.setFacet_tcq (t : Tile) (k : Nat) (x : Facet) : (t.setFacet k x).tcq = t.tcq := rfl
@[simp] theorem Tile.setFacet_chans (t : Tile) (k : Nat) (x : Facet) : (t.setFacet k x).chans = t.chans := rfl
@[simp] theorem Tile.setFacet_osb (t : Tile) (k : Nat) (x : Facet) : (t.setFacet k x).osb = t.osb := rfl
@[simp] theorem Tile.setFacet_slots (t : Tile) (k : Nat) (x : Facet) : (t.setFacet k x).slots = t.slots := rfl
@[simp] theorem Tile.setFacet_rng (t : Tile) (k : Nat) (x : Facet) : (t.setFacet k x).rng = t.rng := rfl
@[simp] theorem Tile.setFacet_stats (t : Tile) (k : Nat) (x : Facet) : (t.setFacet k x).stats = t.stats := rfl
@[simp] theorem Tile.setFacet_beads (t : Tile) (k : Nat) (x : Facet) : (t.setFacet k x).beads = t.beads := rfl
@[simp] theorem Tile.setFacet_task (t : Tile) (k : Nat) (x : Facet) : (t.setFacet k x).task = t.task := rfl
@[simp] theorem Tile.setFacet_l1 (t : Tile) (k : Nat) (x : Facet) : (t.setFacet k x).l1 = t.l1 := rfl
@[simp] theorem Tile.setFacet_icache (t : Tile) (k : Nat) (x : Facet) : (t.setFacet k x).icache = t.icache := rfl
@[simp] theorem Tile.setFacet_fetchRg (t : Tile) (k : Nat) (x : Facet) : (t.setFacet k x).fetchRg = t.fetchRg := rfl
@[simp] theorem Tile.setFacet_snapEn (t : Tile) (k : Nat) (x : Facet) : (t.setFacet k x).snapEn = t.snapEn := rfl
@[simp] theorem Tile.setFacet_snapOrd (t : Tile) (k : Nat) (x : Facet) : (t.setFacet k x).snapOrd = t.snapOrd := rfl
@[simp] theorem Tile.setFacet_snapDead (t : Tile) (k : Nat) (x : Facet) : (t.setFacet k x).snapDead = t.snapDead := rfl
@[simp] theorem Tile.setFacet_casts (t : Tile) (k : Nat) (x : Facet) : (t.setFacet k x).casts = t.casts := rfl
@[simp] theorem Tile.setFacet_notes (t : Tile) (k : Nat) (x : Facet) : (t.setFacet k x).notes = t.notes := rfl
@[simp] theorem Tile.setFacet_stamp (t : Tile) (k : Nat) (x : Facet) : (t.setFacet k x).stamp = t.stamp := rfl
@[simp] theorem Tile.setFacet_mxWait (t : Tile) (k : Nat) (x : Facet) : (t.setFacet k x).mxWait = t.mxWait := rfl
@[simp] theorem Tile.setFacet_chkWait (t : Tile) (k : Nat) (x : Facet) : (t.setFacet k x).chkWait = t.chkWait := rfl
@[simp] theorem Tile.setFacet_prof (t : Tile) (k : Nat) (x : Facet) : (t.setFacet k x).prof = t.prof := rfl

end Sys2Proof.Machine
end

