-- ==== Sys2Proof/Laws/Mem.lean ====
section
/-! SUPPORT. Storage: a byte written is read back, a write leaves every other byte alone, and every operation keeps the canonical form
(log A1). -/

namespace Sys2Proof.Machine

/-! ## Reads -/

theorem memGet_append (l r : List Host.Cell) (x : Nat) :
    memGet (l ++ r) x = if l.any (fun c => c.1 == x) then memGet l x else memGet r x := by
  induction l with
  | nil => simp
  | cons c l ih => by_cases h : c.1 = x <;> simp [memGet, h, ih]

theorem memGet_none {l : List Host.Cell} {x : Nat} (h : ∀ c ∈ l, c.1 ≠ x) : memGet l x = 0 := by
  induction l with
  | nil => rfl
  | cons c l ih => simp_all [memGet]

theorem memGet_filter (p : Nat → Bool) (m : List Host.Cell) (x : Nat) :
    memGet (m.filter (fun c => p c.1)) x = if p x then memGet m x else 0 := by
  induction m with
  | nil => simp [memGet]
  | cons c m ih =>
    by_cases hp : p c.1 <;> by_cases hx : c.1 = x <;> simp_all [memGet]

theorem cellsFrom_ge (a : Nat) (bs : List Nat) : ∀ c ∈ cellsFrom a bs, a ≤ c.1 ∧ c.1 < a + bs.length := by
  induction bs generalizing a with
  | nil => simp [cellsFrom]
  | cons b bs ih =>
    intro c hc
    have hcase : c = (a, BitVec.ofNat 8 b) ∨ c ∈ cellsFrom (a + 1) bs := by
      unfold cellsFrom at hc
      split at hc
      · exact .inr hc
      · simpa using hc
    obtain rfl | h := hcase
    · simp
    · have := ih (a + 1) c h
      simp only [List.length_cons]
      omega

theorem memGet_cellsFrom (a : Nat) (bs : List Nat) (x : Nat) (h : a ≤ x) :
    memGet (cellsFrom a bs) x = BitVec.ofNat 8 (bs.getD (x - a) 0) := by
  induction bs generalizing a with
  | nil => simp [cellsFrom, memGet]
  | cons b bs ih =>
    rcases Nat.eq_or_lt_of_le h with rfl | hlt
    · by_cases hb : b % 256 = 0
      · simp only [cellsFrom, hb, if_true, Nat.sub_self, List.getD_cons_zero]
        rw [memGet_none (fun c hc => by have := cellsFrom_ge _ _ c hc; omega)]
        exact (BitVec.eq_of_toNat_eq (by simp [hb]))
      · simp [cellsFrom, hb, memGet]
    · have hs : x - a = x - (a + 1) + 1 := by omega
      by_cases hb : b % 256 = 0
      · simp only [cellsFrom, hb, if_true, ih (a + 1) hlt, hs, List.getD_cons_succ]
      · have : a ≠ x := by omega
        simp only [cellsFrom, hb, if_false, memGet, this, ih (a + 1) hlt, hs, List.getD_cons_succ]

/-- A write's bytes are read back, and every other byte is as before. -/
theorem memGet_memWrite (m : List Host.Cell) (a : Nat) (bs : List Nat) (x : Nat) :
    memGet (memWrite m a bs) x = if a ≤ x ∧ x < a + bs.length then BitVec.ofNat 8 (bs.getD (x - a) 0) else memGet m x := by
  unfold memWrite
  rw [List.append_assoc, memGet_append, memGet_append, memGet_filter (fun k => decide (k < a)),
    memGet_filter (fun k => decide (a + bs.length ≤ k))]
  by_cases h1 : x < a
  · have hc : (cellsFrom a bs).any (fun c => c.1 == x) = false := by
      simp only [List.any_eq_false, beq_iff_eq]
      intro c hc
      have := cellsFrom_ge a bs c hc
      omega
    have hn : ¬ (a + bs.length ≤ x) := by omega
    have hm : ¬ (a ≤ x ∧ x < a + bs.length) := by omega
    simp only [hc, h1, hn, hm, if_false, if_true, decide_true, decide_false, Bool.false_eq_true]
    split
    · rfl
    · rename_i h
      symm
      apply memGet_none
      intro c hc hx
      simp only [Bool.not_eq_true, List.any_eq_false, List.mem_filter, decide_eq_true_eq, beq_iff_eq, and_imp] at h
      exact h c hc (by omega) hx
  · have hf : (m.filter (fun c => decide (c.1 < a))).any (fun c => c.1 == x) = false := by
      simp only [List.any_eq_false, List.mem_filter, decide_eq_true_eq, beq_iff_eq, and_imp]
      intro c _ hlt
      omega
    simp only [hf, Bool.false_eq_true, if_false]
    by_cases h2 : x < a + bs.length
    · have hn : ¬ (a + bs.length ≤ x) := by omega
      have hm : a ≤ x ∧ x < a + bs.length := by omega
      simp only [hn, hm, decide_false, Bool.false_eq_true, if_false, and_self, if_true]
      rw [← memGet_cellsFrom a bs x (by omega)]
      split
      · rfl
      · rename_i h
        symm
        apply memGet_none
        intro c hc hx
        simp only [Bool.not_eq_true, List.any_eq_false, beq_iff_eq] at h
        exact h c hc hx
    · have hc : (cellsFrom a bs).any (fun c => c.1 == x) = false := by
        simp only [List.any_eq_false, beq_iff_eq]
        intro c hc
        have := cellsFrom_ge a bs c hc
        omega
      have hg : a + bs.length ≤ x := by omega
      have hm : ¬ (a ≤ x ∧ x < a + bs.length) := by omega
      simp [hc, hg, hm]

/-- A write leaves every byte outside it alone. -/
theorem memGet_memWrite_other {m : List Host.Cell} {a x : Nat} {bs : List Nat} (h : x < a ∨ a + bs.length ≤ x) :
    memGet (memWrite m a bs) x = memGet m x := by
  rw [memGet_memWrite, if_neg (by omega)]

theorem putEnb_other {s : State} {k n data enb x : Nat} {p : Bool} (h : x < k ∨ k + n ≤ x) :
    memGet (putEnb s k n data enb p).mem x = memGet s.mem x := by
  simp only [putEnb]
  exact memGet_memWrite_other (by simpa [mergeBytes] using h)

/-- Where no storage holds an error, a write merges with what it finds as it stands. -/
theorem State.merges_sound {s : State} (h : s.codes.flaws = []) (k n enb : Nat) : s.merges k n enb = s := by simp [State.merges, h]

theorem writeEnb_sound {s : State} (h : s.codes.flaws = []) (k n data enb : Nat) (p : Bool) :
    writeEnb s k n data enb p = putEnb s k n data enb p := by rw [writeEnb, State.merges_sound h]

theorem writeEnb_other {s : State} {k n data enb x : Nat} {p : Bool} (hf : s.codes.flaws = []) (h : x < k ∨ k + n ≤ x) :
    memGet (writeEnb s k n data enb p).mem x = memGet s.mem x := by
  rw [writeEnb_sound hf]
  exact putEnb_other h

theorem writeN_other {s : State} {k n data x : Nat} (hf : s.codes.flaws = []) (h : x < k ∨ k + n ≤ x) :
    memGet (writeN s k n data).mem x = memGet s.mem x := writeEnb_other hf h

/-! ## The canonical form -/

/-- The canonical form said of neighbours: strictly rising places, no zero byte. -/
theorem memWf_iff (m : List Host.Cell) : memWf m = true ↔ m.Pairwise (fun c d => c.1 < d.1) ∧ ∀ c ∈ m, c.2 ≠ 0 := by
  induction m with
  | nil => simp [memWf]
  | cons c m ih =>
    cases m with
    | nil => simp [memWf]
    | cons d m =>
      simp only [memWf, Bool.and_eq_true, ih, bne_iff_ne, ne_eq, decide_eq_true_eq, List.pairwise_cons, List.forall_mem_cons]
      constructor
      · rintro ⟨⟨hc, hcd⟩, ⟨hd, hm⟩, hd0, hm0⟩
        refine ⟨⟨⟨hcd, fun e he => ?_⟩, hd, hm⟩, hc, hd0, hm0⟩
        have := hd e he
        omega
      · rintro ⟨⟨⟨hcd, _⟩, hd, hm⟩, hc, hd0, hm0⟩
        exact ⟨⟨hc, hcd⟩, ⟨hd, hm⟩, hd0, hm0⟩

theorem memWf_filter {m : List Host.Cell} (h : memWf m = true) (p : Host.Cell → Bool) : memWf (m.filter p) = true := by
  rw [memWf_iff] at h ⊢
  exact ⟨h.1.filter p, fun c hc => h.2 c (List.mem_of_mem_filter hc)⟩

theorem memWf_cellsFrom (a : Nat) (bs : List Nat) : memWf (cellsFrom a bs) = true := by
  rw [memWf_iff]
  induction bs generalizing a with
  | nil => simp [cellsFrom]
  | cons b bs ih =>
    unfold cellsFrom
    split
    · exact ih (a + 1)
    · rename_i hb
      refine ⟨List.pairwise_cons.2 ⟨fun c hc => ?_, (ih (a + 1)).1⟩, ?_⟩
      · have := cellsFrom_ge _ _ c hc
        simp only
        omega
      · intro c hc
        rcases List.mem_cons.1 hc with rfl | hc
        · intro h0
          apply hb
          have := congrArg BitVec.toNat h0
          simpa using this
        · exact (ih (a + 1)).2 c hc

/-- Every write keeps the canonical form. -/
theorem memWf_memWrite {m : List Host.Cell} (h : memWf m = true) (a : Nat) (bs : List Nat) : memWf (memWrite m a bs) = true := by
  have h1 := memWf_filter h (fun c => decide (c.1 < a))
  have h2 := memWf_filter h (fun c => decide (a + bs.length ≤ c.1))
  have hc := memWf_cellsFrom a bs
  rw [memWf_iff] at h1 h2 hc ⊢
  unfold memWrite
  refine ⟨?_, ?_⟩
  · rw [List.pairwise_append, List.pairwise_append]
    refine ⟨⟨h1.1, hc.1, fun c hc1 d hd => ?_⟩, h2.1, fun c hc1 d hd => ?_⟩
    · have := cellsFrom_ge a bs d hd
      simp only [List.mem_filter, decide_eq_true_eq] at hc1
      omega
    · simp only [List.mem_filter, decide_eq_true_eq] at hd
      rcases List.mem_append.1 hc1 with hc1 | hc1
      · simp only [List.mem_filter, decide_eq_true_eq] at hc1
        omega
      · have := cellsFrom_ge a bs c hc1
        omega
  · intro c hc1
    simp only [List.mem_append] at hc1
    rcases hc1 with (hc1 | hc1) | hc1
    · exact h1.2 c hc1
    · exact hc.2 c hc1
    · exact h2.2 c hc1

theorem memWf_find {s : State} (h : memWf s.mem = true) (u : Nat) (f : FlawKind) : memWf (s.find u f).mem = true := by
  unfold State.find
  cases f <;> dsimp only <;> (repeat' split) <;> first | exact h | exact memWf_memWrite h _ _

theorem memWf_checks {s : State} (h : memWf s.mem = true) (us : List Nat) : memWf (s.checks us).mem = true := by
  have fold (l : List (Nat × FlawKind)) : ∀ s : State, memWf s.mem = true → memWf (l.foldl (fun s p => s.find p.1 p.2) s).mem = true := by
    induction l with
    | nil => exact fun _ h => h
    | cons p l ih => exact fun s h => ih _ (memWf_find h p.1 p.2)
  unfold State.checks
  split
  · exact h
  · exact fold _ s h

theorem memWf_metaCheck {s : State} (h : memWf s.mem = true) (u m : Nat) (wr : Bool) : memWf (s.metaCheck u m wr).mem = true := by
  have hc := memWf_checks h [m]
  unfold State.metaCheck
  dsimp only
  (repeat' split) <;> first | exact hc | exact memWf_memWrite hc _ _

theorem memWf_metas {s : State} (h : memWf s.mem = true) (k : Nat) (us : List Nat) (wr : Bool) : memWf (s.metas k us wr).mem = true := by
  have inner (u : Nat) (l : List Nat) : ∀ s : State, memWf s.mem = true → memWf (l.foldl (fun s m => s.metaCheck u m wr) s).mem = true := by
    induction l with
    | nil => exact fun _ h => h
    | cons m l ih => exact fun s h => ih _ (memWf_metaCheck h u m wr)
  unfold State.metas
  split
  · exact h
  · rename_i hs
    clear hs
    induction us generalizing s with
    | nil => exact h
    | cons u l ih => exact ih (inner u _ s h)

theorem memWf_reads {s : State} (h : memWf s.mem = true) (k n : Nat) : memWf (s.reads k n).mem = true :=
  memWf_checks (memWf_metas h k _ false) _

theorem memWf_passes {s : State} (h : memWf s.mem = true) (k n : Nat) : memWf (s.passes k n).mem = true :=
  memWf_checks (memWf_metas h k _ false) _

theorem memWf_merges {s : State} (h : memWf s.mem = true) (k n enb : Nat) : memWf (s.merges k n enb).mem = true := by
  unfold State.merges
  split
  · exact h
  · exact memWf_checks (memWf_metas h _ _ _) _

theorem memWf_putEnb {s : State} (h : memWf s.mem = true) (k n data enb : Nat) (p : Bool) :
    memWf (putEnb s k n data enb p).mem = true := memWf_memWrite h _ _

theorem memWf_writeEnb {s : State} (h : memWf s.mem = true) (k n data enb : Nat) (p : Bool) :
    memWf (writeEnb s k n data enb p).mem = true := memWf_putEnb (memWf_merges h k n enb) _ _ _ _ _

theorem memWf_writeN {s : State} (h : memWf s.mem = true) (k n data : Nat) : memWf (writeN s k n data).mem = true :=
  memWf_writeEnb h _ _ _ _ _

theorem memWf_writeWords {s : State} (h : memWf s.mem = true) (k : Nat) (ws : List Nat) : memWf (writeWords s k ws).mem = true :=
  memWf_memWrite h _ _

/-- Canonical storages that read alike are equal. -/
theorem mem_ext {m n : List Host.Cell} (hm : memWf m = true) (hn : memWf n = true) (h : ∀ x, memGet m x = memGet n x) : m = n := by
  induction m generalizing n with
  | nil =>
    cases n with
    | nil => rfl
    | cons d n =>
      have := h d.1
      rw [memWf_iff] at hn
      simp [memGet] at this
      exact absurd this.symm (hn.2 d (by simp))
  | cons c m ih =>
    rw [memWf_iff] at hm
    have hc0 : c.2 ≠ 0 := hm.2 c (by simp)
    have hcm : ∀ d ∈ m, c.1 < d.1 := (List.pairwise_cons.1 hm.1).1
    cases n with
    | nil =>
      have := h c.1
      simp [memGet] at this
      exact absurd this hc0
    | cons d n =>
      rw [memWf_iff] at hn
      have hd0 : d.2 ≠ 0 := hn.2 d (by simp)
      have hdn : ∀ e ∈ n, d.1 < e.1 := (List.pairwise_cons.1 hn.1).1
      have hk : c.1 = d.1 := by
        rcases Nat.lt_trichotomy c.1 d.1 with hlt | heq | hgt
        · have := h c.1
          have e1 : memGet n c.1 = 0 := memGet_none (fun e he => by have := hdn e he; omega)
          have e2 : d.1 ≠ c.1 := by omega
          simp [memGet, e2, e1] at this
          exact absurd this hc0
        · exact heq
        · have := h d.1
          have e1 : memGet m d.1 = 0 := memGet_none (fun e he => by have := hcm e he; omega)
          have e2 : c.1 ≠ d.1 := by omega
          simp [memGet, e2, e1] at this
          exact absurd this.symm hd0
      have hv : c.2 = d.2 := by simpa [memGet, hk] using h c.1
      have hcd : c = d := Prod.ext hk hv
      subst hcd
      congr 1
      apply ih ((memWf_iff m).2 ⟨(List.pairwise_cons.1 hm.1).2, fun e he => hm.2 e (by simp [he])⟩)
        ((memWf_iff n).2 ⟨(List.pairwise_cons.1 hn.1).2, fun e he => hn.2 e (by simp [he])⟩)
      intro x
      by_cases hx : c.1 = x
      · rw [memGet_none (fun e he => by have := hcm e he; omega), memGet_none (fun e he => by have := hdn e he; omega)]
      · simpa [memGet, hx] using h x

/-! ## Reads -/

/-- What reads leave as it was: everything but stored bytes, poison, codes and the free values' counter (R319, R326). -/
def State.SameUnits (s t : State) : Prop :=
  t.core = s.core ∧ t.others = s.others ∧ t.self = s.self ∧ t.hub = s.hub ∧ t.dies = s.dies ∧ t.mbs = s.mbs ∧ t.view = s.view ∧
    t.args = s.args ∧ t.agenda = s.agenda ∧ t.turn = s.turn

theorem State.SameUnits.trans {a b c : State} (h : a.SameUnits b) (k : b.SameUnits c) : a.SameUnits c := by
  simp_all [State.SameUnits]

theorem State.find_units (s : State) (u : Nat) (f : FlawKind) : s.SameUnits (s.find u f) := by
  unfold State.find
  cases f <;> dsimp only <;> (repeat' split) <;> exact ⟨rfl, rfl, rfl, rfl, rfl, rfl, rfl, rfl, rfl, rfl⟩

/-- Checks of codes find errors of the storage, and change nothing of any unit (R319, R326). -/
theorem State.checks_units (s : State) (us : List Nat) : s.SameUnits (s.checks us) := by
  have fold (l : List (Nat × FlawKind)) (s : State) : s.SameUnits (l.foldl (fun s p => s.find p.1 p.2) s) := by
    induction l generalizing s with
    | nil => exact ⟨rfl, rfl, rfl, rfl, rfl, rfl, rfl, rfl, rfl, rfl⟩
    | cons p l ih => exact (s.find_units p.1 p.2).trans (ih _)
  unfold State.checks
  split
  · exact ⟨rfl, rfl, rfl, rfl, rfl, rfl, rfl, rfl, rfl, rfl⟩
  · exact fold _ s

theorem State.SameUnits.refl (s : State) : s.SameUnits s := ⟨rfl, rfl, rfl, rfl, rfl, rfl, rfl, rfl, rfl, rfl⟩

theorem State.metaCheck_units (s : State) (u m : Nat) (wr : Bool) : s.SameUnits (s.metaCheck u m wr) := by
  unfold State.metaCheck
  dsimp only
  (repeat' split) <;> exact (s.checks_units [m]).trans ⟨rfl, rfl, rfl, rfl, rfl, rfl, rfl, rfl, rfl, rfl⟩

/-- The checks of metadata change nothing of any unit (R323, R326). -/
theorem State.metas_units (s : State) (k : Nat) (us : List Nat) (wr : Bool) : s.SameUnits (s.metas k us wr) := by
  have inner (u : Nat) (l : List Nat) (s : State) : s.SameUnits (l.foldl (fun s m => s.metaCheck u m wr) s) := by
    induction l generalizing s with
    | nil => exact .refl s
    | cons m l ih => exact (s.metaCheck_units u m wr).trans (ih _)
  unfold State.metas
  split
  · exact .refl s
  · rename_i hs
    clear hs
    induction us generalizing s with
    | nil => exact .refl s
    | cons u l ih => exact (inner u _ s).trans (ih _)

theorem State.merges_units (s : State) (k n enb : Nat) : s.SameUnits (s.merges k n enb) := by
  unfold State.merges
  split
  · exact .refl s
  · exact (s.metas_units _ _ _).trans (State.checks_units _ _)

theorem State.reads_units (s : State) (k n : Nat) : s.SameUnits (s.reads k n) :=
  ((s.metas_units k (unitsOf k n) false).trans (State.checks_units _ (unitsOf k n))).trans ⟨rfl, rfl, rfl, rfl, rfl, rfl, rfl, rfl, rfl, rfl⟩

theorem State.passes_units (s : State) (k n : Nat) : s.SameUnits (s.passes k n) :=
  ((s.metas_units k (unitsOf k n) false).trans (State.checks_units _ (unitsOf k n))).trans ⟨rfl, rfl, rfl, rfl, rfl, rfl, rfl, rfl, rfl, rfl⟩

@[simp] theorem State.reads_core (s : State) (k n : Nat) : (s.reads k n).core = s.core := (s.reads_units k n).1
@[simp] theorem State.reads_others (s : State) (k n : Nat) : (s.reads k n).others = s.others := (s.reads_units k n).2.1
@[simp] theorem State.reads_self (s : State) (k n : Nat) : (s.reads k n).self = s.self := (s.reads_units k n).2.2.1
@[simp] theorem State.reads_hub (s : State) (k n : Nat) : (s.reads k n).hub = s.hub := (s.reads_units k n).2.2.2.1
@[simp] theorem State.reads_dies (s : State) (k n : Nat) : (s.reads k n).dies = s.dies := (s.reads_units k n).2.2.2.2.1
@[simp] theorem State.reads_mbs (s : State) (k n : Nat) : (s.reads k n).mbs = s.mbs := (s.reads_units k n).2.2.2.2.2.1
@[simp] theorem State.reads_view (s : State) (k n : Nat) : (s.reads k n).view = s.view := (s.reads_units k n).2.2.2.2.2.2.1
@[simp] theorem State.reads_args (s : State) (k n : Nat) : (s.reads k n).args = s.args := (s.reads_units k n).2.2.2.2.2.2.2.1

/-- Where no storage holds an error, and none behind a slice is poisoned, reads change no byte and mark none. -/
theorem State.reads_sound (s : State) (k n : Nat) (h : s.codes.flaws = []) (hp : hasSlice k = false ∨ s.poison = []) :
    (s.reads k n).mem = s.mem ∧ (s.reads k n).poison = s.poison := by
  have hm : s.metas k (unitsOf k n) false = s := by
    rcases hp with hp | hp <;> simp [State.metas, h, hp]
  simp [State.reads, hm, State.checks, h]

/-! ## Writes and the units -/

/-- A write changes stored bytes, poison, codes and what the views may return, and nothing of any unit. -/
theorem writeEnb_units (s : State) (k n data enb : Nat) (p : Bool) :
    let t := writeEnb s k n data enb p
    t.core = s.core ∧ t.others = s.others ∧ t.self = s.self ∧ t.hub = s.hub ∧ t.dies = s.dies ∧ t.mbs = s.mbs ∧ t.args = s.args ∧
      t.agenda = s.agenda ∧ t.turn = s.turn := by
  obtain ⟨h1, h2, h3, h4, h5, h6, _, h8, h9, h10⟩ := s.merges_units k n enb
  exact ⟨h1, h2, h3, h4, h5, h6, h8, h9, h10⟩

@[simp] theorem writeEnb_core (s : State) (k n data enb : Nat) (p : Bool) : (writeEnb s k n data enb p).core = s.core :=
  (writeEnb_units s k n data enb p).1
@[simp] theorem writeEnb_others (s : State) (k n data enb : Nat) (p : Bool) : (writeEnb s k n data enb p).others = s.others :=
  (writeEnb_units s k n data enb p).2.1
@[simp] theorem writeEnb_self (s : State) (k n data enb : Nat) (p : Bool) : (writeEnb s k n data enb p).self = s.self :=
  (writeEnb_units s k n data enb p).2.2.1
@[simp] theorem writeEnb_hub (s : State) (k n data enb : Nat) (p : Bool) : (writeEnb s k n data enb p).hub = s.hub :=
  (writeEnb_units s k n data enb p).2.2.2.1
@[simp] theorem writeEnb_dies (s : State) (k n data enb : Nat) (p : Bool) : (writeEnb s k n data enb p).dies = s.dies :=
  (writeEnb_units s k n data enb p).2.2.2.2.1
@[simp] theorem writeEnb_mbs (s : State) (k n data enb : Nat) (p : Bool) : (writeEnb s k n data enb p).mbs = s.mbs :=
  (writeEnb_units s k n data enb p).2.2.2.2.2.1
@[simp] theorem writeEnb_args (s : State) (k n data enb : Nat) (p : Bool) : (writeEnb s k n data enb p).args = s.args :=
  (writeEnb_units s k n data enb p).2.2.2.2.2.2.1
@[simp] theorem writeEnb_agenda (s : State) (k n data enb : Nat) (p : Bool) : (writeEnb s k n data enb p).agenda = s.agenda :=
  (writeEnb_units s k n data enb p).2.2.2.2.2.2.2.1
@[simp] theorem writeEnb_turn (s : State) (k n data enb : Nat) (p : Bool) : (writeEnb s k n data enb p).turn = s.turn :=
  (writeEnb_units s k n data enb p).2.2.2.2.2.2.2.2

@[simp] theorem writeN_core (s : State) (k n data : Nat) : (writeN s k n data).core = s.core := writeEnb_core _ _ _ _ _ _
@[simp] theorem writeN_others (s : State) (k n data : Nat) : (writeN s k n data).others = s.others := writeEnb_others _ _ _ _ _ _
@[simp] theorem writeN_self (s : State) (k n data : Nat) : (writeN s k n data).self = s.self := writeEnb_self _ _ _ _ _ _
@[simp] theorem writeN_hub (s : State) (k n data : Nat) : (writeN s k n data).hub = s.hub := writeEnb_hub _ _ _ _ _ _
@[simp] theorem writeN_dies (s : State) (k n data : Nat) : (writeN s k n data).dies = s.dies := writeEnb_dies _ _ _ _ _ _
@[simp] theorem writeN_mbs (s : State) (k n data : Nat) : (writeN s k n data).mbs = s.mbs := writeEnb_mbs _ _ _ _ _ _
@[simp] theorem writeN_args (s : State) (k n data : Nat) : (writeN s k n data).args = s.args := writeEnb_args _ _ _ _ _ _
@[simp] theorem writeN_agenda (s : State) (k n data : Nat) : (writeN s k n data).agenda = s.agenda := writeEnb_agenda _ _ _ _ _ _
@[simp] theorem writeN_turn (s : State) (k n data : Nat) : (writeN s k n data).turn = s.turn := writeEnb_turn _ _ _ _ _ _

theorem reset_memWf : memWf State.reset.mem = true := rfl

end Sys2Proof.Machine
end

