-- ==== Sys2Proof/Tests/Slice0.lean ====
section
/-! SUPPORT. Tests: ill-formed terms that the checks refuse, words written out from the encodings of the spec, single steps with
results worked out by hand from its rules, and witnesses for the hypotheses of the statements. -/

set_option maxRecDepth 100000
set_option exponentiation.threshold 2048

namespace Sys2Proof.Tests

open Sys2Proof Sys2Proof.Machine

/-! ## Small states -/

/-- A tile that runs at supervisor level with every bank and facet, sk = 128 k, RG0 mapping the first GiB of global space to HBM class 0,
and a stage. -/
def base : State :=
  { State.reset with
    hub := { Hub.reset with featacc := Config.featcap, booted := true, rdy := Vector.replicate 16 31 },
    core :=
      { Tile.reset with
        task := { Task.reset with run := .running, claim := 0xFFFFFFFFFFFF },
        regs := { Regs.reset with s := Vector.ofFn (fun k => BitVec.ofNat 64 (128 * k.val)) },
        spr := { Spr.reset with
          pc := 0x100000000000, bown := 0xFFFFFFFFFFFF, taskid := 0xFF00000005, stage := 0x8000,
          rg := Spr.reset.rg.setIfInBounds 0 0x1000000000000F },
        rng := { Rng.reset with run := true, count := 2, gen := 2 },
        facets := Vector.replicate 8 { Facet.reset with ready := true } } }

/-- The same tile at task level, with a monitor. -/
def user : State := base.onCore (fun t => { t with spr := { t.spr with tstat := 0, mcsb := 64, mvec := 0x1000 } })

/-- The same tile with one scalar register changed. -/
def withReg (s : State) (n : Nat) (v : Word) : State :=
  s.onCore (fun t => { t with regs := { t.regs with s := t.regs.s.setIfInBounds n v } })

/-- The same tile with one predicate changed. -/
def withPred (s : State) (n : Nat) : State :=
  s.onCore (fun t => { t with regs := { t.regs with q := t.regs.q.setIfInBounds n true } })

/-- The scalar register file after a step. -/
def sregOf (o : Out) (n : Nat) : Word := match o with | .next s => s.core.sreg n | _ => 0

def dab : OpSNgdab := { n := 0, g := 0, d := 3, a := 1, b := 2 }
def da : OpSNgda := { n := 0, g := 0, d := 3, a := 1 }
def dai : OpSNgdai := { n := 0, g := 0, d := 3, a := 1, i := 255 }
def dai0 : OpSNgdai := { n := 0, g := 0, d := 3, a := 1, i := 0 }
def dai2 : OpSNgdai2 := { n := 0, g := 0, d := 3, a := 1, i := 63 }
def jmpA : OpSNga := { n := 0, g := 0, a := 1 }
def braO (o : Fin 1048576) : OpSNgo := { n := 0, g := 0, o := o }

def ppp : OpSNgqxayb := { n := 0, g := 0, q := 2, x := 1, a := 9, y := 0, b := 15 }

/-- A handler that has come from task level within the monitor: PSUP 1, TPC a bundle. -/
def handler : State := base.onCore (fun t => { t with spr := { t.spr with tstat := 3, tpc := 0x2000 } })

def vda : OpVGdai := { g := 0, d := 5, a := 1, i := 0, h := 0, e := 0 }
def vdm : OpVGdaim := { g := 0, d := 5, a := 1, i := 0, m := 0, h := 0, e := 0 }
def vdb : OpVGdaif := { g := 0, d := 5, a := 1, i := 0, f := 3, h := 0, e := 0 }
def amo : OpSSdabw := { s := 0, d := 1, a := 1, b := 2, w := 1 }
def vab : OpVGdabf := { g := 0, d := 1, a := 2, b := 3, f := 0, h := 0, e := 0 }
def va1 : OpVGdaf := { g := 0, d := 2, a := 4, f := 0, h := 0, e := 0 }
def vi : OpVGdabf2 := { g := 0, d := 1, a := 2, b := 3, f := 1, h := 0, e := 0 }
def vf2 : OpVGdaf2 := { g := 0, d := 1, a := 2, f := 2, h := 0, e := 0 }
def vu : OpVGdauf := { g := 0, d := 1, a := 2, u := 0, f := 3, h := 0, e := 0 }
def vq : OpVGdab := { g := 0, d := 1, a := 2, b := 3, h := 0, e := 0 }

/-- The same tile with one vector register changed. -/
def withVec (s : State) (n : Nat) (v : VWord) : State :=
  s.onCore (fun t => { t with regs := { t.regs with v := t.regs.v.setIfInBounds n v } })

/-- An access finds no cause, no breach and nothing to wait for. -/
def free (s : State) (i : Instr) (a size enb : Nat) (r w : Bool) : Bool :=
  let x := access s i a size enb r w
  x.trap.isNone && x.wchk.isNone && !x.wait

/-- Such an access is granted. -/
theorem granted_of_free {s : State} {i : Instr} {a size enb : Nat} {r w : Bool} (h : free s i a size enb r w = true) :
    Granted s i a size enb r w (access s i a size enb r w).dest := by
  simp only [free, Bool.and_eq_true, Option.isNone_iff_eq_none, Bool.not_eq_true'] at h
  unfold Granted
  cases hx : access s i a size enb r w
  simp_all

/-- A block whose word 1 has a nonzero upper byte. -/
def badBlock : State := withVec base 2 (2 ^ 56)

/-- The generator stopped and empty. -/
def noBits : State := base.onCore (fun t => { t with rng := Rng.reset })

def xm : OpTNgfkab := { n := 0, g := 0, f := 0, k := 0, a := 1, b := 2, e := 0 }
def xu : OpTNgfab := { n := 0, g := 0, f := 0, a := 1, b := 2, e := 1 }
def xa : OpTNgfa := { n := 0, g := 0, f := 0, a := 1, e := 1 }
def xf : OpTNgf := { n := 0, g := 0, f := 0, e := 0 }
def mm : OpTNgcxym := { n := 0, g := 0, c := 0, x := 0, y := 1, m := 1, e := 0 }
def cp : OpTNgdab := { n := 0, g := 0, d := 0, a := 1, b := 0, e := 0 }
def bb : OpTNgab := { n := 0, g := 0, a := 1, b := 2, e := 0 }

/-- Facet 0 busy with a command, facet 1 in error. -/
def busyFacet : State := base.onCore (fun t =>
  (t.setFacet 0 { t.facet 0 with busy := true, queue := [{ op := 12, k := 0, et := 0, a := 0, b := 0, stamp := 0 }] }).setFacet 1
    { t.facet 1 with err := true, ecode := 3 })

/-- Two FULL staging buffers of BF16 zeros. -/
def matrix : State := base.onCore (fun t =>
  { t with osb := Vector.replicate 4 { Osb.reset with st := 2, desc := 0x600000, rows := List.replicate 8 0, scales := List.replicate 8 0 } })

/-- Channel 0 with an open and empty window. -/
def window : State := base.onCore (fun t => t.setChan 0 { Chan.reset with lo := 4096, hi := 8192, wm := 4096 })

/-- No bank claimed. -/
def noClaim : State := base.onCore (fun t => t.onTask (fun k => { k with claim := 0 }))

/-- A bead in the mailbox. -/
def mail : State := base.onCore (fun t => { t with beads := { t.beads with mailbox := [0] } })

/-- A current bead. -/
def bead : State := base.onCore (fun t => { t with beads := { t.beads with cur := some 0 } })

/-- No stage. -/
def noStage : State := base.onCore (fun t => { t with spr := { t.spr with stage := 0 } })

/-! States of the units: the home of class 1, stack 0, and of class 0, DIA 0, is base die 0. -/

/-- A TLB entry of base die 0. -/
def tlb (spc : Nat) (r w : Bool) : TlbEnt := { spc := spc, page := 0, size := 2097152, base := 0, r := r, w := w }

/-- The module with the first 2 MiB of class 0 and of stack 0 translated. -/
def sys : State := base.setMb 0 { Mb.reset with tlb := [tlb 0 true true, tlb 1 true true] }

/-- Operands for a unit step. -/
def withArgs (s : State) (a : List Nat) : State := { s with args := a }

/-- A load of 8 bytes of class 0, at DIA 64. -/
def ldReq : Req := { Req.empty .ld with va := 0x100000000040, size := 8, dst := 3, cls := 0, place := 64 }

/-- Tile 0 with one request, made the operand of a step. -/
def asks (s : State) (r : Req) : State := withArgs (s.onCore (fun t => { t with reqs := [r] })) [0, 0]

/-- Base die 0 with tables for DIA 64 of class 0: three tables and a leaf of 2 MiB that grants reads and writes, or with a root entry only. -/
def paged : State :=
  let k (p : Nat) : Nat := 16 * 2 ^ 56 + p
  writeN (writeN (writeN (sys.setMb 0 { Mb.reset with ptb0 := 0x1000 }) (k 0x1000) 8 0x2001) (k 0x2000) 8 0x3001) (k 0x3000) 8 0x40000E

/-- The end of a walk is a leaf that grants a read. -/
def leafEnd (w : WalkEnd × List (Nat × Nat) × State) : Bool := match w.1 with | .leaf _ _ r _ => r | _ => false

/-- The end of a walk is an error. -/
def errEnd (w : WalkEnd × List (Nat × Nat) × State) : Bool := match w.1 with | .err _ => true | _ => false

/-- The module with storage in which reading finds a flaw of one place. -/
def flawed (k : Nat) (f : FlawKind) : State := { sys with codes := { sys.codes with flaws := [.unit k f] } }

/-- A fault record of base die 0. -/
def frec : FRec := { seq := 7, cls := 0, tgt := 0, dia := 64, va := 0, reason := 1, acc := 0, agent := 0, ch := 0, tile := 0, die := 0, gtc := 0 }

/-- A queue entry for a slot word, its task, windows and banks. -/
def entry (word a : Nat) : Tcq :=
  { word := word, et := 0, a := a, b := 0, beadRec := 0, rg := [0x1000000000000F], bown := 2 ^ 48 - 1, task := 5, stage := 0x8000, stamp := 0 }

/-- Tile 0 with queue entries and a command at the head of channel 0. -/
def engines (q : List Tcq) (h : List ChCmd) : State :=
  withArgs (base.onCore (fun t => { t.setChan 0 { Chan.reset with cmds := h } with tcq := q })) [0, 0, 64]

/-- A receive buffer that waits for tile 2's operand tile and has it pending, and a buffer whose fill is arriving. -/
def delivered : State := base.onCore (fun t =>
  { t with
    osb := (t.osb.setIfInBounds 0 { Osb.reset with st := 1, recv := true, src := 2 }).setIfInBounds 1 { Osb.reset with st := 1, arr := true },
    slots := t.slots.setIfInBounds 0 (some { task := 5, sender := 2, buf := { Osb.reset with st := 2 } }),
    task := { t.task with launch := some { q := 0, n := 0, entry := 0x100000000000, rg := [], tiles := 1, facets := 255, banks := 1, arg0 := 0, arg1 := 0,
                                           tag := 0, stg := false, sidx := 0, gang := false, start := 0 } } })

/-- Facet 0 of tile 0 with one command in its queue. -/
def facetWith (op : Nat) : State :=
  withArgs (base.onCore (fun t => t.setFacet 0 { t.facet 0 with queue := [{ op := op, k := 0, et := 1, a := 128, b := 256, stamp := 0 }] })) [0, 0, 0]

/-- Facet 0 with reference mode off. -/
def unref : State := base.onCore (fun t => t.setFacet 0 { t.facet 0 with fcfg := 0 })

/-! Queue 0 of die 0 and its records; located addresses of stack 0. -/

/-- A located address of stack 0. -/
def loc (a : Nat) : Nat := 2 ^ 52 + a

/-- A record of a kind and operation, its other words and the flags of word 0. -/
def record (kind op flags : Nat) (ws : List Nat) : Nat :=
  kind + flags + op * 2 ^ 28 + (List.range ws.length).foldl (fun v i => v + ws.getD i 0 * 2 ^ (64 * (i + 1))) 0

/-- An active privileged queue 0 with a record at its head, and operands. -/
def queued (s : State) (w : Nat) (a : List Nat) : State :=
  withArgs (s.setQueue 0 { Queue.reset with cfg := 0x30, state := 1, wc := 1, head := some w }) a

/-- The first record with a kind and operation may start. -/
def starts (s : State) (w : Nat) : Bool := (ready (queued s w [0]) 0 (recKind w) (recOp w)).isSome

/-- Stage 0 of die 0 in a state. -/
def staged (f : Stage → Stage) : State := sys.setStage 0 0 (f { Stage.reset with w0 := 1, w1 := 0x3F00 })

/-- A located access that ends with a value. -/
def okRead (r : Except LocErr Nat × State) : Bool := r.1.isOk

/-- A TASK record for tiles of a mask. -/
def taskRec (tiles : Nat) : Nat := record 1 0 0 [0x100000000000, loc 0x20000, tiles, 0x1]

/-- The launch of that record on tile 0. -/
def launch0 : Launch := launchOf 0 0 (taskRec 1) (List.replicate 8 0)

/-- Tile 0 with a task to come, with one, and with one that drains. -/
def placed : State := withArgs (sys.onCore (fun t => t.onTask (fun k => { k with placed := some launch0, run := .idle }))) [0]
def launched : State := sys.onCore (fun t => t.onTask (fun k => { k with launch := some launch0 }))
def draining : State := withArgs (sys.onCore (fun t => t.onTask (fun k =>
  { k with drains := [{ launch := some launch0, bown := 1, fown := 0, task := 5, killed := false, late := false, stamp := 0, rel := [] }] }))) [0]

/-- Queue 0 enabled, its ring at 0x10000 of stack 0, with one record written there and not yet fetched. -/
def fetching : State :=
  writeN (sys.setQueue 0 { Queue.reset with cfg := 0x30, state := 1, wc := 1, base := BitVec.ofNat 64 (loc 0x10000) })
    (16 * 2 ^ 56 + 0x10000) 64 (taskRec 3)

/-- Tile 0 serving stage 0, which is in a state and has a control bead queued. -/
def served (st : StageSt) : State := launched.setStage 0 0 { Stage.reset with st := st, w0 := 1, w1 := 0x3F00, ctl := [4 * 2 ^ 88] }

/-- Tile 0 with a send that no barrier holds and a retirement that waits for none. -/
def sending : State := withArgs ((staged (fun x => { x with st := .run })).onCore (fun t => { t with beads := { t.beads with
  sends := [{ bead := 2 ^ 88, bar := 0, hasBar := false, stage := 0x8000, stamp := 0 }],
  dones := [{ bead := 0, status := 1, waits := 0, stage := 0x8000, stamp := 0 }] } })) [0]

/-- A control bead on its way to stage 0 of die 0. -/
def arriving : State := withArgs (sys.onDie 0 (fun x => { x with transit := [(0, 0, 4 * 2 ^ 88)] })) [0]

/-- Die 0's Locket asking die 0 to hold and die 1 to release. -/
def locked : State := withArgs (sys.onLock 0 (fun x => { x with reqDies := [0], relDies := [1] })) [0]

/-- A retirement and a failure notice at die 0's scheduler. -/
def noticed : State := withArgs (sys.onDie 0 (fun x => { x with retire := [(0, 0, 2 ^ 88, 1)], notices := [(0, 0, 1, 2, true), (0, 1024, 1, 2, true)] })) [0]

/-! The Pendant and the Locket of die 0. -/

/-- A one-stage tableau of order 1 whose coefficients are zero. -/
def tableau : List Nat := 0x100 :: List.replicate 63 0

/-- A job descriptor for job 0, tableau slot 0, one element, one slot from 0. -/
def jobDesc : List Nat :=
  [0, 0, 1, 0x3F8000003F800000, 0x3F800000, 0, 0, loc 0x5000, loc 0x6000, loc 0x7000, loc 0x7008, loc 0x8000, loc 0x9000, loc 0x9008, 1, 0]

/-- Job 0 in a state, its tableau loaded. -/
def job (f : Job → Job) : State :=
  setJob (sys.onPend 0 (fun p => { p with slots := [(0, tableau)] })) 0 0 (f { Job.reset with desc := jobDesc, st := 1 })

/-- A batch of slot 0 that has been released as a bead, and one that has not. -/
def batch (rel : Bool) : Batch := { buf := 0, seq := 0, stage := 0, ns := 1, psb := 0, slots := [(0, 0)], tick := 0, released := rel, lost := false }

/-- A sample in slot 0. -/
def sample (f : Sample → Sample) (s : State) : State :=
  setSample s 0 0 (f { Sample.reset with sst := 1, h := 0x3F800000, tend := 0x3F800000, hs := 0x3F800000, state := loc 0xA000, hist := loc 0xB000 })

/-- Whether a Pendant or Locket operation ends with a value. -/
def isGot {α : Type} (r : PRes α) : Bool := match r with | .got _ _ => true | _ => false

/-- The value of such an operation. -/
def gotVal (r : PRes Nat) : Nat := match r with | .got v _ => v | _ => 0

/-- A bead that returns the batch of slot 0: BID 0, one record of 128 bytes. -/
def returned : Nat := 1 * 2 ^ 96 + loc 0xC000 * 2 ^ 192 + 128 * 2 ^ 256

/-- A Locket job of die 0: one facet, one read, no range, its image at 0x100000 of stack 0, HTMO 1, period or step as the fields say. -/
def lockDesc0 (w0 w2 w4 : Nat) : List Nat :=
  [w0, loc 0x100000, w2, 0, w4, 1 + 2 ^ 16, loc 0xD000, 0, 1, 0, 0, 0, 0, 0, 0, 0]

/-- Die 0's Locket with a job, in a state. -/
def lock (f : Lock → Lock) : State := withArgs (sys.onLock 0 (fun x => f { x with desc := lockDesc0 0 0 0 })) [0, 0, 0]

/-- A clasp whose copy 1 has dissented seven times within the window. -/
def eighth : Clasp := { Clasp.reset with hist := (List.range 7).map (fun k => (1, k)) }

/-! ## Words from the encodings -/

/-- Words of the scalar families: major opcode in bits 31 to 25, then the fields of each format (R89, R92, R96). -/
theorem test_words_scalar :
    decodeS 0x0200C108 = some (.add dab) ∧ decodeS 0x68380000 = some (.ldi { d := 7, i := 0 }) ∧
    decodeS 0x6A3A1000 = some (.ldhi { d := 7, h := 2, i := 0x1000 }) ∧
    decodeS 0x70031004 = some (.cmp { n := 0, g := 0, q := 3, a := 4, b := 0, c := 2 }) ∧
    decodeS 0x720FFEFF = some (.cmpi { n := 0, g := 0, q := 15, a := 63, c := 5, i := 127 }) ∧
    decodeS 0x2750420C = some (.sel { n := 1, q := 5, d := 1, a := 2, b := 3 }) ∧
    decodeS 0x4E30423F = some (.shli { n := 0, g := 3, d := 1, a := 2, i := 63 }) ∧
    decodeS 0x7608CA80 = some (.por { n := 0, g := 0, q := 8, x := 1, a := 9, y := 0, b := 10 }) ∧
    decodeS 0xA801005F = some (.mfs { n := 0, g := 0, d := 4, i := 0x5F }) ∧
    decodeS 0xB6004205 = some (.xv2sI16 { n := 0, g := 0, d := 1, a := 2, i := 5 }) := by decide

/-- Words of the control and scalar memory families (R92, R96). -/
theorem test_words_control_memory :
    decodeS 0x843FFFFD = some (.brG { n := 0, g := 3, o := 0xFFFFD }) ∧
    decodeS 0x82097FFF = some (.brc { n := 0, g := 0, x := 1, q := 2, o := 0x7FFF }) ∧
    decodeS 0x88027FFE = some (.call { n := 0, g := 0, d := 9, o := 0x3FFE }) ∧
    decodeS 0x8E020000 = some (.loopr { n := 0, g := 0, s := 1, o := 0 }) ∧
    decodeS 0xA6000000 = some (.retire { n := 0, g := 0 }) ∧ decodeS 0xA0000009 = some (.trap { n := 0, g := 0, i := 9 }) ∧
    decodeS 0x3B60420E = some (.amoCas { s := 11, d := 1, a := 2, b := 3, w := 1 }) ∧
    decodeS 0xCA0042FF = some (.ldWN { n := 0, g := 0, d := 1, a := 2, i := 255 }) ∧
    decodeS 0xD601C400 = some (.stD { n := 0, g := 0, d := 7, a := 4, i := 0 }) ∧
    decodeS 0xE00EC000 = some (.fence { n := 0, g := 0, k := 3, s := 11 }) ∧
    decodeS 0xF1FF0280 = some (.header { rb := 0, re := 0, vj := 0, tw := 1, e0 := 255, e1 := 2, et := 128 }) := by decide

/-- Words of the vector families, without and with a header (R93, R97). -/
theorem test_words_vector :
    decodeV 0x08020A31 0 0 = some (.vfma { g := 0, d := 4, a := 5, b := 6, f := 1, h := 0, e := 0 }) ∧
    decodeV 0x187B8210 0 0 = some (.vcmp { g := 3, c := 6, m := 7, a := 1, b := 2, f := 0, h := 0, e := 0 }) ∧
    decodeV 0x20008419 1 0x40 = some (.vaddI { g := 0, d := 1, a := 2, b := 3, f := 1, h := 1, e := 0x40 }) ∧
    decodeV 0x3200841F 0 0 = some (.vminInt { g := 0, d := 1, a := 2, b := 3, f := 7, h := 0, e := 0 }) ∧
    decodeV 0xB202DFFF 0 0 = some (.vli { g := 0, d := 5, w := 2, i := 0x1FFF, h := 0, e := 0 }) ∧
    decodeV 0xA00085F8 1 0xFF = some (.vld { g := 0, d := 1, a := 2, i := 63, h := 1, e := 0xFF }) ∧
    decodeV 0x72042000 0 0 = some (.vtrn { g := 0, d := 8, a := 16, h := 0, e := 0 }) ∧
    decodeV 0x98144818 0 0 = some (.vpprob { g := 0, d := 40, a := 36, b := 3, h := 0, e := 0 }) ∧
    decodeV 0xB8001000 0 0 = some (.chkV { g := 0, a := 8, h := 0, e := 0 }) := by decide

/-- Words of the facet, matrix, copy, barrier, window and bead families (R94, R98). -/
theorem test_words_tensor :
    decodeT 0x020E6084 0 = some (.xmvm { n := 0, g := 0, f := 7, k := 3, a := 1, b := 2, e := 0 }) ∧
    decodeT 0x06000084 8 = some (.xupdA { n := 0, g := 0, f := 0, a := 1, b := 2, e := 8 }) ∧
    decodeT 0x2000C109 0 = some (.mxld { n := 0, g := 0, d := 3, a := 1, b := 2, f := 1, e := 0 }) ∧
    decodeT 0x260FD093 0 = some (.mmag { n := 0, g := 0, c := 7, x := 3, y := 2, m := 4, a := 9, k := 3, e := 0 }) ∧
    decodeT 0x28020092 0 = some (.mxrd { n := 0, g := 0, c := 1, a := 9, k := 2, e := 0 }) ∧
    decodeT 0x30004108 0 = some (.cpy { n := 0, g := 0, d := 1, a := 1, b := 2, e := 0 }) ∧
    decodeT 0x4800C108 0 = some (.barTest { n := 0, g := 0, d := 3, a := 1, b := 2, e := 0 }) ∧
    decodeT 0x4A01C108 0 = some (.chset { n := 0, g := 0, d := 7, a := 1, b := 2, e := 0 }) ∧
    decodeT 0x5600C01C 0 = some (.beadHdr { n := 0, g := 0, d := 3, b := 7, e := 0 }) ∧
    decodeT 0x62002084 0 = some (.dupS { n := 0, g := 0, f := 1, a := 1, b := 2, e := 0 }) := by decide

/-- Words that no opcode or no code names are refused (R89, R96 to R98). -/
theorem test_words_refused :
    decodeS 0x3C000000 = none ∧ decodeS 0xE2000000 = none ∧ decodeV 0x1C000000 0 0 = none ∧ decodeT 0x64000000 0 = none ∧
    decodeS 1 = none ∧ decodeV 0x1FFFFFF 1 0xFF = none ∧ decodeT 1 0xFF = none ∧ decodeTableWord 16 0x0200 = none := by decide

/-! ## Ill-formed terms -/

/-- WellFormed refuses a register, code or field outside its limits, and takes the same term within them (R10, R75, R90 to R98, R116). -/
theorem test_wf_refuses :
    Instr.wf (.cmp { n := 0, g := 0, q := 1, a := 1, b := 1, c := 6 }) = false ∧ Instr.wf (.cmp { n := 0, g := 0, q := 1, a := 1, b := 1, c := 5 }) = true ∧
    Instr.wf (.fence { n := 0, g := 0, k := 0, s := 1 }) = false ∧ Instr.wf (.fence { n := 0, g := 0, k := 1, s := 13 }) = false ∧
    Instr.wf (.fence { n := 0, g := 0, k := 1, s := 1 }) = true ∧
    Instr.wf (.amoAdd { s := 13, d := 1, a := 1, b := 1, w := 0 }) = false ∧
    Instr.wf (.vadd { g := 0, d := 1, a := 1, b := 1, f := 2, h := 0, e := 0 }) = false ∧
    Instr.wf (.vadd { g := 0, d := 1, a := 1, b := 1, f := 1, h := 0, e := 1 }) = false ∧
    Instr.wf (.vcmpI { g := 0, c := 6, m := 1, a := 1, b := 1, f := 0, h := 0, e := 0 }) = false ∧
    Instr.wf (.vbfacc { g := 0, d := 1, a := 2, f := 0, h := 0, e := 0 }) = false ∧
    Instr.wf (.mma { n := 0, g := 0, c := 0, x := 0, y := 1, m := 5, e := 0 }) = false ∧
    Instr.wf (.mxldR { n := 0, g := 0, d := 0, b := 0, e := 0 }) = false ∧
    Instr.wf (.chset { n := 0, g := 0, d := 8, a := 0, b := 0, e := 0 }) = false ∧
    Instr.wf (.dupS { n := 0, g := 0, f := 0, a := 0, b := 0, e := 0 }) = false := by decide
/-! ## Scalar statements: witnesses and steps -/

/-- Each scalar operation is enabled on a small state, at the ends of its operand ranges. -/
theorem witness_scalar :
    ∀ i ∈ [Instr.add dab, .sub dab, .and dab, .or dab, .xor dab, .andn dab, .shl dab, .shr dab, .sra dab, .mul dab, .mulhI dab, .mulhN dab,
      .minI dab, .minN dab, .maxI dab, .maxN dab, .clz da, .popc da, .addi dai, .andi dai, .ori dai, .xori dai, .shli dai2, .shri dai2,
      .srai dai2, .muli dai, .miniI dai, .miniN dai, .maxiI dai, .maxiN dai, .ldi { d := 7, i := 524287 }, .ldhi { d := 7, h := 3, i := 65535 },
      .sel { n := 1, q := 15, d := 3, a := 1, b := 2 }, .cmp { n := 0, g := 0, q := 15, a := 1, b := 2, c := 5 },
      .cmpi { n := 0, g := 0, q := 1, a := 1, c := 3, i := 127 }, .cmpi { n := 0, g := 0, q := 1, a := 1, c := 4, i := 127 }, .pand ppp, .por ppp, .pxor ppp,
      .pnot { n := 0, g := 0, q := 2, x := 1, a := 9 }, .xv2sN8 { dai0 with i := 127 }, .xv2sI8 { dai0 with i := 127 },
      .xv2sN16 { dai0 with i := 63 }, .xv2sI16 { dai0 with i := 63 }, .xv2sN32 { dai0 with i := 31 }, .xv2sI32 { dai0 with i := 31 },
      .xv2sN64 { dai0 with i := 15 }, .xq2m { dab with d := 7, b := 15 }],
      Enabled i base := by decide

/-- Each plain and counted transfer is enabled; s1 = 128 names a bundle, 8 and 2^56 do not; LC is 0 or not; a stage below the last holds. -/
theorem witness_transfers :
    (∀ i ∈ [Instr.br (braO 5), .jmp jmpA, .ret jmpA, .call { n := 0, g := 0, d := 9, o := 0x3FFF }, .brc { n := 0, g := 0, x := 1, q := 1, o := 0x7FFF },
      .loop (braO 0xFFFFF), .setlc jmpA, .loopr { n := 0, g := 0, s := 7, o := 0 }, .brG (braO 5), .chkS jmpA, .chkV { g := 0, a := 1, h := 0, e := 0 }], Enabled i base) ∧
    (base.core.sreg 1).toNat % 16 = 0 ∧ Enabled (.jmp jmpA) (withReg base 1 8) ∧ Enabled (.ret jmpA) (withReg base 1 (2 ^ 56)) ∧
    base.core.pred 1 = false ∧ Enabled (.loopr { n := 0, g := 0, s := 7, o := 0 }) (withPred base 14) ∧ (withPred base 14).core.pred (8 + 6) = true := by
  decide

/-- MFS and MTS: the registers at the ends of each group of R25, at both levels; values that FMT, LC and ROTW take, and one that FMT
refuses. -/
theorem witness_read_special :
    (∀ n ∈ ([0, 1, 2, 3, 5, 8, 10, 11, 12, 13, 14, 15, 16, 17, 0x20, 0x27, 0x40, 0x5F] : List (Fin 256)),
      Enabled (.mfs { n := 0, g := 0, d := 4, i := n }) base) ∧
    (∀ n ∈ ([8, 10, 0x20, 0x27, 0x40, 0x5F] : List (Fin 256)), Enabled (.mfs { n := 0, g := 0, d := 4, i := n }) user) ∧
    user.core.sup = false := by decide

/-- MTS and SETFMT: registers open and closed to task level, values that FMT, LC and ROTW take, and values with a reserved bit or code. -/
theorem witness_write_special :
    (∀ n ∈ ([0, 2, 3, 5, 8, 0x20] : List (Fin 256)), Enabled (.mts { n := 0, g := 0, a := 1, i := n }) user) ∧
    (mtsTrap base 2 (base.core.sreg 2)).isNone ∧ (mtsTrap user 3 (base.core.sreg 1)).isNone ∧ (mtsTrap base 5 (base.core.sreg 0)).isNone ∧
    (withReg base 1 0x20000).core.sreg 1 = 0x20000 ∧ Enabled (.mts { n := 0, g := 0, a := 1, i := 2 }) (withReg base 1 0x20000) ∧
    0xF0 &&& specReserved 5 ≠ 0 ∧ Enabled (.mts { n := 0, g := 0, a := 1, i := 5 }) (withReg user 1 0xF0) ∧ bits 0x20000 17 47 ≠ 0 ∧ Enabled (.setfmt { i := 0 }) base ∧ 2 ≤ bits 0x200 8 2 := by decide

/-- The system operations are enabled, ERET with a handler's registers and without; GTC is at and below a bound. -/
theorem witness_system :
    (∀ i ∈ [Instr.waitc jmpA, .trap { n := 0, g := 0, i := 255 }, .retire { n := 0, g := 0 }, .halt { n := 0, g := 0 }, .eret { n := 0, g := 0 }],
      Enabled i base ∧ Enabled i user) ∧
    eretTrap { n := 0, g := 0 } handler = none ∧ eretWaits handler = false ∧ Enabled (.eret { n := 0, g := 0 }) handler ∧
    base.core.flight = [] ∧ base.core.anyPending = false ∧ user.core.sup = false := by decide

/-- A header with RB outside a region, and one inside, and RE outside. -/
theorem witness_header :
    Enabled (.header { rb := 1, re := 0, vj := 1, tw := 1, e0 := 0, e1 := 0, et := 0 }) base ∧ base.core.inreg = false ∧ joinWaits base = false ∧
    (base.onCore (fun t => { t with spr := { t.spr with tstat := 5 } })).core.inreg = true := by decide

/-- ADDI adds the sign-extended byte: 128 + (-1) (R144). -/
theorem test_addi : sregOf (exec (.addi dai) base) 3 = 127 := by decide

/-- Zero-extended and signed immediates part at the top bit: ORI gives 255, MAXI.i 128, MAXI.n 255 (R92, R144). -/
theorem test_immediates :
    sregOf (exec (.ori dai) base) 3 = 255 ∧ sregOf (exec (.maxiI dai) base) 3 = 128 ∧ sregOf (exec (.maxiN dai) base) 3 = 255 := by decide

/-- A product lands three bundles on: it is under way after its own, and s3 still holds 384 (R51, R143). -/
theorem test_mul_latency : sregOf (exec (.mul dab) base) 3 = 384 ∧
    (match exec (.mul dab) base with | .next s => s.core.flight.map (·.d) | _ => []) = [2] := by decide

/-- MULH.i of -1 and 256 is -1, MULH.n of 2^64 - 1 and 256 is 255 (R142). -/
theorem test_mulh :
    (match exec (.mulhI dab) (withReg base 1 (-1)) with | .next s => s.core.flight.map (·.what) | _ => []) = [.sreg 3 (-1)] ∧
    (match exec (.mulhN dab) (withReg base 1 (-1)) with | .next s => s.core.flight.map (·.what) | _ => []) = [.sreg 3 255] := by decide

/-- CLZ of 128 is 56 and of 0 is 64; POPC of -1 is 64 (R142). -/
theorem test_counts :
    sregOf (exec (.clz da) base) 3 = 56 ∧ sregOf (exec (.clz { da with a := 0 }) base) 3 = 64 ∧
    sregOf (exec (.popc da) (withReg base 1 (-1))) 3 = 64 := by decide

/-- SRA by 65 shifts by 1 and keeps the sign; SHR does not (R142). -/
theorem test_shifts :
    sregOf (exec (.sra dab) (withReg (withReg base 1 (-2)) 2 65)) 3 = -1 ∧
    sregOf (exec (.shr dab) (withReg (withReg base 1 (-2)) 2 65)) 3 = 0x7FFFFFFFFFFFFFFF := by decide

/-- A BR of -1 bundles from the start of a page; JMP to an address off a bundle traps as ILLEGAL, cause 0x01, at supervisor level (R149, R150). -/
theorem test_transfers :
    (match exec (.br (braO 0xFFFFF)) base with | .next s => s.core.spr.pc | _ => 0) = 0xFFFFFFFFFF0 ∧
    (match exec (.jmp jmpA) (withReg base 1 8) with | .next s => s.core.spr.tval | _ => 0) = 8 := by decide

/-- LOOPR on LC = 2: LC becomes 1, each wheel field goes from 0 to 1, q8 as then named is 1, and the branch is taken (R154, R155). -/
theorem test_loopr :
    (match exec (.loopr { n := 0, g := 0, s := 0, o := 4 }) (base.onCore (fun t => { t with spr := { t.spr with lc := 2 } })) with
      | .next s => (s.core.spr.lc, s.core.spr.rotw, s.core.pred 8, s.core.spr.pc) | _ => (0, 0, false, 0)) =
      (1, 0x10101, true, 0x100000000040) := by decide
/-! ## Memory statements -/

/-- An access of the tile's own scratchpad, and one of class 0, are granted for the first and the last bytes that they reach. -/
theorem witness_granted :
    (∀ i ∈ [Instr.ldBI dai0, .ldBN dai0, .ldHI dai0, .ldHN dai0, .ldWI dai0, .ldWN dai0, .ldD dai0, .stB dai0, .stH dai0, .stW dai0, .stD dai0,
        .stGB dai0, .stGH dai0, .stGW dai0, .stGD dai0, .vld vda, .vst vda, .vstM vdm, .vldb vdb], Enabled i base) ∧
    (∀ a ∈ [128, 3145720, 0x100000000000, 0x10003FFFFFF8], ∀ r ∈ [true, false], free base (.ldD dai0) a 8 255 r (!r) = true) ∧
    (∀ a ∈ [0, 3145600, 0x800000, 0x100000000000], ∀ r ∈ [true, false], free base (.vld vda) a 128 (2 ^ 128 - 1) r (!r) = true) ∧
    free base (.vstM vdm) 0 128 0 false true = true := by decide

/-- Each atomic is enabled, granted at a scratchpad place and in class 0, with nothing to release. -/
theorem witness_atomics :
    (∀ i ∈ [Instr.amoAdd amo, .amoMinI amo, .amoMinN amo, .amoMaxI amo, .amoMaxN amo, .amoAnd amo, .amoOr amo, .amoXor amo, .amoXchg amo,
        .amoCas amo, .amoAdd { amo with s := 11, w := 0 }], Enabled i base) ∧
    (∀ a ∈ [128, 0x100000000000], free base (.amoAdd amo) a 8 255 true true = true ∧ (access base (.amoAdd amo) a 8 255 true true).dest.cls ≠ 3 ∧
      (access base (.amoAdd amo) a 8 255 true true).dest.cls ≠ 4) ∧
    base.core.reqs.length = 0 ∧ releaseWaits base.self base.core 11 = false := by decide

/-- PREF and FENCE are enabled; RG0 leads an address to class 0, an address that no register holds leads nowhere. -/
theorem witness_pref :
    Enabled (.pref { n := 0, g := 0, a := 1, i := 0 }) (withReg base 1 0x100000000000) ∧ base.core.scopedAmo = false ∧
    (checkRegion base 0x100000000000 true false false).isOk = true ∧ (checkRegion base 0x200000000000 true false false).isOk = false := by decide

/-- FENCE is enabled with each kind and the first and last scopes. -/
theorem witness_fence :
    (∀ k ∈ ([1, 2, 3] : List (Fin 4)), ∀ x ∈ ([1, 2, 11, 12] : List (Fin 16)), Enabled (.fence { n := 0, g := 0, k := k, s := x }) base) := by
  decide

/-- No scope has anything to wait for. -/
theorem witness_fence_waits :
    (∀ x ∈ ([1, 2, 11, 12] : List Nat), releaseWaits base.self base.core x = false) ∧ acquireWaits base.core = false := by decide

/-- A range register matches the first and the last byte of its GiB and not the next; a register without W refuses a store (R337). -/
theorem witness_range :
    (∀ a ∈ [0x100000000000, 0x10003FFFFFFF], bits a 30 26 = bits (fld (base.core.spr.rg.getD 0 0) 38 26) 0 26) ∧
    bits 0x100040000000 30 26 ≠ bits (fld (base.core.spr.rg.getD 0 0) 38 26) 0 26 ∧ (base.core.spr.rg.getD 0 0).getLsbD 0 = true ∧
    fld (base.core.spr.rg.getD 0 0) 11 5 = 0 ∧ base.core.spr.mrng.getLsbD 0 = false ∧ (0x1000000000003 : Word).getLsbD 2 = false := by decide

/-- A store of 8 bytes takes its low byte to its lowest place (R7, R173). -/
theorem test_store_order :
    (match exec (.stD { dai0 with d := 2 }) (withReg base 2 0x8877665544332211) with
      | .next s => (List.range 8).map (fun k => (memGet s.mem (128 + k)).toNat) | _ => []) =
      [0x11, 0x22, 0x33, 0x44, 0x55, 0x66, 0x77, 0x88] := by decide

/-- A signed byte load sends its request for s3 with its sign bit kept; an address whose bytes RG0 does not map traps as RANGE (R172, R337). -/
theorem test_load_range :
    (match exec (.ldBI dai0) (withReg base 1 0x200000000000) with | .next s => (s.core.spr.tval, s.core.spr.tcause.toNat % 256) | _ => (0, 0)) =
      (0x200000000000, 3) := by decide

/-- The word of each atomic: minimum signed and natural of -1 and 1, and a compare that fails (R176). -/
theorem test_amo_words :
    amoNew 1 32 0xFFFFFFFF 1 0 = some 0xFFFFFFFF ∧ amoNew 2 32 0xFFFFFFFF 1 0 = some 1 ∧ amoNew 0 32 0xFFFFFFFF 1 0 = some 0 ∧
    amoNew 9 32 5 7 6 = none ∧ amoNew 9 32 5 7 5 = some 7 := by decide

/-- A barrier object of two arrivals: the first leaves PA = 1, the second flips the phase and starts again (R187). -/
theorem test_barrier_word :
    barApply (2 * 2 ^ 48) 2 0 true 0 = (2 ^ 48, 2) ∧ barApply (2 ^ 48) 2 0 true 0 = (2 * 2 ^ 48, 2 + 65536) ∧
    barApply 0 2 0 true 0 = (0, 2 + 2 ^ 17 + 2 ^ 24) := by decide

/-! ## Vector statements -/

/-- The float, integer and selection lanes are enabled, with the first and the last format codes, and with a lane guard. -/
theorem witness_vector :
    (∀ f ∈ ([0, 1] : List (Fin 8)), ∀ i ∈ [Instr.vadd { vab with f := f }, .vsub { vab with f := f }, .vmul { vab with f := f },
        .vfma { vab with f := f, h := 1, e := 63 }, .vfms { vab with f := f }, .vfnma { vab with f := f }, .vmax { vab with f := f },
        .vmin { vab with f := f }, .vclamp { vab with f := f }, .vabs { va1 with f := f }, .vneg { va1 with f := f, g := 7 },
        .vexp2 { va1 with f := f }, .vlog2 { va1 with f := f }, .vrcp { va1 with f := f }, .vrsq { va1 with f := f },
        .vtanh { va1 with f := f }, .vrsum { va1 with f := f }, .vrmax { va1 with f := f }, .vrmin { va1 with f := f }], Enabled i base) ∧
    (∀ i ∈ [Instr.vaddI vi, .vsubI { vi with h := 1, e := 128 }, .vaddI { vi with h := 1, e := 64 }, .vmulI vi, .vand vi, .vor vi, .vxor vi,
        .vshl { vi with f := 0 }, .vshr { vi with f := 3 }, .vsra vi, .vminInt { vab with f := 3 }, .vmaxInt { vab with f := 7 },
        .vcmp { g := 1, c := 6, m := 7, a := 1, b := 2, f := 1, h := 0, e := 0 }, .vcmpI { g := 0, c := 5, m := 7, a := 1, b := 2, f := 7, h := 0, e := 0 },
        .vsel { g := 0, d := 1, a := 2, b := 3, m := 7, h := 1, e := 192 }, .vmov vf2, .vli { g := 0, d := 1, w := 3, i := 8191, h := 1, e := 255 },
        .xs2v vf2, .xm2q { vf2 with d := 15, a := 7 }], Enabled i base) := by decide

/-- The permutes, conversions, statistics and block-float operations are enabled at the ends of their part and index ranges. -/
theorem witness_vector_more :
    (∀ i ∈ [Instr.vperm vi, .vzip { vi with h := 1, e := 64 }, .vuzp vi, .vrot { vu with u := 63, h := 1, e := 64 }, .vbcst { vu with f := 0, u := 63, h := 1, e := 64 },
        .vtrn { g := 0, d := 8, a := 56, h := 0, e := 0 }, .vcvt { g := 0, d := 1, a := 2, s := 0, t := 2, f := 2, h := 1, e := 64 },
        .vcvt { g := 0, d := 1, a := 2, s := 1, t := 0, f := 0, h := 0, e := 0 }, .vcvt { g := 0, d := 1, a := 2, s := 1, t := 0, f := 1, h := 0, e := 0 },
        .vcvtSr { g := 0, d := 1, a := 2, s := 1, t := 0, h := 0, e := 0 }, .vunpkMx { va1 with f := 3 }, .vunpkMx { va1 with f := 7, h := 1, e := 64 },
        .vpackMx { vab with b := 0, f := 1 }, .vpackMx { vab with f := 3, h := 1, e := 192 }, .vpprob vq, .vpprob { vq with h := 1, e := 64 }, .vq8 { vab with f := 0, h := 1, e := 64 }, .vq8 { vab with f := 1, h := 1, e := 192 },
        .vstatW { g := 0, a := 1, b := 2, h := 1, e := 64 }, .vstatR { g := 0, d := 1, b := 2, h := 1, e := 64 }, .vmom { g := 0, a := 1, b := 2, f := 1, h := 0, e := 0 },
        .vnorm { vab with f := 1 }, .vsmax { vab with f := 0 }, .vbfacc { va1 with d := 2, f := 1, h := 1, e := 64 }, .vbfexp { va1 with a := 4, f := 0 }], Enabled i base) ∧
    0 < base.core.rng.count ∧ lane (base.core.vreg 2) 0 32 < 4096 ∧ base.core.sup = true ∧ bfpBad (bfpWords base.core 2) = false ∧
    Enabled (.vnorm vab) (withVec base 3 4096) ∧ 4096 ≤ lane ((withVec base 3 4096).core.vreg 3) 0 32 ∧
    Enabled (.vbfacc va1) badBlock ∧ Enabled (.vbfexp { va1 with a := 2 }) badBlock ∧ bfpBad (bfpWords badBlock.core 2) = true ∧
    Enabled (.vcvtSr { g := 0, d := 1, a := 2, s := 1, t := 0, h := 0, e := 0 }) noBits ∧ noBits.core.rng.count = 0 ∧ noBits.core.rng.run = false := by
  decide
/-! ## Facet, matrix, copy, barrier and bead statements -/

/-- Each facet command is enabled, its checks pass and its queue has room. -/
theorem witness_facet_pushes :
    (∀ i ∈ [Instr.xmvm xm, .xmvt { xm with f := 7, k := 3 }, .xupdA xu, .xupdC { xu with e := 63 }, .xupdD xu, .xfer xa, .xferR xa, .xrst { xa with e := 0 },
        .xrstAll xf, .xsymCal xf, .xsymLd { xa with e := 0 }, .xsymSt { xa with e := 0 }, .xcfgW { xa with e := 0 }, .xcfgR { xa with e := 0 },
        .xcfgWa { xa with e := 0 }, .xcfgRa { xa with e := 0 }, .xcfgWc { xa with e := 0 }, .xcfgRc { xa with e := 0 }, .xmodeR xf,
        .xmodeN { n := 0, g := 0, f := 0, rsv := 0, e := 0 }, .xmodeN { n := 0, g := 0, f := 0, rsv := 2, e := 0 }], Enabled i base) ∧
    (∀ x ∈ [({ f := 0, rs := [(128, 1024, false)] } : FacetUse), { f := 7, rs := [(128, 1024, false)] },
        { f := 0, rs := [(128, 2048, false), (256, 2048, false)] }, { f := 0, rs := [(128, 4096, true)] }, { f := 0, noErr := false }, { f := 0 }],
      facetTrap base (.xmvm xm) x = none ∧ facetWaits base.core x.f = false) := by decide

/-- XUPD.D with its three places in sB: aligned, within the scratchpad. -/
theorem witness_xupd_d :
    Enabled (.xupdD xu) (withReg base 2 (128 + 4096 * 2 ^ 22)) ∧
    facetTrap (withReg base 2 (128 + 4096 * 2 ^ 22)) (.xupdD xu)
      { f := 0, bad := false, rs := [(128, 2048, false), (128, 2048, false), (4096, 4096, true)] } = none := by decide

/-- The reads of a facet, of one that is not ready and in error, and the checks of a facet instruction in their order. -/
theorem witness_facet_reads :
    (∀ i ∈ [Instr.xget { n := 0, g := 0, f := 0, k := 15, b := 1, e := 0 }, .xstat { n := 0, g := 0, f := 0, b := 1, e := 0 },
        .xstatPc { n := 0, g := 0, f := 0, b := 1, e := 0 }, .xwait xf], Enabled i base) ∧
    facetTrap base (.xwait xf) { f := 0, ready := false, noErr := false } = none ∧ (base.core.facet 0).busy = false ∧
    (busyFacet.core.facet 0).busy = true ∧ facetTrap busyFacet (.xwait xf) { f := 0, noErr := false } = none ∧ Enabled (.xwait xf) busyFacet ∧
    bit base.core.spr.taskid.toNat 32 = true ∧ bit State.reset.core.spr.taskid.toNat 39 = false ∧ (State.reset.core.facet 0).ready = false ∧
    (busyFacet.core.facet 1).err = true := by decide

/-- A facet in error: FACET with its number and 512 (R236). -/
theorem test_facet_error :
    facetTrap busyFacet (.xmvm { xm with f := 1 }) { f := 1 } = some (.facet, 513) ∧
    facetTrap State.reset (.xmvm { xm with f := 7 }) { f := 7 } = some (.facet, 7) := by decide

/-- The operand loads and the matrix operations are enabled, their buffers FULL, with nothing against them. -/
theorem witness_matrix :
    (∀ i ∈ [Instr.mxld { n := 0, g := 0, d := 3, a := 1, b := 2, f := 3, e := 0 }, .mxldR { n := 0, g := 0, d := 3, b := 2, e := 1 }, .mma mm,
        .mmaz { mm with m := 4 }, .mxrd { n := 0, g := 0, c := 7, a := 1, k := 2, e := 0 }, .mxwr { n := 0, g := 0, c := 7, a := 1, k := 0, e := 0 },
        .mxwr { n := 0, g := 0, c := 7, a := 1, k := 1, e := 0 }, .mxwr { n := 0, g := 0, c := 7, a := 1, k := 2, e := 0 },
        .mxclr { n := 0, g := 0, c := 7, e := 0 }], Enabled i matrix) ∧
    (mxldTrap base (.mxld { n := 0, g := 0, d := 3, a := 1, b := 2, f := 0, e := 0 }) 128 0x600000 0).isNone ∧ pushWaits base.core = false ∧
    base.core.checking = false ∧ Enabled (.mxldR { n := 0, g := 0, d := 0, b := 1, e := 1 }) (withReg base 1 15) ∧
    Enabled (.mxldR { n := 0, g := 0, d := 0, b := 1, e := 1 }) (withReg base 1 16) := by decide

/-- MMA with two FULL buffers has no cause, and MMAG with one group has none. -/
theorem witness_mma :
    (Mma.trap { c := 0, oa := 0, gs := [(0, 8, 1)], mf := 1, zero := false, late := none } matrix.core).isNone ∧ matrix.core.mxWait = 0 ∧
    (mmaUsed 0 [(0, 8, 1)]).any (fun b => (matrix.core.buf b).st == 1) = false ∧
    Enabled (.mmag { n := 0, g := 0, c := 0, x := 0, y := 1, m := 1, a := 1, k := 0, e := 0 }) (withReg matrix 1 8) ∧
    (mmagTrap 8 1).isNone := by decide

/-- The copies, with an aligned record in the scratchpad and without a barrier, push at once; a window that is open and empty; one that is
closed. -/
theorem witness_copies :
    (∀ i ∈ [Instr.cpy cp, .cpyw cp, .fill { cp with d := 7 }, .gath cp], Enabled i window ∧
      (recordTrap window (slotWordOf i) 128 none false).isNone) ∧
    pushWaits window.core = false ∧ window.core.checking = false ∧ chanBusy window.core 0 = false ∧
    (window.core.chan 0).lo < (window.core.chan 0).hi ∧ (window.core.chan 0).wm = (window.core.chan 0).lo ∧
    (base.core.chan 0).hi ≤ (base.core.chan 0).lo ∧ Enabled (.cpyw cp) base ∧ (recordTrap base (slotWordOf (.cpyw cp)) 128 none false).isNone := by decide

/-- The barrier operations are enabled on an object of the own scratchpad and one of another tile of the cluster. -/
theorem witness_barriers :
    (∀ i ∈ [Instr.barInit bb, .barExp bb, .barArr bb, .barWait bb, .barTest cp], Enabled i base) ∧
    (barDest base 0 128 true).isOk = true ∧ (barDest base 0 0x10400000 false).isOk = true ∧ base.core.scopedAmo = false ∧
    releaseWaits base.self base.core 3 = false ∧ base.core.loadsFull = false ∧
    barBlocked base.core { cls := 8, tgt := 0, place := 128, own := true, swz := false } = false := by decide

/-- Windows and banks: bounds at both ends, off a line and beyond the scratchpad; banks within the claim and outside. -/
theorem witness_windows_banks :
    Enabled (.chset { cp with a := 1, b := 2 }) base ∧ chanBusy base.core 0 = false ∧ Enabled (.chset cp) (withReg base 2 3145728) ∧
    Enabled (.chset cp) (withReg base 2 3145792) ∧ Enabled (.chset cp) (withReg base 1 8) ∧ Enabled (.bankAcq { n := 0, g := 0, a := 1, e := 0 }) base ∧
    Enabled (.bankAcq { n := 0, g := 0, a := 1, e := 0 }) noClaim ∧ 128 ^^^ (128 &&& noClaim.core.task.claim) ≠ 0 ∧
    128 ^^^ (128 &&& base.core.task.claim) = 0 ∧ base.core.task.drains.length = 0 ∧ Enabled (.bankRel { n := 0, g := 0, a := 1, e := 0 }) base := by decide

/-- The bead operations with a stage, with and without a current bead, and without a stage; the seed and the duplicates. -/
theorem witness_beads :
    Enabled (.beadRecv { n := 0, g := 0, e := 0 }) mail ∧ fld mail.core.spr.stage 15 1 = 1 ∧ mail.core.beads.cur = none ∧ mail.core.beads.mailbox ≠ [] ∧
    Enabled (.beadRecv { n := 0, g := 0, e := 0 }) noStage ∧ fld noStage.core.spr.stage 15 1 = 0 ∧ Enabled (.beadSend bb) base ∧
    (recordTrap base (slotWordOf (.beadSend { bb with b := 0 })) 128 none false).isNone ∧ releaseWaits base.self base.core 10 = false ∧
    Enabled (.beadDone { n := 0, g := 0, a := 1, e := 0 }) bead ∧ bead.core.beads.cur.isSome = true ∧ (bead.core.sreg 1).toNat < 256 ∧
    Enabled (.beadHdr { n := 0, g := 0, d := 3, b := 7, e := 0 }) bead ∧ bead.core.loadsFull = false := by decide

/-- RNG.SEED and DUP.S in each form are enabled. -/
theorem witness_seed_dup :
    Enabled (.rngSeed { n := 0, g := 0, a := 1, e := 0 }) base ∧
    (∀ f ∈ ([1, 2, 3, 10, 18] : List (Fin 128)), Enabled (.dupS { n := 0, g := 0, f := f, a := 1, b := 0, e := 0 }) base) ∧
    (∀ f ∈ ([33, 39, 42, 48] : List (Fin 128)), Enabled (.dupS { n := 0, g := 0, f := f, a := 1, b := 0, e := 63 }) base) := by decide
/-! ## Unit steps: requests, base dies, tiles, engines, facets -/

/-- The requests of the clauses: a value done; a TLB hit that grants, one that denies, none; a walk to a granting leaf and to an error; an
access at its place with and without poison; an AMO and a barrier update in the scratchpad. -/
theorem witness_requests :
    (reqOf ((asks base { ldReq with st := .done }).tile 0) 0).isSome = true ∧ isLoadReq ldReq = true ∧
    tlbHit (asks base ldReq) 0 0 64 = none ∧ tlbHit (asks sys ldReq) 0 0 64 = some (tlb 0 true true) ∧
    (walksAt (asks base ldReq) 0).length < 64 ∧
    routeOk (asks base ldReq) 0 0 0 64 = true ∧ routeOk (asks (base.setMb 0 { Mb.reset with tlb := [tlb 0 true true] }) ldReq) 0 0 0 64 = true ∧
    homeOf 0 0 64 = 0 ∧ grants (reqNeeds .ld).1 (reqNeeds .ld).2 true true = true ∧ grants (reqNeeds .ld).1 (reqNeeds .ld).2 false true = false ∧
    base.claspUp 64 = true ∧ leafEnd (walk paged 0 0 64) = true ∧ errEnd (walk sys 0 0 64) = true ∧
    performPlace base 0 { ldReq with st := .ready, phys := 16 * 2 ^ 56 + 64 } = some (16 * 2 ^ 56 + 64) ∧
    behind base.core 0 ldReq = false ∧ refused base ldReq = false ∧ hostPoison base ldReq = false ∧ poisonAt base (16 * 2 ^ 56 + 64) 8 = none ∧
    poisonAt { base with poison := [16 * 2 ^ 56 + 64] } (16 * 2 ^ 56 + 64) 8 = some 0 := by decide

/-- A fault record that FRES names and one that it does not; an invalidation in progress; the three scrub results; a throttle that has
passed. -/
theorem witness_base_dies :
    ((base.setMb 0 { Mb.reset with recs := [frec] }).mb 0).rec? 7 = some frec ∧ (base.mb 0).rec? 7 = none ∧
    ((base.setMb 0 { Mb.reset with invBusy := true }).mb 0).invBusy = true ∧
    translatedOpen (base.setMb 0 { Mb.reset with invBusy := true }) 0 = false ∧ mget 0 (base.mb 0).throttle 0 ≤ base.hub.gtc ∧
    bit base.hub.sref 0 = false ∧ bit base.hub.tgate 0 = false ∧ bit { base.hub with sref := 1 }.sref 0 = true ∧
    2048 ≤ mget 0 { base.codes with rows := [(5, 2048)] }.rows 5 ∧ mget 0 base.codes.rows 5 < 2048 := by decide

/-- A tile that is asked to be pre-empted, one whose region has expired, one that idles, a generator with room, an address to prefetch. -/
theorem witness_tiles :
    (base.onCore (fun t => t.onTask (fun k => { k with preq := true }))).core.task.preq = true ∧ base.core.inreg = false ∧ base.core.live = true ∧
    regionExpired ({ (base.onCore (fun t => { t with spr := { t.spr with tstat := 5 } })) with hub := { base.hub with gtc := Config.regionTicks } }.focus 0) = true ∧
    base.core.task.preq = false ∧ regionExpired (cyclePass base false) = false ∧ base.core.rng.run = true ∧ base.core.rng.count < 16 ∧
    base.core.task.pend = none ∧ (checkRegion (base.focus 0) 0x100000000000 true false false).isOk = true ∧ base.core.task.run = .running := by decide

/-- Tile 0 stalled on the scoreboard at an empty bundle, its cache holding that and the next, with a load of s1. -/
def stalled : State :=
  ((withReg base 1 0x100000000000).withFetchWord 32 0xCC004100).onCore (fun t =>
    { t.onIss (fun i => { i with out := .stallSb }) with icache := t.icache.map (fun l => { l with data := l.data * 2 ^ 128 }) })

/-- The path to the next bundle, which the cache holds, ends at a load whose address is there, and no bundle on it stops the sequencer; at
one that does, nothing is prefetched; a tile that waits for a bead. -/
theorem witness_run_ahead :
    stalled.core.iss.out = .stallSb ∧ (aheadLoads (stalled.focus 0) [0x100000000010]).contains 0x100000000000 = true ∧
    (match cached stalled 0x100000000010 with | some b => passable b && (match b.s with | .ldD o => o.a == 1 | _ => false) | none => false) = true ∧
    (match cached stalled 0x100000000000 with | some b => passable b && (match b.s with | .nop => true | _ => false) | none => false) = true ∧
    readsPending stalled.core.advance (.ldD { n := 0, g := 0, d := 1, a := 1, i := 0 }) = false ∧ stalled.core.flight = [] ∧
    (match cached (State.reset.withFetchWord 32 0xE00EC000) 0x100000000000 with | some b => passable b | none => true) = false := by decide

/-- Entries for a channel, for the bead port, for the operand loader; heads of each kind of copy; a fill that arrives. -/
theorem witness_engines :
    (∀ e ∈ [entry 0x30000100 128, entry 0x52000100 128, entry 0x54000100 0], ([] : List Tcq).any (fun q => q.engine == e.engine) = false) ∧
    (entry 0x30000100 128).engine = 0 ∧ (entry 0x3001C100 128).engine = 1 ∧ (entry 0x52000100 128).engine = 3 ∧ (entry 0x52000100 128).op = 41 ∧
    (entry 0x54000100 0).engine = 3 ∧ (entry 0x54000100 0).op = 42 ∧ (entry 0x20000104 128).op = 16 ∧
    (base.core.chan 0).cmds.length < 4 ∧ base.core.beads.sends.length < 8 ∧
    (∀ w ∈ [0x30000100, 0x32000100, 0x34000100, 0x36000100], ((engines [] [ChCmd.ofTcq (entry w 128)]).core.chan 0).head.isSome = true ∧
      creditWaits base 0 (entry w 128) = false) ∧
    (entry 0x30000100 128).op = 24 ∧ (entry 0x36000100 128).op = 27 ∧
    gathBad (entry 0x36000100 128) (gathRec (2 * 2 ^ 128 + 4096 * 2 ^ 64 + (2 ^ 192 + 2 ^ 208 + 2 ^ 224 + 2 ^ 240) + 128)) = 0 := by decide

/-- A gather of one element from class 0 ends within its first line. -/
theorem witness_gather_line :
    (match gathRun 0 (ChCmd.ofTcq (entry 0x36000100 128))
        (gathRec (2 * 2 ^ 128 + 4096 * 2 ^ 64 + (2 ^ 192 + 2 ^ 208 + 2 ^ 224 + 2 ^ 240) + 0x100000000040)) 16 sys 0 0 with
      | (.done p c, _) => p == 1 && c == 0 | _ => false) = true := by decide

/-- A buffer whose fill has been read and one that waits for a delivery, with the delivery of its sender's and of a gone task. -/
theorem witness_fills :
    (delivered.core.buf 1).arr = true ∧ (delivered.core.buf 0).st = 1 ∧ (delivered.core.buf 0).recv = true ∧ (delivered.core.buf 0).src % 16 = 2 ∧
    (delivered.core.slots.getD 0 none).isSome = true ∧ holdsTask delivered.core 5 = true ∧ holdsTask delivered.core 6 = false ∧
    fld delivered.core.spr.taskid 0 32 = 5 ∧ delivered.core.task.away = false ∧
    lfind (fun e : Tcq => e.op == 16) [entry 0x20000104 128] = some 0 := by decide

/-- The head command of a facet, with clean operands; a facet that awaits its calibration on a ready die. -/
theorem witness_facet_steps :
    (∀ op ∈ [1, 2, 3, 4, 5, 6, 7, 8, 9, 10, 11, 12, 13], (facetHead ((facetWith op).core.facet 0) op).isSome = true) ∧
    (facetWith 1).arg 2 = 0 ∧ poisonAt base (scratchKey 0 128) 4096 = none ∧ (base.core.facet 0).isRef = true ∧
    (unref.core.facet 0).isRef = false ∧ fcfgBad 0 = false ∧ (unref.core.facet 0).cannotReset false 5 = false ∧
    { unref.core.facet 0 with sym := [(5, 32767)] }.cannotReset true 0 = true ∧ (base.core.facet 0).cannotReset true 0 = false ∧
    bit (rdyWord base (tileDie 0)) 0 = true ∧ (State.reset.core.facet 0).ready = false ∧ facetsReady base 0 0 = true := by decide
/-! ## Unit steps: queues, records, scheduler -/

/-- Writes of a queue's registers: counts within the depth and beyond it by one; an idle queue that is configured; a good base and event
queue. -/
theorem witness_queue_writes :
    (withArgs sys [0, 16]).arg 1 = 16 ∧ ((queued sys 0 [0, 16]).queue 0).state = 1 ∧
    (16 + 2 ^ 64 - ((queued sys 0 [0, 16]).queue 0).rc) % 2 ^ 64 ≤ depthOf ((queued sys 0 [0, 16]).queue 0).cfg ∧
    (sys.queue 0).state = 0 ∧ (sys.queue 0).head = none ∧ bit sys.hub.featacc 0 = true ∧ fld (sys.queue 0).cfg 4 1 = 0 ∧
    0x1C < 2 ^ 12 ∧ 0x1C % 16 < 13 ∧ sys.hub.booted = true ∧ sys.hub.tripped = false ∧
    locBad (loc 0x10000) (Nat.min (64 * depthOf (sys.queue 0).cfg) 4096) 3 = 0 ∧ 63 < 64 := by decide

/-- A record that is fetched; a TASK record whose image is read; its placement on the only, on the first and on the last tile. -/
theorem witness_tasks :
    cpUp sys 0 = true ∧ fetchable (fetching.queue 0) = true ∧ sys.codes.flaws.contains (.queue 0) = false ∧ sys.hub.rot = true ∧
    okRead (locRead fetching 0 (fetching.queue 0).base.toNat 0 8) = true ∧ recBad fetching 0 (taskRec 3) = 0 ∧
    starts sys (taskRec 3) = true ∧ okRead (locRead sys 0 (loc 0x20000) 0 8) = true ∧ rgBad 0 = false ∧ bit (taskRec 3) 10 = false ∧
    (recTiles (taskRec 1))[0]? = some 0 ∧ (recTiles (taskRec 1)).length = 1 ∧ (recTiles (taskRec 3)).length = 2 ∧
    (recTiles (taskRec 3))[1]? = some 1 ∧ (sys.tile 1).task.placed = none := by decide

/-- A task that may enter its tile, and one whose drain is complete. -/
theorem witness_entry :
    (placed.tile 0).task.placed = some launch0 ∧ mayEnter (placed.tile 0) launch0 = true ∧ launch0.gang = false ∧
    (draining.tile 0).task.drains.length = 1 ∧
    drained (draining.tile 0) { launch := some launch0, bown := 1, fown := 0, task := 5, killed := false, late := false, stamp := 0, rel := [] } = true := by
  decide

/-- A record of each kind may start, on the state its clause asks for. -/
theorem witness_records :
    (∀ w ∈ [record 2 0 0 [1, 2 ^ 63 + 0x3F00, 0], record 2 1 0 [], record 2 2 0 [], record 2 3 0 [], record 2 4 0 [], record 2 5 0 [loc 0x3000],
        record 3 0 0 [loc 0x4000, 1], record 6 0 0 [loc 0x3000, 9], record 6 1 0 [loc 0x3000, 9], record 7 0 0 [loc 0x3000, 0, 0], record 7 1 0 [loc 0x3000, 1, 0],
        record 7 2 0 [loc 0x3000, 0, 0], record 7 3 0 [loc 0x3000, 1, 1], record 8 0 0 [loc 0x3000], record 8 1 0 [loc 0x3000], record 9 0 0 [0],
        record 9 1 0 [0], record 9 2 0 [0]], starts sys w = true) ∧
    configBad Stage.reset (record 2 0 0 [1, 2 ^ 63 + 0x3F00, 0]) = false ∧ bit (2 ^ 63 + 0x3F00) 63 = true ∧
    ((staged (fun x => { x with st := .run })).stage 0 0).st = .run ∧ ((staged (fun x => { x with st := .held, sh := true })).stage 0 0).sh = true ∧
    stageServed (served .faulted) 0 0 = true := by decide

/-- The accesses of the records that read and write, and the conditions of the WAIT records at 0. -/
theorem witness_record_accesses :
    okRead (locPlace sys 0 (loc 0x3000) 0 true) = true ∧ (locWrite sys 0 (loc 0x3000) 0 (profWords sys 0)).1 = none ∧
    (locWrite sys 0 (loc 0x3000) 0 Stage.reset.words).1 = none ∧ poisonAt sys (16 * 2 ^ 56 + 0x3000) 8 = none ∧
    waitHolds (record 7 0 0 [loc 0x3000, 0, 0]) 0 = true ∧ waitHolds (record 7 1 0 [loc 0x3000, 1, 0]) 0 = true ∧
    waitHolds (record 7 2 0 [loc 0x3000, 0, 0]) 0 = true ∧ waitHolds (record 7 3 0 [loc 0x3000, 1, 1]) 0 = true ∧
    (readBeads sys 0 (loc 0x4000) 0 1).1.isOk = true ∧ retireDue sys 0 = false ∧ beadsDue sys 0 = false ∧ sys.claspUp 1 = true ∧
    (sys.queue 0).running = [] ∧ launched.core.task.rst = none ∧
    launched.core.task.launch.isSome = true ∧ launched.core.task.away = false ∧ launched.core.task.run = .running ∧ launched.core.inreg = false := by decide

/-- A halted tile whose image lacks nothing, and one whose image has an AMO entry without its value. -/
theorem witness_restart :
    haltLacks launched = false ∧ chosen (queued sys (record 9 0 0 [0]) [0]) 0 = true ∧
    haltLacks (writeN (writeN user (saveArea user 0) 8 (2 ^ 63)) (saveArea user 0 + 0x4C0) 8 (2 ^ 63 + 12 * 2 ^ 59 + 2 ^ 52)) = true := by decide

/-- A send that no barrier holds, a retirement that waits for none, a bead that arrives. -/
theorem witness_beads_sent :
    sending.core.beads.sends.length = 1 ∧ sending.core.beads.dones.length = 1 ∧ (sending.die 0).transit.any (fun p => p.2.1 == 0) = false ∧
    sending.claspUp 1 = true ∧
    beadOk (2 ^ 88) ((sending.stage 0 0).next) ((sending.stage 0 0).prev) ((sending.stage 0 0).nnone) ((sending.stage 0 0).pnone) = true ∧
    nextArrival arriving 0 = some (0, 0, 4 * 2 ^ 88) ∧ beadPnd (4 * 2 ^ 88) = false ∧ arriving.args.length = 1 ∧ (arriving.die 0).retire = [] := by
  decide

/-- A bead for another module that waits at a port in service, and one that a port brings to a ready die. -/
theorem witness_peer_beads :
    (let s := (sys.onHub (fun h => { h with links := [(33, 1), (34, 1)] })).onDie 0 (fun x => { x with transit := [(129, 0, 2 ^ 88)] })
     peerReady (s.onHub (fun h => { h with prcfg := 0x20 })) 0 0 = some 0 ∧ peerIn s 0 = true ∧ takesBead s 0 (2 ^ 88) = true) ∧
    peerReady sending 0 0 = none := by decide

/-- A stage in RUN that a tile serves, with a bead that its policy chooses; a retirement and a notice; a stage that holds; the requests of a
Locket. -/
theorem witness_scheduler :
    nextStage (served .run) 0 = some 0 ∧ beadsDue (served .run) 0 = false ∧ nextTile (served .run) 0 0 = some 0 ∧ ((served .run).stage 0 0).st = .run ∧ ((served .run).stage 0 0).badHead = none ∧
    ((served .run).stage 0 0).choose = some (4 * 2 ^ 88) ∧ (chosenDrop (served .run) 0 0 (4 * 2 ^ 88)).isNone = true ∧
    stageBusy (served .holding) 0 0 = false ∧ ((served .holding).stage 0 0).st = .holding ∧
    lockWith locked 0 (fun x => if x.relDies.contains 0 then [] else x.reqDies) = some 0 ∧
    lockWith locked 1 (fun x => x.relDies) = some 0 ∧ bit (locked.hub.rdy.getD 0 0) 0 = true ∧ (locked.clasp 1).mode ≠ 5 ∧
    nextRetire (noticed.die 0) = some 0 ∧ nextNotice noticed 0 = some 0 ∧ fld noticed.hub.prcfg 0 5 = 0 ∧ ringOk locked 0 1 = true := by decide
/-! ## Unit steps: Pendant, Locket, clasp, module -/

/-- The records of the Pendant may start, on a working Pendant; a tableau and a descriptor that are in order. -/
theorem witness_pendant_records :
    pendUp sys 0 = true ∧
    (∀ w ∈ [record 4 0 0 [loc 0x3000, 0], record 4 1 0 [loc 0x4000], record 4 2 0 [0], record 4 3 0 [0], record 4 4 0 [0, loc 0x3000]], starts sys w = true) ∧
    beadsBack sys 0 = false ∧ slotInUse sys 0 0 = false ∧ isGot (pendRead sys 0 (loc 0x3000) 0 64) = true ∧ tabBad tableau = 0 ∧ descRsv jobDesc = false ∧
    startBad (sys.onPend 0 (fun p => { p with slots := [(0, tableau)] })) 0 jobDesc = false ∧ isGot (pendRead sys 0 (loc 0x7000) 0 1) = true ∧
    isGot (pendWrite sys 0 (loc 0x7008) 0 [0]) = true ∧ (pjob (job id) 0 0).st = 1 := by decide

/-- An admission from a ring with room; a batch that is formed and one that is released. -/
theorem witness_pendant_batches :
    freeSlots (job id) 0 (pjob (job id) 0 0) = [0] ∧ isGot (pendRead (job id) 0 (loc 0x7000) 0 1) = true ∧
    isGot (admitRun 0 0 1 (job id)) = true ∧ (match admitRun 0 0 1 (job id) with | .got _ s => (pjob s 0 0).dirty | _ => false) = true ∧
    batchSlots (sample id (job id)) 0 (pjob (job id) 0 0) = [0] ∧
    (match writeInputs 0 0 128 (pjob (job id) 0 0) [0] 0 (sample id (job id)) with | .got .done _ => true | _ => false) = true ∧
    (List.range 1).find? (fun b => (pjob (job id) 0 0).batches.all (fun c => c.buf != b)) = some 0 ∧
    (pjob (job (fun x => { x with batches := [batch false] })) 0 0).batches.find? (fun b => !b.released) = some (batch false) := by decide

/-- A returned bead that fits its batch, with a record to take and with none; a sample that retires; the time and the notice that fail a batch;
a drained job. -/
theorem witness_pendant_returns :
    (let s := sample (fun x => { x with sst := 2 }) (job (fun x => { x with batches := [batch true] }));
      findBatch s 0 (beadBid returned) = some (0, batch true) ∧ bits returned 96 16 = 1 ∧ 1 * (64 + padBytes 1) ≤ bits returned 256 40 ∧
      locBad (bits returned 192 64) 64 2 = 0 ∧ isGot (takeRecord s 0 0 (batch true) returned 0 0) = true ∧ (s.die 0).pend.undecided = none ∧
      beadBack s 0 0 (batch true) = false) ∧
    ((sample (fun x => { x with sst := 3 }) (job id)).die 0).pend.undecided = some 0 ∧
    nextTold (sys.onPend 0 (fun p => { p with notices := [(0, 0, 0xFB)] })) 0 = some 0 := by decide

theorem witness_pendant_ends :
    (let s := sample (fun x => { x with sst := 3, fin := some 1 }) (job id);
      (psample s 0 0).fin = some 1 ∧ isGot (pendRead s 0 (loc 0x9008) 0 1) = true ∧ isGot (pendWrite s 0 (loc 0x8000) 0 [0, 0, 0, 0]) = true) ∧
    (let x := pjob (job (fun x => { x with batches := [batch true] })) 0 0;
      x.f 14 0 32 ≠ 0 ∧ (batch true).tick + 1000 * x.f 14 0 32 ≤ 1000) ∧
    ((pjob (job (fun x => { x with st := 2 })) 0 0).slots.filter (fun k => (psample (job (fun x => { x with st := 2 })) 0 k).sst != 0) = []) ∧
    (psample (sample id (job id)) 0 0).sst ≠ 0 := by decide

/-- The records of the Locket may start; its descriptor is in order with each trigger; a job that is armed, a hold that is complete, late and
not complete. -/
theorem witness_locket :
    lockUp sys 0 = true ∧
    (∀ w ∈ [record 5 0 0 [loc 0x3000], record 5 1 0 [], record 5 2 0 [loc 0x3000], record 5 3 0 []], starts sys w = true) ∧
    isGot (lockRead sys 0 (loc 0x3000) 0 16) = true ∧
    (∀ w ∈ [lockDesc0 0 0 0, lockDesc0 0x100 1000000 0], lockRsv (fun i => w.getD i 0) = false ∧ lockLimits sys (fun i => w.getD i 0) = false) ∧
    allHeld (lock (fun x => { x with st := 1 })) 0 ((lock (fun x => { x with st := 1 })).die 0).lock = true ∧
    allHeld (lock (fun x => { x with st := 1, reqDies := [0] })) 0 ((lock (fun x => { x with st := 1, reqDies := [0] })).die 0).lock = false ∧
    isGot (lockRead sys 0 (loc 0xD000) 0 0) = true ∧ isGot (copyRanges 0 (loc 0x100000) 0 false [] sys) = true := by decide

/-- The image's header and seeds are written, its mark, and a facet of the present group stands before its section. -/
theorem witness_locket_image :
    (let s := lock (fun x => { x with st := 2, group := [0] }); let x := (s.die 0).lock;
      x.section? 0 = some 0x2000 ∧ x.group.contains 0 = true ∧ ((s.tile 0).facet 0).queue = [] ∧ x.taken.contains 0 = false ∧
      isGot (lockWrite s 0 (x.w 1) 32 [0]) = true ∧ isGot (lockWrite s 0 (x.w 1) 248 [1]) = true ∧
      isGot (lockWrite s 0 (x.w 1) 0x2000 (padTo 8 [0])) = true ∧ isGot (lockRead s 0 (x.w 1) 0x2000 8) = true ∧ bit (x.w 7) 22 = false) := by decide

/-- A clasp in each mode that its clauses ask for, with a history that the eighth dissent completes. -/
theorem witness_clasp :
    (sys.clasp 0).mode = 1 ∧ ((sys.clasp 0).dissent 3 0).count 3 < 8 ∧ 8 ≤ (eighth.dissent 1 7).count 1 ∧ eighth.mode = 1 ∧
    ((sys.setClasp 80 { Clasp.reset with mode := 2 }).clasp 80).since + resyncCycles 80 ≤ 256 ∧ (sys.clasp 80).liveDiffer = false ∧
    { Clasp.reset with mode := 2, marked := 1, upset := 4 }.liveDiffer = true ∧ { Clasp.reset with inj := 1 }.inj ≠ 0 := by decide

/-- Features that are offered, links and peer ports, powers of dies, resets good and rolled back, and accesses from outside. -/
theorem witness_module :
    Config.featcap &&& Config.featcap = Config.featcap ∧ bit Config.featcap 0 = true ∧ bit State.reset.hub.featacc 0 = false ∧
    linkState sys 15 ≠ 0 ∧ linkState State.reset 33 = 0 ∧ linkState State.reset 34 = 0 ∧ dieBusy State.reset 15 = false ∧ dieBusy launched 0 = true ∧
    bootFail State.reset State.reset.hub.flash = 0 ∧ bootFail { State.reset with args := [1] } State.reset.hub.flash = 5 ∧
    bootFail { State.reset with args := [4] } State.reset.hub.flash = 1 ∧
    bootFail (State.reset.onHub (fun h => { h with ctr := h.flash.v + 1 })) State.reset.hub.flash = 2 ∧ sys.claspUp 80 = true ∧ sys.hub.booted = true ∧ bit sys.hub.rdyh 0 = false ∧
    (match outAccess sys 0 1 0 64 8 0 false false with | .done _ _ => true | _ => false) = true ∧
    (hostMove false 0 4 64 8 0 { sys with hub := { sys.hub with hwin := sys.hub.hwin.setIfInBounds 0 (BitVec.ofNat 64 (loc 0)) } }).isSome = true := by decide

/-! ## Issue, commit, traps, steps -/

/-- An operation in each case of issue: legal and not, guarded off, reading a pending register. -/
theorem witness_issue :
    (encode (.add dab)).isSome = true ∧ extOk (.add dab) = true ∧ legal (.add { dab with n := 1 }) = false ∧ (encode (.add { dab with n := 1 })).isSome = true ∧
    featOk 1 (.xmvm xm) = false ∧ (guardOf (.add { dab with g := 1 })).on base.core = false ∧ legal (.add { dab with g := 1 }) = true ∧
    readsPending (asks base { ldReq with dst := 1 }).core (.add dab) = true := by decide

/-- A bundle with one operation, fetched, at a boundary where nothing stands. -/
theorem witness_step :
    (let s := State.reset.withFetchWord 32 0x0200C108
     s.agenda = [] ∧ s.mayIssue = true ∧ s.core.task.pend = none ∧ s.core.osb.toList.any (·.refill) = false ∧
     s.core.chkWait = 0 ∧ s.core.task.preq = false ∧ regionExpired s = false) := by decide

/-- The bundle that is fetched there holds that operation alone, and passes decode. -/
theorem witness_step_fetch :
    (match fetch (State.reset.withFetchWord 32 0x0200C108) with
      | .bytes bs => (decodeBundle bs).ops.length == 1 && (decodeFault State.reset (decodeBundle bs)).isNone | _ => false) = true := by decide

/-- A commit without effects and one with a store of either kind. -/
theorem witness_commit :
    base.core.iss.last = true ∧ base.core.iss.effs = [] ∧ base.core.iss.lands = [] ∧ base.core.flight = [] ∧ base.core.iss.rb = false ∧
    base.core.iss.re = false ∧ (base.eff .pop).core.iss.effs = [.pop] ∧ (base.eff (.store { Req.empty .st with size := 8, enb := 255, place := 128 })).core.iss.effs.length = 1 ∧
    swzVa 128 = false ∧ base.poison = [] ∧ swzVa 0x800000 = true ∧ (0x800000 : Nat) % 128 = 0 := by decide

/-- Levels and monitors for the clauses of the trap statement. -/
theorem witness_traps :
    base.core.sup = true ∧ user.core.sup = false ∧ fld user.core.spr.mcsb 6 1 = 1 ∧
    (base.onCore (fun t => { t with spr := { t.spr with tstat := 0 } })).core.sup = false ∧ fld base.core.spr.mcsb 6 1 = 0 := by decide

/-- Storage in canonical form, empty and not, and a state whose next step goes on. -/
theorem witness_memory :
    State.reset.memOk = true ∧ fetching.memOk = true ∧ goesOn (step State.reset) = true ∧ goesOn (step (State.reset.withFetchWord 32 0x0200C108)) = true := by
  decide

/-- A word of no opcode traps as ILLEGAL, cause 0x01, slot 0, with the word as TVAL, and PC at the monitor's entry (R31, R99, R395). -/
theorem test_step_illegal :
    (match step ((State.reset.withFetchWord 32 0x3C000000).onCore (fun t => { t with spr := { t.spr with mvec := 0x2000 } })) with
      | .next s => (s.core.spr.tcause, s.core.spr.tval, s.core.spr.pc, s.core.spr.tpc) | _ => (0, 0, 0, 0)) =
      (1, 0x3C000000, 0x2000, 0x100000000000) := by decide

/-- A step of ADD from reset with its word fetched: PC is the next bundle, CYC counts one (R27, R111). -/
theorem test_step_add :
    (match step (State.reset.withFetchWord 32 0x0200C108) with | .next s => (s.core.spr.pc, s.core.spr.cyc) | _ => (0, 0)) =
      (0x100000000010, 1) := by decide

/-- A trap of task level with a monitor: the context is stored and its VALID bit is set in the save area's second header word (R49, R395). -/
theorem test_trap_user :
    (let s := takeTrap user .soft 0 9 0x100000000010
     (s.core.spr.tcause, s.core.spr.tval, s.core.spr.tpc, s.core.sup, s.core.task.away) = (0x0D, 9, 0x100000000010, true, true)) := by decide

/-- mix64 of zero under key 0 is 0 (R82). -/
theorem test_mix64 : mix64 0 0 = 0 := by decide
/-! ## Witnesses of the clauses over float values, copies, gathers and landings -/

/-- Codes, magnitudes and rational values in each range of the float core. -/
theorem witness_float_core :
    bits 0x3F800000 23 8 < 255 ∧ bits 0x7F800000 23 8 = 255 ∧ (1 : Nat) < 2 ^ 24 ∧ (FVal.inf false).isNan = false ∧
    roundMag 23 .rtz false 1 0 + 1 ≠ 255 * 2 ^ 23 ∧ roundMag 7 .rtz false 1 200 + 1 = 255 * 2 ^ 7 := by decide

theorem witness_float_values :
    (1 : ℚ) * 2 ^ (0 : ℤ) < 2 ^ 13 ∧ (1 : ℚ) * 2 ^ (0 : ℤ) < 2 ^ 128 - 2 ^ (126 - 23) ∧ (2 : ℚ) ^ 128 ≤ 1 * 2 ^ (200 : ℤ) := by norm_num

/-- Drains of a task with its commands done, and with one still in the queue; banks of none. -/
theorem witness_draining_banks :
    (draining.core.task.drains.all (fun d => commandsDone draining.core d)) = true ∧ retiredBanks draining.core 0 = 0 ∧
    ((draining.onCore (fun t => { t with tcq := [{ entry 0x30000100 128 with stamp := 0 }], task := { t.task with
      drains := t.task.drains.map (fun d => { d with stamp := 1 }) } })).core.task.drains.any (fun d =>
        !commandsDone (draining.onCore (fun t => { t with tcq := [entry 0x30000100 128] })).core { d with stamp := 1 })) = true := by decide

/-- The root of trust is up, and it is not; the operands of the invalidations; a tile that is not live. -/
theorem witness_rot :
    base.hub.rot = true ∧ State.reset.hub.rot = false ∧ mget 0 { base.codes with rows := [(5, 2 ^ 32)] }.rows 5 = 2 ^ 32 ∧
    (cyclePass (State.reset.focus 0) false).core.live = false := by decide

/-- The record of a copy of four bytes from 0x1000 to 0x2000 in its place. -/
def copyRecord : Nat := 0x1000 + 0x2000 * 2 ^ 64 + 4 * 2 ^ 128 + 2 ^ 160

/-- Tile 0 with that record and a copy command for it. -/
def copying (w : Nat) : State := writeN (engines [] [ChCmd.ofTcq (entry w 128)]) 128 64 copyRecord

/-- A copy's record: in order, poisoned, ill-formed, off its window, and within an open one; runs that end, fail, fault and wait. -/
theorem witness_copy_records :
    poisonAt (copying 0x30000100) 128 64 = none ∧ readN (copying 0x30000100) 128 64 = copyRecord ∧ cpyBad 24 (cpyRec copyRecord) = false ∧
    cpyWindow (copying 0x30000100).core 0 none (cpyRec copyRecord) = false ∧
    poisonAt { copying 0x30000100 with poison := [128] } 128 64 = some 0 ∧ cpyBad 24 (cpyRec 0) = true ∧
    cpywBad (cpyRec copyRecord) 0 0 = true ∧ cpywBad (cpyRec copyRecord) 0x2000 0x2004 = false ∧
    cpyWindow (base.core.setChan 1 { Chan.reset with lo := 0x2000, hi := 0x2040, wm := 0x2000 }) 0 none (cpyRec copyRecord) = true := by decide

/-- How a run ends. -/
def endOf (z : Piece) : Nat × Nat := match z.1 with | .done p _ => (0, p) | .fail p c => (1, p + c) | .page p _ _ _ => (2, p) | .wait p _ => (3, p)

/-- A run of a copy of four bytes from an address to 0x2000. -/
def runOf (s : State) (src : Nat) : Nat × Nat :=
  endOf (wholeRun s 0 (entry 0x30000100 128)
    { src := src, dst := 0x2000, rows := 1, rowb := 4, sstr := 0, dstr := 0, xform := 0, res := 0, rsv := false }
    (ChCmd.ofTcq (entry 0x30000100 128)))

/-- Where that is in order, refused, and in self-refresh. -/
theorem witness_copy_runs :
    runOf base 0x1000 = (0, 4) ∧ runOf base 0x800000 = (1, 0x11) ∧
    runOf (sys.onHub (fun h => { h with sref := 1 })) 0x100000000000 = (3, 0) := by decide

/-- Where the address has no translation. -/
theorem witness_copy_page : (runOf base 0x100000000000).1 = 2 ∧ (runOf base 0x100000000000).2 = 0 := by decide

/-- Accesses of the copy engine and of the gather unit that are granted. -/
theorem witness_engine_access :
    engAccess base 0 (entry 0x30000100 128) 1 0x1000 4 false = (.at 0x1000, base) ∧
    engAccess (base.reads 0x1000 4) 0 (entry 0x30000100 128) 1 0x2000 4 true = (.at 0x2000, base.reads 0x1000 4) := ⟨rfl, rfl⟩

/-- A read of the gather unit with a translation that grants it. -/
theorem global_access (s : State) (e : Tcq) (a n : Nat) (r : Word) (y : TlbEnt) (hl : sortLocal 0 a = none) (hg : isGlobal a = true)
    (hr : e.rg.find? (rgMatch a) = some r) (hp : fld r 1 1 ≠ 0) (hd : routeOk s (tileDie 0) (fld r 8 3) (rgTgt r) (rgDia a r) = true)
    (hc : fld r 8 3 < 3) (hf : s.codes.flaws = [])
    (ht : tlbHit s (homeOf (fld r 8 3) (rgTgt r) (rgDia a r)) (fld r 8 3) (rgDia a r) = some y) (hy : y.r = true)
    (hb : backedPass s (homeKey (fld r 8 3) (homeOf (fld r 8 3) (rgTgt r) (rgDia a r)) (leafByte (fld r 8 3) y.base y.size (rgDia a r))) n = true) :
    engAccess s 0 e 2 a n false =
      (.at (homeKey (fld r 8 3) (homeOf (fld r 8 3) (rgTgt r) (rgDia a r)) (leafByte (fld r 8 3) y.base y.size (rgDia a r))), s) := by
  have hk : ∀ f, s.corrects f = s := fun f => by simp [State.corrects, hf]
  have hc' : ¬3 ≤ fld r 8 3 := by omega
  simp [engAccess, hl, hg, hr, hp, hd, hc', xlate, ht, hy, grants, hk, hb]
theorem witness_gather_access :
    engAccess sys 0 (entry 0x36000100 128) 2 0x100000000040 4 false = (.at (16 * 2 ^ 56 + 64), sys) := by
  rw [global_access sys _ _ _ 0x1000000000000F (tlb 0 true true) (by decide) (by decide) (by decide) (by decide) (by decide) (by decide) rfl
    (by decide) rfl (by decide)]
  rfl

theorem witness_gather :
    (let g := gathRec (2 * 2 ^ 128 + 4096 * 2 ^ 64 + (2 ^ 192 + 2 ^ 208 + 2 ^ 224 + 2 ^ 240) + 0x100000000040)
     gathPoison 0 g 0 = false ∧ gathSrc 0 g 0 = 0x100000000040 ∧ g.esz = 4 ∧ sortLocal 0 0x100000000040 = none ∧
     ([0x1000000000000F].find? (rgMatch 0x100000000040)).isSome = true ∧ fld (0x1000000000000F : Word) 8 3 < 2 ∧
     gathBad (entry 0x36000100 128) (gathRec 0) ≠ 0) ∧ sys.poison = [] ∧ sys.codes.flaws = [] ∧ sys.arg 2 ≠ 2 := by decide

/-- The last credit of a command, of one that an error ended, and one before its end; a window that is the command's own; a fill that is armed. -/
theorem witness_credits :
    creditWaits base 0 (entry 0x30000100 128) = false ∧ ({ ChCmd.ofTcq (entry 0x30000100 128) with ended := true }).due ≤ 64 ∧
    ({ ChCmd.ofTcq (entry 0x30000100 128) with ended := true, ecode := 0x10 }).ecode ≠ 0 ∧
    0 < Nat.min 64 ({ ChCmd.ofTcq (entry 0x30000100 128) with owed := 4 }).owed ∧
    ownWindow { Chan.reset with lo := 64, hi := 128, wm := 64, act := true } { entry 0x32000100 128 with beadRec := 64 + 128 * 2 ^ 32 } = true := by decide

theorem witness_fill_source :
    bit (entry 0x20000104 128).et 0 = false ∧ mxSource 0 128 = some (0, 128) ∧ ownBit 0 (mxDesc 0).mcast = true ∧ targets 0 (mxDesc 0).mcast = [] ∧
    stillArmed { base.core with osb := base.core.osb.setIfInBounds 0 { Osb.reset with st := 1 } } 0 (entry 0x20000104 128) = true ∧
    sourceHeld base.core (mxSpans 128 0 (mxDesc 0)) = false := by decide

/-- A write of a queue's register with a way to its die and without. -/
theorem witness_register_write :
    sys.hub.writes = [] ∧ spineOk sys 0 0 = true ∧ spineOk (sys.onHub (fun h => { h with links := [(16, 0)] })) 0 0 = false ∧
    fld (sys.queue 0).cfg 4 1 = 0 ∧ locBad (loc 0x10000) (Nat.min (64 * depthOf (sys.queue 0).cfg) 4096) 3 = 0 := by decide

/-- No upset of any kind, no access that FRES ended, a bead within its time, a restore's header and ranges, a report that goes. -/
theorem witness_unflawed :
    (∀ f ∈ [Flaw.queue 0, .soft (.queue 0), .stage 0 0, .soft (.stage 0 0), .soft (.staging 0)], sys.codes.flaws.contains f = false) ∧
    sys.codes.flaws = [] ∧ (sys.die 0).pend.ended = [] ∧ (sys.die 0).lock.ended = [] ∧ (sys.die 0).pend.held = none ∧
    (pjob (job id) 0 0).overdue (batch true) 0 = false ∧ admissionsDue sys 0 = false ∧ recordsDue sys 0 = false ∧
    rangesBad 0 0 = false ∧ reportGoes sys 0 ((lock id).die 0).lock = true := by decide

/-- A clasp in dual mode before and from its first tick. -/
theorem witness_clasp_shown :
    ({ Clasp.reset with mode := 2, start := 1, prev := 1 }).shown 0 = 1 ∧ ({ Clasp.reset with mode := 3, start := 1, prev := 2 }).shown 1 = 3 := by decide

/-- Results of every kind that reach their registers with the bundle in issue. -/
theorem witness_landings :
    (let t := base.core.onIss (fun i => { i with lands :=
        [{ what := .vec 1 1 5, d := 1, j := 0, live := true, pois := false }, { what := .pair 2 3 6 7, d := 1, j := 0, live := true, pois := false },
         { what := .octet [8, 9] [1, 2], d := 1, j := 0, live := true, pois := false }, { what := .twinM 1 1, d := 1, j := 0, live := true, pois := false },
         { what := .acc 0 1 [1] 7, d := 1, j := 0, live := true, pois := false }, { what := .fmt 1, d := 1, j := 0, live := true, pois := false },
         { what := .mask 1 1 1, d := 1, j := 0, live := true, pois := false }] });
     ({ t with flight := t.flight ++ t.iss.lands }.advance).regs.v.getD 2 0 = 6 ∧ ([8, 9] : List Nat).Nodup ∧
     t.iss.lands.all (fun l => decide (l.d ≤ 1) && l.live) = true) := by decide

/-- A quiet tile at task level with a monitor. -/
theorem witness_image :
    user.core.sup = false ∧ fld user.core.spr.mcsb 6 1 = 1 ∧ user.core.task.preqRecs = [] ∧ user.memOk = true ∧ user.core.flight = [] ∧
    user.core.reqs = [] ∧ user.core.tcq.length ≤ 16 := by decide

/-! ## Witnesses of further clauses -/

/-- Tile 0 in checking mode. -/
def checking : State := base.onCore (fun t => { t with spr := { t.spr with wchk := 1 } })

/-- A matrix product of a row of forty-eight 1.0 with itself. -/
def ones (f : Fin 8) (row scale : Nat) : BitVec 32 :=
  Mma.value { c := 0, oa := 0, gs := [(0, 8, 1)], mf := f, zero := true, late := none }
    { base.core with osb := Vector.replicate 4 { Osb.reset with st := 2, rows := [row], scales := [scale] } } 0

/-- Matrix formats, a row that a group covers and one that none does, products of each class, and scales with and without a NaN. -/
theorem witness_mma_elements :
    mmaFmt 1 0 = 0 ∧ mmaFmt 2 0 = 1 ∧ mmaFmt 3 0 = 2 ∧ mmaFmt 4 0 = 3 ∧ (0 ≤ 7 ∧ 7 < 0 + 8) ∧ ¬(3 ≤ 2) ∧ FVal.dnan.isNan = true ∧
    (fmul (fvalBf 0x3F80) (fvalBf 0x4000)).notFinite = false ∧ (fmul (fvalBf 0) (fvalBf 0x7F80)).isNan = true ∧
    fmul (fvalBf 0x3F80) (fvalBf 0xFF80) = .inf true ∧ fmul (fvalBf 0x3F80) (fvalBf 0x7F80) = .inf false ∧
    bits (127 * 0x10101) 8 8 ≠ 255 ∧ bits 0xFF7F 8 8 = 255 := by decide

/-- Forty-eight products of 1.0 in BF16 make 48.0, ninety-six of 64 / 64 in MXINT8 with scales of 1 make 96.0 (R78, R79). -/
theorem test_mma_elements :
    ones 1 (packFields 16 (fun _ => 0x3F80) 48) 0 = 0x42400000 ∧ ones 2 (packFields 8 (fun _ => 64) 96) (127 * 0x10101) = 0x42C00000 := by decide

/-- Pushes in checking mode; a window that is open and not empty, and a channel whose copy is active; a record of two rows. -/
theorem witness_copies_checking :
    (∀ i ∈ [Instr.cpy cp, .fill cp, .gath cp], Enabled i checking ∧ (recordTrap checking (slotWordOf i) 128 none false).isNone) ∧
    pushWaits checking.core = false ∧ checking.core.checking = true ∧
    (let s := window.onCore (fun t => t.setChan 0 { t.chan 0 with wm := 4160 })
     Enabled (.cpyw cp) s ∧ chanBusy s.core 0 = false ∧ (s.core.chan 0).wm ≠ (s.core.chan 0).lo ∧
      (recordTrap s (slotWordOf (.cpyw cp)) 128 none false).isNone) ∧
    (let s := window.onCore (fun t => t.setChan 0 { t.chan 0 with act := true })
     Enabled (.cpyw cp) s ∧ chanBusy s.core 0 = true ∧ pushWaits s.core = false ∧ writesPending s.core (.cpyw cp) s.core.diverted = none ∧
      (recordTrap s (slotWordOf (.cpyw cp)) 128 none false).isNone) ∧
    ownOffset 17 0x10400040 = some 64 ∧ ownOffset 17 0x2FFFFF = some 0x2FFFFF := by decide

/-- Eight bytes that run past the linear view, that wrap into it, that run into the own window from below, and strided rows: of each, what lies
in the own scratchpad (R50, R168, R409). -/
theorem test_noted_ranges :
    rowRanges 0 0x2FFFFC 1 8 8 true = [(0x2FFFFC, 4, true)] ∧ rowRanges 0 (2 ^ 64 - 4) 1 8 8 false = [(0, 4, false)] ∧
    rowRanges 1 0x103FFFF8 2 8 8 false = [(0, 8, false)] ∧ rowRanges 0 0x1000 2 8 64 true = [(0x1000, 8, true), (0x1040, 8, true)] := by decide

/-- Requests at their home: half of a vector load, a fetch, a prefetch, an atomic of class 0; a line that the L1 may take. -/
theorem witness_performed :
    (∀ k ∈ [ReqKind.vld, .vldb, .fetch, .pref, .amo],
      performPlace base 0 { ldReq with kind := k, op := 1, st := .ready, phys := 16 * 2 ^ 56 + 64 } = some (16 * 2 ^ 56 + 64)) ∧
    (base.onCore (fun t => { t with reqs := [ldReq] })).core.reqs = [ldReq] ∧ findLine base.core.l1 (lineKey 0 0 64) = none ∧
    poisonAt base (16 * 2 ^ 56) 64 = none ∧ poisonAt { base with poison := [16 * 2 ^ 56] } (16 * 2 ^ 56) 16 = some 0 ∧
    (poisonAt { base with poison := [16 * 2 ^ 56 + 32] } (16 * 2 ^ 56) 16).isNone = true ∧
    (poisonAt { base with poison := [16 * 2 ^ 56 + 32] } (16 * 2 ^ 56) 64).isSome = true ∧ behind base.core 0 { ldReq with kind := .amo } = false := by
  decide

/-- Storage that is awake with what it may give up, and storage that sleeps; a die that no spine reaches. -/
theorem witness_rest :
    asleep base (16 * 2 ^ 56) = false ∧ backed base (16 * 2 ^ 56) 32 = true ∧ asleep (sys.onHub (fun h => { h with sref := 1 })) (16 * 2 ^ 56) = true ∧
    dozing base 0x2000 = false ∧ spineOk (sys.onHub (fun h => { h with links := [(16, 0)] })) 0 0 = false ∧ spineOk sys 15 0 = true := by decide

/-- A facet in reference mode with tables of 4,096 values; a column in normal mode within reach. -/
theorem witness_facet_tables :
    (base.core.facet 0).rwa = sparse (List.replicate 4096 0) 0 ∧ (base.core.facet 0).rwc = sparse (List.replicate 4096 0) 0 ∧
    (List.replicate 4096 (0 : Int)).length = 4096 ∧ (unref.core.facet 0).reachable 5 = true := by
  refine ⟨?_, ?_, List.length_replicate, by decide⟩
  all_goals
    have h : ∀ n k, sparse (List.replicate n 0) k = [] := by
      intro n
      induction n with
      | zero => intro k; rfl
      | succ n ih => intro k; simp [List.replicate_succ, sparse, ih]
    rw [h]; decide

/-- A write of QWC beyond the depth of an active queue; a gang task whose tile has met its conditions, before its tick and after, in time and
late; a tile that may not be entered. -/
theorem witness_overrun_gang :
    ((queued sys 0 [0, 17]).queue 0).state = 1 ∧ depthOf ((queued sys 0 [0, 17]).queue 0).cfg < (17 + 2 ^ 64 - ((queued sys 0 [0, 17]).queue 0).rc) % 2 ^ 64 ∧
    mayEnter (placed.tile 0) { launch0 with gang := true, start := 5 } = true ∧ placed.hub.gtc < 5 ∧ (0 : Nat) ≤ placed.hub.gtc ∧
    (placed.tile 0).task.since ≤ 0 ∧ (placed.tile 0).task.drains.length = 0 ∧ (placed.tile 0).task.met = false ∧
    (placed.onCore (fun t => t.onTask (fun k => { k with since := 5 }))).core.task.since = 5 ∧
    mayEnter (launched.tile 0) launch0 = false ∧ launch0.banks < 2 ^ 48 ∧ launch0.facets < 256 ∧ launch0.tag < 2 ^ 32 ∧ launch0.stg = false := by decide

/-- CONFIG with a field that is not allowed and with V = 0; stages that are OFF, HELD, FAULTED and served. -/
theorem witness_stage_records :
    configBad Stage.reset (record 2 0 0 [0, 2 ^ 63 + 0x3F00, 0]) = true ∧ configBad Stage.reset (record 2 0 0 [0, 0, 0]) = true ∧
    configBad { Stage.reset with st := .held } (record 2 0 0 [0, 0, 0]) = false ∧ bit (recWord (record 2 0 0 [0, 0, 0]) 2) 63 = false ∧
    starts sys (record 2 0 0 [0, 0, 0]) = true ∧ (staged (fun x => { x with st := .faulted })).stage 0 0 ≠ Stage.reset ∧
    ((staged (fun x => { x with st := .off })).stage 0 0).st = .off ∧ ((staged (fun x => { x with st := .held })).stage 0 0).sh = false ∧
    stageServed (staged (fun x => { x with st := .faulted })) 0 0 = false ∧ Stage.reset.w1 = 0 := by decide

/-- A bead of a kind, step and micro-batch. -/
def beadOf (kind step mb : Nat) : Nat := kind * 2 ^ 88 + step + mb * 2 ^ 112

/-- A valid stage with four micro-batches a step, at step 1, with an open entry, one evicted, and a failed micro-batch. -/
def openStage : Stage :=
  { Stage.reset with
    st := .run, w0 := 1, w1 := 2 ^ 63 + 2 ^ 59 + 0x3F00, w2 := 1 + 4 * 2 ^ 48,
    opens := [{ step := 1, mb := 0, evicted := false }, { step := 1, mb := 1, evicted := true }], failed := [(1, 2)] }

/-- The beads of the clauses over a stage: of a failed micro-batch, open, evicted, without an entry, of another step; the policies; a step that is
complete. -/
theorem witness_stage_beads :
    openStage.valid = true ∧ Stage.reset.valid = false ∧ openStage.hasFailed (beadOf 1 1 2) = true ∧ openStage.hasFailed (beadOf 1 1 3) = false ∧
    openStage.isOpen (beadOf 2 1 0) = true ∧ openStage.isOpen (beadOf 2 1 3) = false ∧ openStage.dead = false ∧ fld openStage.w1 59 1 = 1 ∧
    openStage.stepDrop (beadOf 1 0 0) = true ∧ openStage.stepDrop (beadOf 1 1 3) = false ∧ openStage.isClosing (beadOf 2 1 0) = true ∧
    openStage.stepMb ≠ 0 ∧ (beadOf 1 1 0) < 2 ^ 520 ∧ beadKind (beadOf 1 1 0) = 1 ∧ beadKind (beadOf 2 1 0) = 2 ∧ beadEpoch (beadOf 2 1 0) = epochOf sys 0 ∧
    { openStage with ctl := [beadOf 4 0 0] }.choose = some (beadOf 4 0 0) ∧ fld openStage.w1 22 2 = 0 ∧
    { openStage with fwd := [beadOf 1 0 0] }.badHead = some (beadOf 1 0 0) ∧ { openStage with w2 := 4 * 2 ^ 48 }.step = 0 ∧
    { openStage with closed := [0, 1, 3] }.stepMb ≤ [2, 0, 1, 3].length ∧ bit Stage.reset.w1.toNat 63 = false := by decide

/-- Beads for a stage of this module, whose scheduler works, and whose scheduler is broken, for a Pendant, and for another module with a port
UP and without; a task's beads when it leaves. -/
theorem witness_sent_beads :
    beadDst (beadOf 1 0 0) / 1024 = fld sys.hub.prcfg 0 5 ∧ sys.claspUp 1 = true ∧ beadPnd (beadOf 1 0 0) = false ∧ beadPnd (2 ^ 83) = true ∧
    (sys.setClasp 1 { Clasp.reset with mode := 4 }).claspUp 1 = false ∧ beadDst (1024 * 2 ^ 128) / 1024 = 1 ∧ peerOut sys 0 1 = false ∧
    peerOut (sys.onHub (fun h => { h with links := [(33, 1), (34, 1)], prcfg := 0x20 })) 0 1 = true ∧ beadStage (3 * 2 ^ 520) = 3 ∧
    mail.core.beads.mailbox ≠ [] ∧ bead.core.beads.mailbox.length = 0 ∧ (1 : Nat) / 1024 = fld sys.hub.prcfg 0 5 := by decide

/-- An admission whose ring has overrun, one that has no room, a record that is in order and one that is not. -/
theorem witness_admissions :
    (let s := writeN (job id) (16 * 2 ^ 56 + 0x9008) 8 99
     isGot (pendRead s 0 ((pjob s 0 0).w 9) 0 1) = true ∧ isGot (pendRead s 0 ((pjob s 0 0).w 8) 0 8) = true) ∧
    2 ^ ((pjob (job id) 0 0).f 0 24 4 + 4) < (99 + 2 ^ 64 - (pjob (job id) 0 0).rcount) % 2 ^ 64 ∧
    freeSlots (sample id (job id)) 0 (pjob (job id) 0 0) = [] ∧
    admitBad (packFields 64 (fun i => [0, 0x3F80000000000000, 0x3F800000, loc 0xA000, loc 0xB000, 0, 0, 0].getD i 0) 8) = false ∧
    admitBad (2 ^ 64 - 1) = true ∧ (pjob (job id) 0 0).dirty = false ∧ (pjob (job id) 0 0).reading = false := by decide

/-- The state vector, the stages and the input record of a sample; the write of a stage's result, and the decision's. -/
theorem witness_sample_accesses :
    (let s := sample id (job id)
     let x := pjob s 0 0
     isGot (pendCodes s 0 (psample s 0 0).state 0 x.dim) = true ∧ isGot (pendFloats s 0 (psample s 0 0).state 0 x.dim) = true ∧
      isGot (readStages 0 (psample s 0 0) x.dim 1 1 s) = true ∧ isGot (inputRecord s 0 0 x) = true ∧ isGot (pendWrite s 0 (x.w 7) 0 [0]) = true ∧
      isGot (pendWrite32 s 0 (psample s 0 0).hist 0 [0]) = true ∧ isGot (storeStage s 0 0 (batch true) [0] []) = true ∧
      isGot (decide1 s 0 0) = true ∧ (psample s 0 0).hs < 2 ^ 32 ∧ (psample s 0 0).t < 2 ^ 32 ∧ (psample s 0 0).stg < 8) := by decide

/-- A returned record of its own slot, and of another. -/
theorem witness_taken_record :
    (let s := sample (fun x => { x with sst := 2 }) (job (fun x => { x with batches := [batch true] }))
     isGot (pendRead s 0 (bits returned 192 64) 0 1) = true ∧ bits (gotVal (pendRead s 0 (bits returned 192 64) 0 1)) 0 12 = 0 ∧
      isGot (pendCodes s 0 (bits returned 192 64) 64 1) = true) := by decide

/-- An error norm of NaN, one above 1 and one not; a sample to decide. -/
theorem witness_decisions :
    FVal.dnan.isNan = true ∧ (FVal.fin false 1 0).isNan = false ∧ (decideStep Sample.reset Job.reset tableau (.fin false 1 0)).2.1 = true ∧
    (decideStep Sample.reset Job.reset tableau (.fin false 2 0)).2.1 = false ∧ ((sample (fun x => { x with sst := 3 }) (job id)).die 0).pend.ended = [] ∧
    (psample (sample (fun x => { x with sst := 3 }) (job id)) 0 0).fin = none := by decide

/-- A Locket that a fault holds, with a record to trigger or disarm it; a job whose triggers come while a checkpoint runs, by period and by
report; jobs without a trigger to count. -/
theorem witness_locket_missed :
    (let s := queued (lock (fun x => { x with armed := true, st := 2, held := some (0, 7) })) (record 5 1 0 []) [0]
     lockOn s 0 = true ∧ (s.die 0).lock.held.isSome = true ∧ (ready s 0 5 1).isSome = true) ∧
    (ready (queued (lock (fun x => { x with st := 2, held := some (0, 7) })) (record 5 3 0 []) [0]) 0 5 3).isSome = true ∧
    (let s := lock (fun x => { x with armed := true, st := 2, desc := lockDesc0 0x100 1000000 0 })
     bits ((s.die 0).lock.w 0) 8 2 = 1 ∧ (s.die 0).lock.next ≤ s.hub.gtc) ∧
    (let s := lock (fun x => { x with armed := true, st := 2, desc := lockDesc0 0x200 0 (2 ^ 32) })
     bits ((s.die 0).lock.w 0) 8 2 = 2 ∧ reportGoes s 0 (s.die 0).lock = true) ∧
    (lock id).core.facets.size = 8 ∧ ((lock (fun x => { x with record := some (0, 0) })).die 0).lock.record = some (0, 0) ∧ ((lock id).die 0).lock.taken = [] := by
  decide

/-- The tables of a facet rise; a code just beyond the tolerance. -/
theorem witness_section :
    (base.core.facet 0).sym.Pairwise (fun p q => p.1 < q.1) ∧ (base.core.facet 0).rwa.Pairwise (fun p q => p.1 < q.1) ∧ (16512 : Nat) < 16513 := by decide

/-- A section of zeros restores without failure. -/
theorem witness_restored_section : restoreFails 0 false = false := by
  have hz : ∀ lo w, bits 0 lo w = 0 := fun lo w => by unfold bits; rw [Nat.zero_div, Nat.zero_mod]
  have h : farColumn 0 = false := by
    unfold farColumn
    rw [List.any_eq_false]
    intro u hu
    obtain ⟨j, hj, rfl⟩ := List.mem_iff_getElem.1 hu
    have : ∀ i j, farCode (codeAt 0 i j) = false := fun i j => by rw [codeAt, hz]; decide
    simp [farCells, this]
  simp [restoreFails, sectionCodes, hz, h]

/-- Registers of a machine that the host reaches, and that it does not, before a boot and with the die's spine DOWN; each mode. -/
theorem witness_clasp_reach :
    claspReach sys 0 = true ∧ claspReach sys 80 = true ∧ claspReach State.reset 80 = false ∧
    claspReach (sys.onHub (fun h => { h with links := [(16, 0)] })) 3 = false ∧ (sys.setClasp 0 { Clasp.reset with mode := 3 }).hub.rot = true ∧
    ({ Clasp.reset with mode := 3 }).shown 0 = 3 ∧ Clasp.reset.shown 0 = 1 ∧ (sys.setClasp 0 { Clasp.reset with mode := 4 }).hub.rot = true := by decide

/-- Registers with a bit for each die, where all spines are UP and where one is DOWN; an access of a peer with a way, without one, and of a class
beyond 2; accesses that FRES has ended. -/
theorem witness_outside :
    (let s := sys.onHub (fun h => { h with links := [(33, 1), (34, 1)] })
     s.hub.rot = true ∧ (List.range 16).all (fun e => spineOk s e 0) = true ∧ s.hub.writes = [] ∧ s.hub.gate = 0 ∧ s.hub.ref = 0 ∧
      peerHub s 1 0 64 = some 1 ∧ (match outAccess s 1 1 0 64 8 0 false false with | .done _ _ => true | _ => false) = true ∧ bits 64 47 5 = fld s.hub.prcfg 0 5 ∧
      2 < bits (3 * 2 ^ 44) 44 3 ∧ linkState s 33 ≠ 0) ∧
    (let s := sys.onHub (fun h => { h with links := [(33, 1), (16, 0)], lanesNext := some 0 })
     peerHub s 1 0 64 = none ∧ linkState s 33 ≠ 0 ∧ spineOk s 0 0 = false ∧ spineOk s 1 0 = true) ∧ linkState sys 33 = 0 ∧ linkState sys 34 = 0 := by decide

/-- The monitor with a live AMO entry that holds a failure, and with one that holds a value. -/
theorem witness_return_causes :
    (let w (st : Nat) : Word := BitVec.ofNat 64 (2 ^ 63 + 12 * 2 ^ 59 + st * 2 ^ 53)
     ∀ st ∈ [0, 1, 2, 3],
      let s := handler.onCore (fun t => { t with spr := { t.spr with snap := t.spr.snap.setIfInBounds 3 (w st) } })
      fld s.core.spr.tstat 1 1 = 1 ∧ s.core.reqs.length = 0 ∧ fld (s.core.spr.snap.getD 3 0) 63 1 = 1 ∧ fld (s.core.spr.snap.getD 3 0) 59 4 = 12 ∧
        fld (s.core.spr.snap.getD 3 0) 52 1 = 0 ∧ fld (s.core.spr.snap.getD 3 0) 53 2 = st) := by decide

/-- A load's effect at a scratchpad, and at storage behind a slice without poison; a landing that carries poison. -/
theorem witness_commit_load :
    hasSlice 128 = false ∧ base.codes.flaws = [] ∧ hasSlice (16 * 2 ^ 56) = true ∧ base.poison = [] ∧
    ({ base.core with flight := [{ what := .sreg 3 5, d := 1, j := 0, live := true, pois := true }] }.advance).regs.pois = [3] := by decide

/-! ## Lanes worked out by hand -/

/-- Lane 0 of a vector result under way. -/
def lane0 (o : Out) (w : Nat) : Nat :=
  match o with
  | .next s => match s.core.flight with | { what := .vec _ _ v, .. } :: _ => lane v 0 w | _ => 0
  | _ => 0

/-- 1.0 + 2.0 = 3.0 in BF16; 1.5 x 2.0 + 0.5 = 3.5 in FP32 (R205, R206). -/
theorem test_float_lanes :
    lane0 (exec (.vadd vab) (withVec (withVec base 2 0x3F80) 3 0x4000)) 16 = 0x4040 ∧
    lane0 (exec (.vfma { vab with f := 1, h := 1, e := 4 }) (withVec (withVec (withVec base 2 0x3FC00000) 3 0x40000000) 4 0x3F000000)) 32 =
      0x40600000 := by decide

/-- The reciprocal of 3 is 0x3EAAAAAB and of the square root of 4 is 0.5, rounded once (R215). -/
theorem test_transcendental :
    lane0 (exec (.vrcp { va1 with f := 1 }) (withVec base 4 0x40400000)) 32 = 0x3EAAAAAB ∧
    lane0 (exec (.vrsq { va1 with f := 1 }) (withVec base 4 0x40800000)) 32 = 0x3F000000 := by decide

/-- 0x7FFF + 1 wraps to 0x8000 in 16-bit lanes, and saturates to 0x7FFF under MOD 1 (R210). -/
theorem test_integer_lanes :
    lane0 (exec (.vaddI vi) (withVec (withVec base 2 0x7FFF) 3 1)) 16 = 0x8000 ∧
    lane0 (exec (.vaddI { vi with h := 1, e := 64 }) (withVec (withVec base 2 0x7FFF) 3 1)) 16 = 0x7FFF := by decide

/-- VCVT of FP32 2.5 to int8 under RNE gives 2, under RTZ of -2.5 gives -2 (R211, R212). -/
theorem test_conversion :
    lane0 (exec (.vcvt { g := 0, d := 1, a := 2, s := 1, t := 2, f := 1, h := 0, e := 0 }) (withVec base 2 0x40200000)) 8 = 2 ∧
    lane0 (exec (.vcvt { g := 0, d := 1, a := 2, s := 1, t := 2, f := 2, h := 0, e := 0 }) (withVec base 2 0xC0200000)) 8 = 0xFE := by decide

/-- A vector sum over all lanes of 32 ones in FP32 is 32.0 in every lane (R80, R216). -/
theorem test_vector_sum :
    lane0 (exec (.vrsum { va1 with f := 1 }) (withVec base 4 (ofLanes 32 (fun _ => 0x3F800000)))) 32 = 0x42000000 := by decide

/-- The record of R408's example: KIND 0, SZ = 3, TGT = 5, ST = 2; and the same with V = 0 once it is taken at return (R401,
R407). -/
theorem test_load_record : (loadRecord { Req.empty .ld with st := .page, size := 8, dst := 5 }).getD 1 0 = 0x8340050000000000 ∧
    (loadRecord (Req.taken { Req.empty .ld with st := .page, size := 8, dst := 5 })).getD 1 0 = 0x0340050000000000 := by decide

end Sys2Proof.Tests
end

section
/-! SUPPORT. Decoding gives back what encode wrote: format by format, then through the arms of the decoder. -/

namespace Sys2Proof

/-- Operand bits b, under any opcode and beside the sub-opcode bits s, leave the opcode as it is, pass the decoder's test P of the bits that
are no operand, and read back as o (R92 to R95). -/
def Fits {α : Type} (s : Nat) (P : Nat → Prop) (r : Nat → α) (b : Nat) (o : α) : Prop :=
  ∀ c : Nat, c % 33554432 = s → (c + b) / 33554432 = c / 33554432 ∧ P (c + b) ∧ r (c + b) = o

/-! ## The formats of the S slot -/

theorem OpSNgdab.fits (o : OpSNgdab) : Fits 0 (fun w => w % 4 = 0) OpSNgdab.ofWord o.bits o := by
  obtain ⟨n, g, d, a, b⟩ := o
  simp only [Fits, OpSNgdab.bits, OpSNgdab.ofWord, OpSNgdab.mk.injEq, Fin.ext_iff, Fin.val_ofNat]
  omega

theorem OpSNgda.fits (o : OpSNgda) : Fits 0 (fun w => w % 256 = 0) OpSNgda.ofWord o.bits o := by
  obtain ⟨n, g, d, a⟩ := o
  simp only [Fits, OpSNgda.bits, OpSNgda.ofWord, OpSNgda.mk.injEq, Fin.ext_iff, Fin.val_ofNat]
  omega

theorem OpSNqdab.fits (o : OpSNqdab) : Fits 0 (fun w => w % 4 = 0) OpSNqdab.ofWord o.bits o := by
  obtain ⟨n, q, d, a, b⟩ := o
  simp only [Fits, OpSNqdab.bits, OpSNqdab.ofWord, OpSNqdab.mk.injEq, Fin.ext_iff, Fin.val_ofNat]
  omega

theorem OpSSdabw.fits (o : OpSSdabw) : Fits 0 (fun w => w % 2 = 0 ∧ w / 1048576 % 2 = 0) OpSSdabw.ofWord o.bits o := by
  obtain ⟨s, d, a, b, w⟩ := o
  simp only [Fits, OpSSdabw.bits, OpSSdabw.ofWord, OpSSdabw.mk.injEq, Fin.ext_iff, Fin.val_ofNat]
  omega

theorem OpSNgdai.fits (o : OpSNgdai) : Fits 0 (fun _ => True) OpSNgdai.ofWord o.bits o := by
  obtain ⟨n, g, d, a, i⟩ := o
  simp only [Fits, OpSNgdai.bits, OpSNgdai.ofWord, OpSNgdai.mk.injEq, Fin.ext_iff, Fin.val_ofNat, true_and]
  omega

theorem OpSNgdai2.fits (o : OpSNgdai2) : Fits 0 (fun w => w / 64 % 4 = 0) OpSNgdai2.ofWord o.bits o := by
  obtain ⟨n, g, d, a, i⟩ := o
  simp only [Fits, OpSNgdai2.bits, OpSNgdai2.ofWord, OpSNgdai2.mk.injEq, Fin.ext_iff, Fin.val_ofNat]
  omega

theorem OpSDi.fits (o : OpSDi) : Fits 0 (fun _ => True) OpSDi.ofWord o.bits o := by
  obtain ⟨d, i⟩ := o
  simp only [Fits, OpSDi.bits, OpSDi.ofWord, OpSDi.mk.injEq, Fin.ext_iff, Fin.val_ofNat, true_and]
  omega

theorem OpSDhi.fits (o : OpSDhi) : Fits 0 (fun w => w / 262144 % 2 = 0) OpSDhi.ofWord o.bits o := by
  obtain ⟨d, h, i⟩ := o
  simp only [Fits, OpSDhi.bits, OpSDhi.ofWord, OpSDhi.mk.injEq, Fin.ext_iff, Fin.val_ofNat]
  omega

theorem OpSNgqabc.fits (o : OpSNgqabc) : Fits 0 (fun w => w % 2 = 0) OpSNgqabc.ofWord o.bits o := by
  obtain ⟨n, g, q, a, b, c⟩ := o
  simp only [Fits, OpSNgqabc.bits, OpSNgqabc.ofWord, OpSNgqabc.mk.injEq, Fin.ext_iff, Fin.val_ofNat]
  omega

theorem OpSNgqaci.fits (o : OpSNgqaci) : Fits 0 (fun _ => True) OpSNgqaci.ofWord o.bits o := by
  obtain ⟨n, g, q, a, c, i⟩ := o
  simp only [Fits, OpSNgqaci.bits, OpSNgqaci.ofWord, OpSNgqaci.mk.injEq, Fin.ext_iff, Fin.val_ofNat, true_and]
  omega

theorem OpSNgqxayb.fits (o : OpSNgqxayb) : Fits 0 (fun w => w % 64 = 0) OpSNgqxayb.ofWord o.bits o := by
  obtain ⟨n, g, q, x, a, y, b⟩ := o
  simp only [Fits, OpSNgqxayb.bits, OpSNgqxayb.ofWord, OpSNgqxayb.mk.injEq, Fin.ext_iff, Fin.val_ofNat]
  omega

theorem OpSNgqxa.fits (o : OpSNgqxa) : Fits 0 (fun w => w % 2048 = 0) OpSNgqxa.ofWord o.bits o := by
  obtain ⟨n, g, q, x, a⟩ := o
  simp only [Fits, OpSNgqxa.bits, OpSNgqxa.ofWord, OpSNgqxa.mk.injEq, Fin.ext_iff, Fin.val_ofNat]
  omega

theorem OpSNgo.fits (o : OpSNgo) : Fits 0 (fun _ => True) OpSNgo.ofWord o.bits o := by
  obtain ⟨n, g, o⟩ := o
  simp only [Fits, OpSNgo.bits, OpSNgo.ofWord, OpSNgo.mk.injEq, Fin.ext_iff, Fin.val_ofNat, true_and]
  omega

theorem OpSNgxqo.fits (o : OpSNgxqo) : Fits 0 (fun _ => True) OpSNgxqo.ofWord o.bits o := by
  obtain ⟨n, g, x, q, o⟩ := o
  simp only [Fits, OpSNgxqo.bits, OpSNgxqo.ofWord, OpSNgxqo.mk.injEq, Fin.ext_iff, Fin.val_ofNat, true_and]
  omega

theorem OpSNga.fits (o : OpSNga) : Fits 0 (fun w => w % 256 = 0 ∧ w / 16384 % 64 = 0) OpSNga.ofWord o.bits o := by
  obtain ⟨n, g, a⟩ := o
  simp only [Fits, OpSNga.bits, OpSNga.ofWord, OpSNga.mk.injEq, Fin.ext_iff, Fin.val_ofNat]
  omega

theorem OpSNgdo.fits (o : OpSNgdo) : Fits 0 (fun _ => True) OpSNgdo.ofWord o.bits o := by
  obtain ⟨n, g, d, o⟩ := o
  simp only [Fits, OpSNgdo.bits, OpSNgdo.ofWord, OpSNgdo.mk.injEq, Fin.ext_iff, Fin.val_ofNat, true_and]
  omega

theorem OpSNgso.fits (o : OpSNgso) : Fits 0 (fun _ => True) OpSNgso.ofWord o.bits o := by
  obtain ⟨n, g, s, o⟩ := o
  simp only [Fits, OpSNgso.bits, OpSNgso.ofWord, OpSNgso.mk.injEq, Fin.ext_iff, Fin.val_ofNat, true_and]
  omega

theorem OpSNgi.fits (o : OpSNgi) : Fits 0 (fun w => w / 256 % 4096 = 0) OpSNgi.ofWord o.bits o := by
  obtain ⟨n, g, i⟩ := o
  simp only [Fits, OpSNgi.bits, OpSNgi.ofWord, OpSNgi.mk.injEq, Fin.ext_iff, Fin.val_ofNat]
  omega

theorem OpSNg.fits (o : OpSNg) : Fits 0 (fun w => w % 1048576 = 0) OpSNg.ofWord o.bits o := by
  obtain ⟨n, g⟩ := o
  simp only [Fits, OpSNg.bits, OpSNg.ofWord, OpSNg.mk.injEq, Fin.ext_iff, Fin.val_ofNat]
  omega

theorem OpSNgdi.fits (o : OpSNgdi) : Fits 0 (fun w => w / 256 % 64 = 0) OpSNgdi.ofWord o.bits o := by
  obtain ⟨n, g, d, i⟩ := o
  simp only [Fits, OpSNgdi.bits, OpSNgdi.ofWord, OpSNgdi.mk.injEq, Fin.ext_iff, Fin.val_ofNat]
  omega

theorem OpSNgai.fits (o : OpSNgai) : Fits 0 (fun w => w / 16384 % 64 = 0) OpSNgai.ofWord o.bits o := by
  obtain ⟨n, g, a, i⟩ := o
  simp only [Fits, OpSNgai.bits, OpSNgai.ofWord, OpSNgai.mk.injEq, Fin.ext_iff, Fin.val_ofNat]
  omega

theorem OpSI.fits (o : OpSI) : Fits 0 (fun w => w / 131072 % 256 = 0) OpSI.ofWord o.bits o := by
  obtain ⟨i⟩ := o
  simp only [Fits, OpSI.bits, OpSI.ofWord, OpSI.mk.injEq, Fin.ext_iff, Fin.val_ofNat]
  omega

theorem OpSNgks.fits (o : OpSNgks) : Fits 0 (fun w => w % 16384 = 0) OpSNgks.ofWord o.bits o := by
  obtain ⟨n, g, k, s⟩ := o
  simp only [Fits, OpSNgks.bits, OpSNgks.ofWord, OpSNgks.mk.injEq, Fin.ext_iff, Fin.val_ofNat]
  omega

/-! ## The formats of the V slots -/

theorem OpVGdabf.fits (o : OpVGdabf) : Fits 0 (fun _ => True) (OpVGdabf.ofWord · o.h o.e) o.bits o := by
  obtain ⟨g, d, a, b, f, h, e⟩ := o
  simp only [Fits, OpVGdabf.bits, OpVGdabf.ofWord, OpVGdabf.mk.injEq, Fin.ext_iff, Fin.val_ofNat, true_and]
  omega

theorem OpVGdaf.fits (o : OpVGdaf) : Fits 0 (fun w => w / 8 % 64 = 0) (OpVGdaf.ofWord · o.h o.e) o.bits o := by
  obtain ⟨g, d, a, f, h, e⟩ := o
  simp only [Fits, OpVGdaf.bits, OpVGdaf.ofWord, OpVGdaf.mk.injEq, Fin.ext_iff, Fin.val_ofNat]
  omega

theorem OpVGcmabf.fits (o : OpVGcmabf) : Fits 0 (fun _ => True) (OpVGcmabf.ofWord · o.h o.e) o.bits o := by
  obtain ⟨g, c, m, a, b, f, h, e⟩ := o
  simp only [Fits, OpVGcmabf.bits, OpVGcmabf.ofWord, OpVGcmabf.mk.injEq, Fin.ext_iff, Fin.val_ofNat, true_and]
  omega

theorem OpVGdabm.fits (o : OpVGdabm) : Fits 0 (fun _ => True) (OpVGdabm.ofWord · o.h o.e) o.bits o := by
  obtain ⟨g, d, a, b, m, h, e⟩ := o
  simp only [Fits, OpVGdabm.bits, OpVGdabm.ofWord, OpVGdabm.mk.injEq, Fin.ext_iff, Fin.val_ofNat, true_and]
  omega

theorem OpVGdabf2.fits (o : OpVGdabf2) : Fits 0 (fun w => w / 4 % 2 = 0) (OpVGdabf2.ofWord · o.h o.e) o.bits o := by
  obtain ⟨g, d, a, b, f, h, e⟩ := o
  simp only [Fits, OpVGdabf2.bits, OpVGdabf2.ofWord, OpVGdabf2.mk.injEq, Fin.ext_iff, Fin.val_ofNat]
  omega

theorem OpVGdastf.fits (o : OpVGdastf) : Fits 0 (fun _ => True) (OpVGdastf.ofWord · o.h o.e) o.bits o := by
  obtain ⟨g, d, a, s, t, f, h, e⟩ := o
  simp only [Fits, OpVGdastf.bits, OpVGdastf.ofWord, OpVGdastf.mk.injEq, Fin.ext_iff, Fin.val_ofNat, true_and]
  omega

theorem OpVGdast.fits (o : OpVGdast) : Fits 0 (fun w => w % 8 = 0) (OpVGdast.ofWord · o.h o.e) o.bits o := by
  obtain ⟨g, d, a, s, t, h, e⟩ := o
  simp only [Fits, OpVGdast.bits, OpVGdast.ofWord, OpVGdast.mk.injEq, Fin.ext_iff, Fin.val_ofNat]
  omega

theorem OpVGda.fits (o : OpVGda) : Fits 0 (fun w => w % 512 = 0) (OpVGda.ofWord · o.h o.e) o.bits o := by
  obtain ⟨g, d, a, h, e⟩ := o
  simp only [Fits, OpVGda.bits, OpVGda.ofWord, OpVGda.mk.injEq, Fin.ext_iff, Fin.val_ofNat]
  omega

theorem OpVGdauf.fits (o : OpVGdauf) : Fits 0 (fun w => w / 4 % 2 = 0) (OpVGdauf.ofWord · o.h o.e) o.bits o := by
  obtain ⟨g, d, a, u, f, h, e⟩ := o
  simp only [Fits, OpVGdauf.bits, OpVGdauf.ofWord, OpVGdauf.mk.injEq, Fin.ext_iff, Fin.val_ofNat]
  omega

theorem OpVGab.fits (o : OpVGab) : Fits 0 (fun w => w % 8 = 0 ∧ w / 32768 % 64 = 0) (OpVGab.ofWord · o.h o.e) o.bits o := by
  obtain ⟨g, a, b, h, e⟩ := o
  simp only [Fits, OpVGab.bits, OpVGab.ofWord, OpVGab.mk.injEq, Fin.ext_iff, Fin.val_ofNat]
  omega

theorem OpVGdb.fits (o : OpVGdb) : Fits 0 (fun w => w % 8 = 0 ∧ w / 512 % 64 = 0) (OpVGdb.ofWord · o.h o.e) o.bits o := by
  obtain ⟨g, d, b, h, e⟩ := o
  simp only [Fits, OpVGdb.bits, OpVGdb.ofWord, OpVGdb.mk.injEq, Fin.ext_iff, Fin.val_ofNat]
  omega

theorem OpVGabf.fits (o : OpVGabf) : Fits 0 (fun w => w / 32768 % 64 = 0) (OpVGabf.ofWord · o.h o.e) o.bits o := by
  obtain ⟨g, a, b, f, h, e⟩ := o
  simp only [Fits, OpVGabf.bits, OpVGabf.ofWord, OpVGabf.mk.injEq, Fin.ext_iff, Fin.val_ofNat]
  omega

theorem OpVGdab.fits (o : OpVGdab) : Fits 0 (fun w => w % 8 = 0) (OpVGdab.ofWord · o.h o.e) o.bits o := by
  obtain ⟨g, d, a, b, h, e⟩ := o
  simp only [Fits, OpVGdab.bits, OpVGdab.ofWord, OpVGdab.mk.injEq, Fin.ext_iff, Fin.val_ofNat]
  omega

theorem OpVGdai.fits (o : OpVGdai) : Fits 0 (fun w => w % 8 = 0) (OpVGdai.ofWord · o.h o.e) o.bits o := by
  obtain ⟨g, d, a, i, h, e⟩ := o
  simp only [Fits, OpVGdai.bits, OpVGdai.ofWord, OpVGdai.mk.injEq, Fin.ext_iff, Fin.val_ofNat]
  omega

theorem OpVGdaim.fits (o : OpVGdaim) : Fits 0 (fun _ => True) (OpVGdaim.ofWord · o.h o.e) o.bits o := by
  obtain ⟨g, d, a, i, m, h, e⟩ := o
  simp only [Fits, OpVGdaim.bits, OpVGdaim.ofWord, OpVGdaim.mk.injEq, Fin.ext_iff, Fin.val_ofNat, true_and]
  omega

theorem OpVGdaif.fits (o : OpVGdaif) : Fits 0 (fun w => w / 4 % 2 = 0) (OpVGdaif.ofWord · o.h o.e) o.bits o := by
  obtain ⟨g, d, a, i, f, h, e⟩ := o
  simp only [Fits, OpVGdaif.bits, OpVGdaif.ofWord, OpVGdaif.mk.injEq, Fin.ext_iff, Fin.val_ofNat]
  omega

theorem OpVGdaf2.fits (o : OpVGdaf2) : Fits 0 (fun w => w / 4 % 128 = 0) (OpVGdaf2.ofWord · o.h o.e) o.bits o := by
  obtain ⟨g, d, a, f, h, e⟩ := o
  simp only [Fits, OpVGdaf2.bits, OpVGdaf2.ofWord, OpVGdaf2.mk.injEq, Fin.ext_iff, Fin.val_ofNat]
  omega

theorem OpVGdwi.fits (o : OpVGdwi) : Fits 0 (fun _ => True) (OpVGdwi.ofWord · o.h o.e) o.bits o := by
  obtain ⟨g, d, w, i, h, e⟩ := o
  simp only [Fits, OpVGdwi.bits, OpVGdwi.ofWord, OpVGdwi.mk.injEq, Fin.ext_iff, Fin.val_ofNat, true_and]
  omega

theorem OpVGa.fits (o : OpVGa) : Fits 0 (fun w => w % 512 = 0 ∧ w / 32768 % 64 = 0) (OpVGa.ofWord · o.h o.e) o.bits o := by
  obtain ⟨g, a, h, e⟩ := o
  simp only [Fits, OpVGa.bits, OpVGa.ofWord, OpVGa.mk.injEq, Fin.ext_iff, Fin.val_ofNat]
  omega

/-! ## The formats of the T slot -/

theorem OpTNgfkab.fits (o : OpTNgfkab) : Fits 0 (fun w => w % 2 = 0 ∧ w / 32768 % 4 = 0) (OpTNgfkab.ofWord · o.e) o.bits o := by
  obtain ⟨n, g, f, k, a, b, e⟩ := o
  simp only [Fits, OpTNgfkab.bits, OpTNgfkab.ofWord, OpTNgfkab.mk.injEq, Fin.ext_iff, Fin.val_ofNat]
  omega

theorem OpTNgfab.fits (o : OpTNgfab) (s : Fin 16) :
    Fits (8192 * s) (fun w => w % 2 = 0 ∧ w / 8192 % 16 = s) (OpTNgfab.ofWord · o.e) o.bits o := by
  obtain ⟨n, g, f, a, b, e⟩ := o
  simp only [Fits, OpTNgfab.bits, OpTNgfab.ofWord, OpTNgfab.mk.injEq, Fin.ext_iff, Fin.val_ofNat]
  omega

theorem OpTNgfa.fits (o : OpTNgfa) (s : Fin 16) :
    Fits (8192 * s) (fun w => w % 128 = 0 ∧ w / 8192 % 16 = s) (OpTNgfa.ofWord · o.e) o.bits o := by
  obtain ⟨n, g, f, a, e⟩ := o
  simp only [Fits, OpTNgfa.bits, OpTNgfa.ofWord, OpTNgfa.mk.injEq, Fin.ext_iff, Fin.val_ofNat]
  omega

theorem OpTNgf.fits (o : OpTNgf) (s : Fin 16) : Fits (8192 * s) (fun w => w % 131072 = 8192 * s) (OpTNgf.ofWord · o.e) o.bits o := by
  obtain ⟨n, g, f, e⟩ := o
  simp only [Fits, OpTNgf.bits, OpTNgf.ofWord, OpTNgf.mk.injEq, Fin.ext_iff, Fin.val_ofNat]
  omega

theorem OpTNgfkb.fits (o : OpTNgfkb) : Fits 0 (fun w => w % 2 = 0 ∧ w / 128 % 64 = 0) (OpTNgfkb.ofWord · o.e) o.bits o := by
  obtain ⟨n, g, f, k, b, e⟩ := o
  simp only [Fits, OpTNgfkb.bits, OpTNgfkb.ofWord, OpTNgfkb.mk.injEq, Fin.ext_iff, Fin.val_ofNat]
  omega

theorem OpTNgfrsv.fits (o : OpTNgfrsv) :
    Fits 0 (fun w => w / 8192 % 4 ≠ 1 ∧ w / 32768 % 4 = 0 ∧ w % 8192 = 0) (OpTNgfrsv.ofWord · o.e) o.bits o := by
  obtain ⟨n, g, f, rsv, e⟩ := o
  simp only [Fits, OpTNgfrsv.bits, OpTNgfrsv.ofWord, OpTNgfrsv.mk.injEq, Fin.ext_iff, Fin.val_ofNat]
  split <;> omega

theorem OpTNgfb.fits (o : OpTNgfb) (s : Fin 16) :
    Fits (8192 * s) (fun w => w % 2 = 0 ∧ w / 128 % 1024 = 64 * s) (OpTNgfb.ofWord · o.e) o.bits o := by
  obtain ⟨n, g, f, b, e⟩ := o
  simp only [Fits, OpTNgfb.bits, OpTNgfb.ofWord, OpTNgfb.mk.injEq, Fin.ext_iff, Fin.val_ofNat]
  omega

theorem OpTNgdabf.fits (o : OpTNgdabf) : Fits 0 (fun w => w / 65536 % 16 = 0) (OpTNgdabf.ofWord · o.e) o.bits o := by
  obtain ⟨n, g, d, a, b, f, e⟩ := o
  simp only [Fits, OpTNgdabf.bits, OpTNgdabf.ofWord, OpTNgdabf.mk.injEq, Fin.ext_iff, Fin.val_ofNat]
  omega

theorem OpTNgdb.fits (o : OpTNgdb) :
    Fits 0 (fun w => w % 4 = 0 ∧ w / 256 % 64 = 0 ∧ w / 65536 % 16 = 0) (OpTNgdb.ofWord · o.e) o.bits o := by
  obtain ⟨n, g, d, b, e⟩ := o
  simp only [Fits, OpTNgdb.bits, OpTNgdb.ofWord, OpTNgdb.mk.injEq, Fin.ext_iff, Fin.val_ofNat]
  omega

theorem OpTNgcxym.fits (o : OpTNgcxym) : Fits 0 (fun w => w % 1024 = 0) (OpTNgcxym.ofWord · o.e) o.bits o := by
  obtain ⟨n, g, c, x, y, m, e⟩ := o
  simp only [Fits, OpTNgcxym.bits, OpTNgcxym.ofWord, OpTNgcxym.mk.injEq, Fin.ext_iff, Fin.val_ofNat]
  omega

theorem OpTNgcxymak.fits (o : OpTNgcxymak) : Fits 0 (fun w => w / 4 % 4 = 0) (OpTNgcxymak.ofWord · o.e) o.bits o := by
  obtain ⟨n, g, c, x, y, m, a, k, e⟩ := o
  simp only [Fits, OpTNgcxymak.bits, OpTNgcxymak.ofWord, OpTNgcxymak.mk.injEq, Fin.ext_iff, Fin.val_ofNat]
  omega

theorem OpTNgcak.fits (o : OpTNgcak) : Fits 0 (fun w => w / 1024 % 128 = 0) (OpTNgcak.ofWord · o.e) o.bits o := by
  obtain ⟨n, g, c, a, k, e⟩ := o
  simp only [Fits, OpTNgcak.bits, OpTNgcak.ofWord, OpTNgcak.mk.injEq, Fin.ext_iff, Fin.val_ofNat]
  omega

theorem OpTNgc.fits (o : OpTNgc) : Fits 0 (fun w => w % 131072 = 0) (OpTNgc.ofWord · o.e) o.bits o := by
  obtain ⟨n, g, c, e⟩ := o
  simp only [Fits, OpTNgc.bits, OpTNgc.ofWord, OpTNgc.mk.injEq, Fin.ext_iff, Fin.val_ofNat]
  omega

theorem OpTNgdab.fits (o : OpTNgdab) : Fits 0 (fun w => w % 4 = 0) (OpTNgdab.ofWord · o.e) o.bits o := by
  obtain ⟨n, g, d, a, b, e⟩ := o
  simp only [Fits, OpTNgdab.bits, OpTNgdab.ofWord, OpTNgdab.mk.injEq, Fin.ext_iff, Fin.val_ofNat]
  omega

theorem OpTNgab.fits (o : OpTNgab) : Fits 0 (fun w => w % 4 = 0 ∧ w / 16384 % 64 = 0) (OpTNgab.ofWord · o.e) o.bits o := by
  obtain ⟨n, g, a, b, e⟩ := o
  simp only [Fits, OpTNgab.bits, OpTNgab.ofWord, OpTNgab.mk.injEq, Fin.ext_iff, Fin.val_ofNat]
  omega

theorem OpTNga.fits (o : OpTNga) : Fits 0 (fun w => w % 256 = 0 ∧ w / 16384 % 64 = 0) (OpTNga.ofWord · o.e) o.bits o := by
  obtain ⟨n, g, a, e⟩ := o
  simp only [Fits, OpTNga.bits, OpTNga.ofWord, OpTNga.mk.injEq, Fin.ext_iff, Fin.val_ofNat]
  omega

theorem OpTNg.fits (o : OpTNg) : Fits 0 (fun w => w % 1048576 = 0) (OpTNg.ofWord · o.e) o.bits o := by
  obtain ⟨n, g, e⟩ := o
  simp only [Fits, OpTNg.bits, OpTNg.ofWord, OpTNg.mk.injEq, Fin.ext_iff, Fin.val_ofNat]
  omega

theorem OpTNgdb2.fits (o : OpTNgdb2) : Fits 0 (fun w => w % 4 = 0 ∧ w / 256 % 64 = 0) (OpTNgdb2.ofWord · o.e) o.bits o := by
  obtain ⟨n, g, d, b, e⟩ := o
  simp only [Fits, OpTNgdb2.bits, OpTNgdb2.ofWord, OpTNgdb2.mk.injEq, Fin.ext_iff, Fin.val_ofNat]
  omega

theorem OpTNgfab2.fits (o : OpTNgfab2) : Fits 0 (fun w => w % 2 = 0) (OpTNgfab2.ofWord · o.e) o.bits o := by
  obtain ⟨n, g, f, a, b, e⟩ := o
  simp only [Fits, OpTNgfab2.bits, OpTNgfab2.ofWord, OpTNgfab2.mk.injEq, Fin.ext_iff, Fin.val_ofNat]
  omega

/-! ## From a format to the decoder -/

theorem bind_decodeSlot {i : Instr} {x : SlotWord} (he : encode i = some x) (hd : decodeSlot x = some i) :
    (encode i).bind decodeSlot = some i := by rw [he]; exact hd

theorem decodeS_of_opcode {w : Nat} (h : w / 33554432 < 120) : decodeS w = decodeSOp w := if_neg (by omega)

section
variable {α : Type} {s b c : Nat} {P : Nat → Prop} {r : Nat → α} {o : α} {f : α → Instr}

/-- An arm of a decoder that takes every word of the opcode that passes P gives back the instruction. -/
theorem Fits.arm (h : Fits s P r b o) {dec : Nat → Option Instr} (hc : c % 33554432 = s)
    (hd : ∀ w, w / 33554432 = c / 33554432 → P w → dec w = some (f (r w))) : dec (c + b) = some (f o) := by
  obtain ⟨hk, hP, hr⟩ := h c hc
  rw [hd _ hk hP, hr]

theorem Fits.decode_s (h : Fits s P r b o) (he : encode (f o) = some { space := .s, word := c + b, hdr := 0, ext := 0 })
    (hc : c % 33554432 = s) (hk : c / 33554432 < 120)
    (hd : ∀ w, w / 33554432 = c / 33554432 → P w → decodeSOp w = some (f (r w))) : (encode (f o)).bind decodeSlot = some (f o) :=
  bind_decodeSlot he ((decodeS_of_opcode ((h c hc).1.symm ▸ hk)).trans (h.arm hc hd))

theorem Fits.decode_v (h : Fits s P r b o) {hdr ext : Nat} (he : encode (f o) = some { space := .v, word := c + b, hdr := hdr, ext := ext })
    (hc : c % 33554432 = s) (hd : ∀ w, w / 33554432 = c / 33554432 → P w → decodeV w hdr ext = some (f (r w))) :
    (encode (f o)).bind decodeSlot = some (f o) :=
  bind_decodeSlot he (h.arm (dec := (decodeV · hdr ext)) hc hd)

theorem Fits.decode_t (h : Fits s P r b o) {ext : Nat} (he : encode (f o) = some { space := .t, word := c + b, hdr := 0, ext := ext })
    (hc : c % 33554432 = s) (hd : ∀ w, w / 33554432 = c / 33554432 → P w → decodeT w ext = some (f (r w))) :
    (encode (f o)).bind decodeSlot = some (f o) :=
  bind_decodeSlot he (h.arm (dec := (decodeT · ext)) hc hd)

end

theorem decodeS_header (o : OpHeader) : decodeS (0xF0000000 + o.bits) = some (.header o) := by
  have h : (0xF0000000 + o.bits) / 268435456 = 15 := by simp only [OpHeader.bits]; omega
  have hr : OpHeader.ofWord (0xF0000000 + o.bits) = o := by
    obtain ⟨rb, re, vj, tw, e0, e1, et⟩ := o
    simp only [OpHeader.bits, OpHeader.ofWord, OpHeader.mk.injEq, Fin.ext_iff, Fin.val_ofNat]
    omega
  rw [decodeS, if_pos h, hr]

/-- The decoder gives back each instruction: the header by its leading ones, the others through the arm of their opcode, which takes the word
whose reserved fields are zero; MXLD and MXLD.R share an opcode and are told apart by bit 0 of ET (R10, R86, R96 to R98). -/
theorem decode_encode (i : Instr) (h : i.wf = true) (he : (encode i).isSome = true) : (encode i).bind decodeSlot = some i := by
  cases i with
  | nop => rfl
  | header o => exact bind_decodeSlot rfl (decodeS_header o)
  | unassignedOpcode o => exact absurd h Bool.false_ne_true
  | addi o | andi o | ori o | xori o | muli o | miniI o | miniN o | maxiI o | maxiN o | xv2sN8 o | xv2sI8 o | xv2sN16 o | xv2sI16 o
  | xv2sN32 o | xv2sI32 o | xv2sN64 o | ldBI o | ldBN o | ldHI o | ldHN o | ldWI o | ldWN o | ldD o | stB o | stH o | stW o | stD o
  | stGB o | stGH o | stGW o | stGD o | ldi o | cmpi o | br o | brG o | loop o | brc o | call o | loopr o =>
    exact o.fits.decode_s rfl rfl (by decide) (fun w h _ => by rw [decodeSOp, h]; rfl)
  | add o | sub o | and o | or o | xor o | andn o | shl o | shr o | sra o | mul o | mulhI o | mulhN o | minI o | minN o | maxI o
  | maxN o | xq2m o | clz o | popc o | sel o | amoAdd o | amoMinI o | amoMinN o | amoMaxI o | amoMaxN o | amoAnd o | amoOr o | amoXor o
  | amoXchg o | amoCas o | shli o | shri o | srai o | ldhi o | cmp o | pand o | por o | pxor o | pnot o | jmp o | ret o | setlc o
  | waitc o | chkS o | trap o | eret o | halt o | retire o | mfs o | mts o | pref o | setfmt o | fence o =>
    exact o.fits.decode_s rfl rfl (by decide) (fun w h p => by rw [decodeSOp, h]; exact if_pos p)
  | vadd o | vsub o | vmul o | vfma o | vfms o | vfnma o | vmax o | vmin o | vclamp o | vminInt o | vmaxInt o | vpackMx o | vnorm o
  | vsmax o | vq8 o | vcmp o | vcmpI o | vsel o | vcvt o | vstM o | vli o =>
    exact o.fits.decode_v rfl rfl (fun w h _ => by rw [decodeV, h]; rfl)
  | vabs o | vneg o | vunpkMx o | vexp2 o | vlog2 o | vrcp o | vrsq o | vtanh o | vrsum o | vrmax o | vrmin o | vbfacc o | vbfexp o
  | vaddI o | vsubI o | vmulI o | vand o | vor o | vxor o | vshl o | vshr o | vsra o | vperm o | vzip o | vuzp o | vcvtSr o | vtrn o
  | vrot o | vbcst o | vstatW o | vstatR o | vmom o | vpprob o | vld o | vst o | vldb o | vmov o | xs2v o | xm2q o | chkV o =>
    exact o.fits.decode_v rfl rfl (fun w h p => by rw [decodeV, h]; exact if_pos p)
  | xmvm o | xmvt o | xget o | xmodeN o | mma o | mmaz o | mmag o | mxrd o | mxwr o | mxclr o | cpy o | cpyw o | fill o | gath o
  | barTest o | chset o | barInit o | barExp o | barArr o | barWait o | beadSend o | bankAcq o | bankRel o | beadDone o | rngSeed o
  | beadRecv o | beadHdr o | dupS o =>
    exact o.fits.decode_t rfl rfl (fun w h p => by rw [decodeT, h]; exact if_pos p)
  | xupdA o | xupdD o | xfer o | xrst o | xsymLd o | xsymSt o | xcfgW o | xsymCal o | xwait o | xstat o =>
    exact (o.fits 0).decode_t rfl rfl (fun w h p => by rw [decodeT, h]; exact if_pos p)
  | xupdC o | xferR o | xcfgR o | xstatPc o | xrstAll o | xmodeR o =>
    exact (o.fits 1).decode_t rfl rfl (fun w h p => by rw [decodeT, h]; exact (if_neg (by omega)).trans (if_pos p))
  | xcfgWa o => exact (o.fits 2).decode_t rfl rfl (fun w h p => by rw [decodeT, h]; simp [p])
  | xcfgRa o => exact (o.fits 3).decode_t rfl rfl (fun w h p => by rw [decodeT, h]; simp [p])
  | xcfgWc o => exact (o.fits 4).decode_t rfl rfl (fun w h p => by rw [decodeT, h]; simp [p])
  | xcfgRc o => exact (o.fits 5).decode_t rfl rfl (fun w h p => by rw [decodeT, h]; simp [p])
  | mxld o =>
    have hext : (o.e.val == 0) = true := (Bool.and_eq_true_iff.mp h).2
    exact o.fits.decode_t rfl rfl (fun w h p => by rw [decodeT, h]; exact if_pos ⟨p, by rw [beq_iff_eq.mp hext]⟩)
  | mxldR o =>
    have hext : (o.e.val == 1) = true := (Bool.and_eq_true_iff.mp h).2
    have hodd : o.e.val % 2 = 1 := by rw [beq_iff_eq.mp hext]
    exact o.fits.decode_t rfl rfl (fun w h ⟨p4, pa, pd⟩ => by
      rw [decodeT, h]
      exact (if_neg (by omega)).trans (if_pos ⟨p4, pa, pd, hodd⟩))
  | _ => cases he

/-- Settles O53: a slot word of a well-formed instruction decodes to it. -/
theorem decodeEncode : Obligations.DecodeEncode := by
  intro i x hwf henc
  have h := decode_encode i hwf (Option.isSome_iff_exists.mpr ⟨x, henc⟩)
  rwa [henc, Option.bind_some] at h

end Sys2Proof
end

section
/-! SUPPORT. The order in which the checks of a slot stand against its operation (R90, R99, R102). -/

namespace Sys2Proof.Machine

/-- An answer r to an operation in the order of its slot's checks: a word that fails them traps, a guard that is off leaves only the
landings to count, a pending source stalls (R90, R99, R102). -/
def ChecksFirst (i : Instr) (s : State) (r : Out) : Prop :=
  let bad := legal i = false ∨ featOk s.hub.featacc i = false
  let on := (guardOf i).on s.core
  (bad → r = trapOut s .illegal s.core.iss.slot (illegalTval i) .trapDecode) ∧
  (¬bad → on = false → r = .next (finish (s.dead i))) ∧
  (¬bad → on = true → readsPending s.core i = true → r = stallOut s i .stallSb)

theorem issue_checksFirst {i : Instr} (hx : extOk i = true) (op : Op) (s : State) : ChecksFirst i s (issue i op s) := by
  refine ⟨fun hb => issue_illegal i op s hx hb, fun hb hoff => ?_, fun hb hon hr => ?_⟩ <;>
    obtain ⟨hl, hf⟩ : legal i = true ∧ featOk s.hub.featacc i = true := by simpa using hb
  · exact issue_off i op s hx hl hf hoff
  · exact issue_stall i op s ⟨hx, hl, hf, hon⟩ hr

/-- Nothing of the checks stands against an operation that comes to its own. -/
theorem checksFirst_of_reaches {i : Instr} {s : State} (h : reaches i s = true) (r : Out) : ChecksFirst i s r := by
  simp only [reaches, Bool.and_eq_true, Bool.not_eq_true'] at h
  obtain ⟨⟨⟨⟨-, hl⟩, hf⟩, hon⟩, hr⟩ := h
  simp [ChecksFirst, hl, hf, hon, hr]

/-- An operation that reads storage for its own checks does so only where it comes to them. -/
theorem issue_checksFirst_of {i : Instr} (hx : extOk i = true) (op : Op) {s s' : State} (h : reaches i s = false → s' = s) :
    ChecksFirst i s (issue i op s') := by
  cases hr : reaches i s with
  | true => exact checksFirst_of_reaches hr _
  | false => exact h hr ▸ issue_checksFirst hx op s

theorem barUpdOp_checksFirst {i : Instr} (hx : extOk i = true) (o : OpTNgab) (code : Nat) (own rel : Bool) (s : State) :
    ChecksFirst i s (barUpdOp i o code own rel s) := by
  unfold barUpdOp
  dsimp only
  split <;> exact issue_checksFirst hx _ s

/-- HALT is of no feature, has no extension and reads no register. -/
theorem reaches_halt (o : OpSNg) (s : State) : reaches (.halt o) s = (legal (.halt o) && (guardOf (.halt o)).on s.core) := by
  have hx : extOk (.halt o) = true := rfl
  have hf : featOk s.hub.featacc (.halt o) = true := rfl
  have hr : readsPending s.core (.halt o) = false := rfl
  simp [reaches, hx, hf, hr]

/-- Every slot operation is issued: its answer is in the order of its slot's checks. NOP, LDI and the header always come to their own. -/
theorem exec_checksFirst {i : Instr} (he : (encode i).isSome = true) (hx : extOk i = true) (s : State) : ChecksFirst i s (exec i s) := by
  cases i with
  | nop | ldi _ | header _ => exact checksFirst_of_reaches rfl _
  | halt o => exact issue_checksFirst_of hx _ fun hr => if_neg (by rw [reaches_halt] at hr; simp [hr])
  | eret o => exact issue_checksFirst_of hx _ fun hr => by simp [hr]
  | barInit o => exact barUpdOp_checksFirst hx o 0 true false s
  | barExp o => exact barUpdOp_checksFirst hx o 1 false false s
  | barArr o => exact barUpdOp_checksFirst hx o 2 false true s
  | barWait o =>
    unfold exec execBarWait
    dsimp only
    split
    · exact issue_checksFirst hx _ s
    · exact issue_checksFirst_of hx _ fun hr => by simp [hr]
  | barTest o =>
    unfold exec execBarTest
    dsimp only
    split <;> exact issue_checksFirst hx _ s
  | unassignedOpcode o => exact issue_checksFirst hx {} s
  | add o | sub o | and o | or o | xor o | andn o | shl o | shr o | sra o | mul o | mulhI o | mulhN o | minI o | minN o | maxI o
  | maxN o | clz o | popc o | sel o | amoAdd o | amoMinI o | amoMinN o | amoMaxI o | amoMaxN o | amoAnd o | amoOr o | amoXor o
  | amoXchg o | amoCas o | addi o | andi o | ori o | xori o | shli o | shri o | srai o | muli o | miniI o | miniN o | maxiI o | maxiN o
  | ldhi o | cmp o | cmpi o | pand o | por o | pxor o | pnot o | br o | brc o | brG o | jmp o | call o | ret o | loop o | loopr o
  | setlc o | waitc o | trap o | retire o | mfs o | mts o | setfmt o | chkS o | xv2sN8 o | xv2sI8 o | xv2sN16 o | xv2sI16 o | xv2sN32 o
  | xv2sI32 o | xv2sN64 o | xq2m o | ldBI o | ldBN o | ldHI o | ldHN o | ldWI o | ldWN o | ldD o | pref o | stB o | stH o | stW o
  | stD o | stGB o | stGH o | stGW o | stGD o | fence o | vadd o | vsub o | vmul o | vfma o | vfms o | vfnma o | vmax o | vmin o
  | vabs o | vneg o | vclamp o | vcmp o | vsel o | vaddI o | vsubI o | vmulI o | vand o | vor o | vxor o | vshl o | vshr o | vsra o
  | vminInt o | vmaxInt o | vcmpI o | vcvt o | vcvtSr o | vpackMx o | vunpkMx o | vexp2 o | vlog2 o | vrcp o | vrsq o | vtanh o
  | vrsum o | vrmax o | vrmin o | vperm o | vtrn o | vzip o | vuzp o | vrot o | vbcst o | vstatW o | vstatR o | vmom o | vnorm o
  | vsmax o | vbfacc o | vbfexp o | vpprob o | vq8 o | vld o | vst o | vstM o | vldb o | vmov o | vli o | xs2v o | xm2q o | chkV o
  | xmvm o | xmvt o | xupdA o | xupdC o | xupdD o | xfer o | xferR o | xrst o | xrstAll o | xsymCal o | xsymLd o | xsymSt o | xget o
  | xcfgW o | xcfgR o | xcfgWa o | xcfgRa o | xcfgWc o | xcfgRc o | xmodeN o | xmodeR o | xstat o | xstatPc o | xwait o | mxld o
  | mxldR o | mma o | mmaz o | mmag o | mxrd o | mxwr o | mxclr o | cpy o | cpyw o | fill o | gath o | chset o | bankAcq o | bankRel o
  | beadRecv o | beadSend o | beadDone o | beadHdr o | rngSeed o | dupS o =>
    exact issue_checksFirst hx _ s
  | _ => cases he

theorem exec_unassigned (o : OpUnassigned) (s : State) :
    exec (.unassignedOpcode o) s = trapOut s .illegal s.core.iss.slot o.word .trapDecode :=
  issue_illegal (.unassignedOpcode o) {} s rfl (.inl rfl)

/-- Settles O54: every slot operation is issued through the checks of its slot, and a stall passes one cycle. -/
theorem issueChecks : Obligations.IssueChecks :=
  ⟨fun _ s he hx => exec_checksFirst he hx s, exec_unassigned, fun _ _ _ => ⟨_, _, rfl⟩⟩

end Sys2Proof.Machine
end

section
/-! SUPPORT. What a bundle's effects do at its commit, and what they leave alone (R52, R53, R111). -/

namespace Sys2Proof.Machine

/-! ## Bytes under byte enables -/

/-- A byte of a merge: the data where it is enabled and its unit may take it, else what stands there. -/
theorem getD_mergeBytes (s : State) (k data enb : Nat) {n i : Nat} (hi : i < n) :
    (bit enb i = false → (mergeBytes s k n data enb).getD i 0 = (memGet s.mem (k + i)).toNat) ∧
    (bit enb i = true → s.poison = [] → (mergeBytes s k n data enb).getD i 0 = bits data (8 * i) 8) := by
  refine ⟨fun hb => ?_, fun hb hp => ?_⟩
  · simp [mergeBytes, hi, hb]
  · simp [mergeBytes, hi, hb, hp]

/-- A write leaves alone every byte that it does not enable. -/
theorem writeEnb_disabled {s : State} {k n data enb x : Nat} {p : Bool} (hf : s.codes.flaws = [])
    (h : ∀ j < n, bit enb j = true → x ≠ k + j) : memGet (writeEnb s k n data enb p).mem x = memGet s.mem x := by
  rw [writeEnb_sound hf]
  simp only [putEnb, memGet_memWrite, show (mergeBytes s k n data enb).length = n by simp [mergeBytes]]
  split
  · next hx =>
    have hb : bit enb (x - k) = false := Bool.eq_false_iff.mpr fun hb => h (x - k) (by omega) hb (by omega)
    rw [(getD_mergeBytes s k data enb (by omega)).1 hb, BitVec.ofNat_toNat, BitVec.setWidth_eq, Nat.add_sub_cancel' hx.1]
  · rfl

/-- Where no poison is marked, a write puts its enabled bytes. -/
theorem writeEnb_enabled {s : State} {k n data enb i : Nat} {p : Bool} (hf : s.codes.flaws = []) (hp : s.poison = []) (hi : i < n)
    (hb : bit enb i = true) : (memGet (writeEnb s k n data enb p).mem (k + i)).toNat = bits data (8 * i) 8 := by
  rw [writeEnb_sound hf]
  simp only [putEnb, memGet_memWrite, show (mergeBytes s k n data enb).length = n by simp [mergeBytes]]
  rw [if_pos (by omega), Nat.add_sub_cancel_left, (getD_mergeBytes s k data enb hi).2 hb hp, BitVec.toNat_ofNat]
  exact Nat.mod_eq_of_lt (bits_lt data (8 * i) 8)

/-- A write leaves sound storage sound. -/
theorem writeEnb_flaws {s : State} (hf : s.codes.flaws = []) (k n data enb : Nat) (p : Bool) :
    (writeEnb s k n data enb p).codes.flaws = [] := by
  have fold (l : List Nat) (c : Codes) (hc : c.flaws = []) : (l.foldl (fun c u => c.count (tallyOf u + 1)) c).flaws = [] := by
    induction l generalizing c with
    | nil => exact hc
    | cons u l ih => exact ih _ hc
  rw [writeEnb_sound hf]
  exact fold _ _ (by simp [hf])

/-- Writes of several parts leave alone every byte that none of them enables. -/
theorem foldl_writeEnb_disabled {s : State} {x n : Nat} {p : Bool} (l : List Nat) (k data enb : Nat → Nat) (hf : s.codes.flaws = [])
    (h : ∀ i ∈ l, ∀ j < n, bit (enb i) j = true → x ≠ k i + j) :
    memGet (l.foldl (fun s i => writeEnb s (k i) n (data i) (enb i) p) s).mem x = memGet s.mem x := by
  induction l generalizing s with
  | nil => rfl
  | cons i l ih =>
    rw [List.foldl_cons, ih (writeEnb_flaws hf ..) fun m hm => h m (by simp [hm]), writeEnb_disabled hf (h i (by simp))]

/-! ## A store at its place -/

theorem bit_eq_testBit (x i : Nat) : bit x i = x.testBit i := by
  rw [bit, bits, pow_one, Nat.testBit_eq_decide_div_mod_eq]
  rfl

theorem bit_bits {x lo w j : Nat} (hj : j < w) : bit (bits x lo w) j = bit x (lo + j) := by
  simp [bit_eq_testBit, bits, Nat.testBit_mod_two_pow, Nat.testBit_div_two_pow, hj, Nat.add_comm]

/-- The swizzled view keeps the bytes of an aligned chunk together (R317). -/
theorem viewPlace_chunk {cls place va size i j : Nat} (hc : cls = 8) (hs : swzVa va = true) (hz : size = 128) (ha : va % 128 = 0)
    (hj : j < 8) : viewPlace cls place va size (8 * i) + j = viewPlace cls place va size (8 * i + j) := by
  have hv : 0x800000 ≤ va := by simp [swzVa] at hs; exact hs.1
  unfold viewPlace unswizzle bits
  rw [if_pos ⟨hc, hs, hz⟩, if_pos ⟨hc, hs, hz⟩]
  omega

/-- A scratchpad store leaves alone every byte that it does not enable, in either view (R53, R317). -/
theorem writeView_disabled {s : State} {r : Req} {x : Nat} (hc : r.cls = 8) (hf : s.codes.flaws = [])
    (hs : swzVa r.va = true → r.size = 128 → r.va % 128 = 0)
    (h : ∀ k < r.size, bit r.enb k = true → x ≠ viewPlace r.cls r.place r.va r.size k) :
    memGet (writeView s r).mem x = memGet s.mem x := by
  unfold writeView
  split
  · next hw =>
    obtain ⟨hv, hz⟩ := hw
    refine foldl_writeEnb_disabled _ _ _ _ hf fun i hi j hj hb => ?_
    rw [List.mem_range] at hi
    rw [bit_bits hj] at hb
    rw [viewPlace_chunk hc hv hz (hs hv hz) hj]
    exact h _ (by omega) hb
  · next hw =>
    refine writeEnb_disabled hf fun j hj hb => ?_
    have := h j hj hb
    rwa [viewPlace, if_neg (by tauto)] at this

theorem writeView_enabled {s : State} {r : Req} {k : Nat} (hf : s.codes.flaws = []) (hp : s.poison = []) (hs : swzVa r.va = false)
    (hk : k < r.size) (hb : bit r.enb k = true) : (memGet (writeView s r).mem (r.place + k)).toNat = bits r.data (8 * k) 8 := by
  rw [writeView, if_neg (by simp [hs])]
  exact writeEnb_enabled hf hp hk hb

theorem laterWrite_mem (s : State) (swz : Bool) (w : Nat) : (laterWrite s swz w).mem = s.mem := by
  unfold laterWrite
  dsimp only
  split <;> rfl

/-- What a write may give to loads through the other view changes no byte (R185, R302). -/
theorem ownWrite_mem (s : State) (r : Req) : (ownWrite s r).mem = (writeView s r).mem := by
  have fold (swz : Bool) (l : List Nat) (s : State) : (l.foldl (fun s w => laterWrite s swz w) s).mem = s.mem := by
    induction l generalizing s with
    | nil => rfl
    | cons w l ih => exact (ih _).trans (laterWrite_mem s swz w)
  unfold ownWrite
  dsimp only
  split
  · exact fold _ _ _
  · rfl

theorem commitStore_scratchpad_mem {s : State} {r : Req} (hc : r.cls = 8) : (commitStore s r).mem = (writeView s r).mem := by
  rw [commitStore, if_pos hc]
  split
  · exact ownWrite_mem s r
  · rfl

/-! ## The stages of a commit -/

/-- A commit once its loads and its other effects have taken place. -/
def State.effected (s : State) : State :=
  let i := s.core.iss
  i.effs.foldl (commitOne i.effs) ((loadsOf i.effs).foldl (commitRead i.effs) (cyclePass s false))

/-- What a commit then does to the tile core: its landings begun, one bundle counted, and PC moved. -/
def Tile.settled (t : Tile) (i : Iss) (rgs : List Word) (gtc : Nat) : Tile :=
  let t := { t with flight := t.flight ++ i.lands }.advance
  { t with
    iss := Iss.reset, reqs := (t.reqs.filter (fun r => r.kind != .fetch)).map Req.older,
    fetchRg := if i.effs.any isRgWrite then rgs else [],
    chkWait := if fld t.spr.wchk 0 1 = 1 then 3 else 0,
    spr := { t.spr with tstat := regionBits t.spr i,
                        pc := i.npc.getD (BitVec.ofNat 64 ((t.spr.pc.toNat + 16) % 2 ^ 56)) },
    task := { t.task with regionStart := if i.rb then gtc else t.task.regionStart } }

theorem commit_eq (s : State) :
    commit s = s.core.iss.effs.foldl terminal (s.effected.onCore (·.settled s.core.iss s.core.ranges s.hub.gtc)) := rfl

/-- The commit of one effect that changes nothing after the bundle: no SOFT, HALT, RETIRE or ERET. -/
theorem finish_one {s : State} {e : Eff} (hl : s.core.iss.last = true) (he : s.core.iss.effs = [e]) (ht : ∀ t, terminal t e = t) :
    finish s = (s.effected.onCore (·.settled s.core.iss s.core.ranges s.hub.gtc)).tag .issued := by
  rw [finish, if_pos hl, commit_eq, he, List.foldl_cons, List.foldl_nil, ht]

theorem effected_load {s : State} {r : Req} (he : s.core.iss.effs = [.load r]) : s.effected = commitLoad (cyclePass s false) r := by
  simp [State.effected, he, loadsOf, commitOne, commitEff, commitRead, storeMeets]

theorem effected_store {s : State} {r : Req} (he : s.core.iss.effs = [.store r]) : s.effected = commitStore (cyclePass s false) r := by
  simp [State.effected, he, loadsOf, commitOne, commitEff]

/-- An effect that neither loads nor stores, and changes nothing after its bundle. -/
def Eff.plain (e : Eff) : Bool := match e with | .req _ | .spec _ _ | .lc _ | .rotw _ | .seed _ | .pop => true | _ => false

theorem effected_plain {s : State} {e : Eff} (he : s.core.iss.effs = [e]) (hp : e.plain = true) :
    s.effected = commitEff (cyclePass s false) e := by
  cases e with
  | req r => simp [State.effected, he, loadsOf, commitOne, storeMeets]
  | spec _ _ | lc _ | rotw _ | seed _ | pop => simp [State.effected, he, loadsOf, commitOne]
  | load _ | store _ | softTrap _ | halt | retire | eret => exact absurd hp Bool.false_ne_true

theorem landed_reqs (t : Tile) (x : Landing) : (t.landed x).reqs = t.reqs := by
  have hl : (t.applyLand x.what).reqs = t.reqs := by
    cases x.what with
    | fmt v => exact Tile.onSpr_reqs _ _
    | _ => exact Tile.onRegs_reqs _ _
  unfold Tile.landed
  dsimp only
  split <;> exact hl

theorem advance_reqs (t : Tile) : t.advance.reqs = t.reqs := by
  have fold (l : List Landing) (t : Tile) : (l.foldl (fun t x => if x.live then t.landed x else t) t).reqs = t.reqs := by
    induction l generalizing t with
    | nil => rfl
    | cons x l ih =>
      rw [List.foldl_cons, ih]
      split
      · exact landed_reqs t x
      · rfl
  exact fold _ _

theorem advance_nil {t : Tile} (h : t.flight = []) : t.advance = t := by
  simp only [Tile.advance, h, List.map_nil, List.filter_nil, List.foldl_nil]
  rw [← h]

theorem settled_reqs (t : Tile) (i : Iss) (rgs : List Word) (gtc : Nat) :
    (t.settled i rgs gtc).reqs = (t.reqs.filter (fun r => r.kind != .fetch)).map Req.older := by
  simp [Tile.settled, advance_reqs]

/-- Where nothing is in flight or lands and no region is marked, the end of a commit moves PC and goes over to the next bundle. -/
theorem settled_still {t : Tile} {i : Iss} (rgs : List Word) (gtc : Nat) (hf : t.flight = []) (hl : i.lands = []) (hb : i.rb = false)
    (he : i.re = false) :
    t.settled i rgs gtc =
      { t with
        iss := Iss.reset, reqs := (t.reqs.filter (fun r => r.kind != .fetch)).map Req.older,
        fetchRg := if i.effs.any isRgWrite then rgs else [], chkWait := if fld t.spr.wchk 0 1 = 1 then 3 else 0,
        spr := { t.spr with pc := i.npc.getD (BitVec.ofNat 64 ((t.spr.pc.toNat + 16) % 2 ^ 56)) } } := by
  have ht : ({ t with flight := t.flight ++ i.lands } : Tile).advance = t := by rw [hl, List.append_nil]; exact advance_nil hf
  simp only [Tile.settled, ht, regionBits, hb, he]
  rfl

/-! ## Stores -/

theorem finish_store_mem {s : State} {r : Req} (hl : s.core.iss.last = true) (he : s.core.iss.effs = [.store r]) :
    (finish s).mem = (commitStore (cyclePass s false) r).mem := by
  rw [finish_one hl he fun _ => rfl, effected_store he]
  rfl

theorem finish_store_scratchpad_mem {s : State} {r : Req} (hl : s.core.iss.last = true) (he : s.core.iss.effs = [.store r])
    (hc : r.cls = 8) : (finish s).mem = (writeView (cyclePass s false) r).mem := by
  rw [finish_store_mem hl he, commitStore_scratchpad_mem hc]

theorem finish_store_sent_mem {s : State} {r : Req} (hl : s.core.iss.last = true) (he : s.core.iss.effs = [.store r])
    (hc : r.cls ≠ 8) : (finish s).mem = s.mem := by
  rw [finish_store_mem hl he, commitStore, if_neg hc]
  rfl

theorem finish_store_request {s : State} {r : Req} (hl : s.core.iss.last = true) (he : s.core.iss.effs = [.store r]) (hc : r.cls ≠ 8)
    (hk : r.kind = .st) (hlate : r.late = false) : (finish s).core.reqs.getLast? = some { r with j := r.j + 1 } := by
  rw [finish_one hl he fun _ => rfl, effected_store he, commitStore, if_neg hc]
  have ho : r.older = { r with j := r.j + 1 } := by simp [Req.older, hlate]
  simp [State.tag, Tile.onIss, settled_reqs, hk, ho]

/-! ## The other effects -/

/-- The special registers that an effect writes. -/
def Eff.writes (e : Eff) (n : Nat) : Prop := match e with | .spec i _ => n = i | .lc _ => n = 3 | .rotw _ => n = 5 | _ => False

/-- What the commit of an effect other than a store leaves as it was: storage, the other tiles and dies, the registers, what is in flight,
the units of the tile, the special registers but the written one and those that count or compute, and the random bits (R26, R53). -/
structure Keeps (e : Eff) (s u : State) : Prop where
  mem : u.mem = s.mem
  poison : u.poison = s.poison
  others : u.others = s.others
  mbs : u.mbs = s.mbs
  dies : u.dies = s.dies
  regs : u.core.regs = s.core.regs
  flight : u.core.flight = s.core.flight
  tcq : u.core.tcq = s.core.tcq
  chans : u.core.chans = s.core.chans
  osb : u.core.osb = s.core.osb
  stats : u.core.stats = s.core.stats
  facets : u.core.facets = s.core.facets
  beads : u.core.beads = s.core.beads
  spec : ∀ n, n ≠ 0 → n ≠ 11 → n ≠ 12 → n ≠ 15 → ¬e.writes n → readSpec u n = readSpec s n
  rng : (∀ v, e ≠ .seed v) → e ≠ .pop → u.core.rng = s.core.rng

section
variable {e : Eff} {s t u : State}

theorem Keeps.refl (e : Eff) (s : State) : Keeps e s s := by constructor <;> intros <;> rfl

theorem Keeps.trans (h : Keeps e s t) (k : Keeps e t u) : Keeps e s u where
  mem := k.mem.trans h.mem
  poison := k.poison.trans h.poison
  others := k.others.trans h.others
  mbs := k.mbs.trans h.mbs
  dies := k.dies.trans h.dies
  regs := k.regs.trans h.regs
  flight := k.flight.trans h.flight
  tcq := k.tcq.trans h.tcq
  chans := k.chans.trans h.chans
  osb := k.osb.trans h.osb
  stats := k.stats.trans h.stats
  facets := k.facets.trans h.facets
  beads := k.beads.trans h.beads
  spec n h0 h11 h12 h15 hw := (k.spec n h0 h11 h12 h15 hw).trans (h.spec n h0 h11 h12 h15 hw)
  rng hs hp := (k.rng hs hp).trans (h.rng hs hp)

/-- PC, CYC, GTC and RBQS apart, what MFS reads lies in the tile core's special registers. -/
theorem readSpec_of_spr (h : u.core.spr = { s.core.spr with pc := u.core.spr.pc, cyc := u.core.spr.cyc }) {n : Nat} (h0 : n ≠ 0) (h11 : n ≠ 11)
    (h12 : n ≠ 12) (h15 : n ≠ 15) : readSpec u n = readSpec s n := by
  unfold readSpec
  rw [h]
  split <;> trivial

/-- The special registers that have a number of their own (R25). -/
def namedSpecs : List Nat := [0, 1, 2, 3, 5, 8, 9, 10, 11, 12, 13, 14, 15, 16, 17]

theorem readSpec_indexed (s : State) {n : Nat} (hn : n ∉ namedSpecs) :
    readSpec s n = if 32 ≤ n ∧ n ≤ 39 then s.core.spr.rg.getD (n - 32) 0 else s.core.spr.snap.getD (n - 64) 0 := by
  unfold readSpec
  split
  case h_16 => rfl
  all_goals exact absurd (by decide) hn

theorem writeSpec_snap (t : Tile) (i : Nat) (v : Word) : (writeSpec t i v).spr.snap = t.spr.snap := by
  unfold writeSpec
  dsimp only [Tile.onSpr]
  split
  case h_12 => split <;> rfl
  all_goals rfl

theorem writeSpec_rg_other (t : Tile) {i k : Nat} (v : Word) (hk : i ≠ 32 + k) : (writeSpec t i v).spr.rg.getD k 0 = t.spr.rg.getD k 0 := by
  have hik (h : 32 ≤ i) : i - 32 ≠ k := by omega
  unfold writeSpec
  dsimp only [Tile.onSpr]
  split
  case h_12 =>
    split
    · next h => simp [Vector.getD, hik h.1]
    · rfl
  all_goals rfl

/-- A special register written leaves the others as MFS reads them (R25, R26): one with a number of its own is a field apart, a range
register is an entry apart. -/
theorem readSpec_writeSpec_other (s : State) {i n : Nat} (v : Word) (h : n ≠ i) : readSpec (s.onCore (writeSpec · i v)) n = readSpec s n := by
  by_cases hn : n ∈ namedSpecs
  · unfold writeSpec
    dsimp only
    split
    case h_12 => split <;> fin_cases hn <;> rfl
    all_goals fin_cases hn <;> trivial
  · rw [readSpec_indexed _ hn, readSpec_indexed _ hn, State.onCore_core, writeSpec_snap]
    split
    · rw [writeSpec_rg_other _ _ (by omega)]
    · rfl

theorem cyclePass_keeps (e : Eff) (s : State) (b : Bool) : Keeps e s (cyclePass s b) where
  mem := rfl
  poison := rfl
  others := rfl
  mbs := rfl
  dies := rfl
  regs := rfl
  flight := rfl
  tcq := rfl
  chans := rfl
  osb := rfl
  stats := rfl
  facets := rfl
  beads := rfl
  spec _ h0 h11 h12 h15 _ := by exact readSpec_of_spr (by rfl) h0 h11 h12 h15
  rng _ _ := rfl

theorem onCore_reqs_keeps (e : Eff) (s : State) (l : Tile → List Line) (q : Tile → List Req) :
    Keeps e s (s.onCore (fun t => { t with l1 := l t, reqs := q t })) := by
  constructor <;> intros <;> rfl

theorem reads_keeps (e : Eff) {s : State} {k : Nat} (n : Nat) (hf : s.codes.flaws = []) (hp : hasSlice k = false ∨ s.poison = []) :
    Keeps e s (s.reads k n) := by
  obtain ⟨hm, hq⟩ := s.reads_sound k n hf hp
  constructor
  case spec => exact fun _ h0 h11 h12 h15 _ => readSpec_of_spr (by rw [s.reads_core]) h0 h11 h12 h15
  all_goals simp [hm, hq]

theorem parity_keeps (e : Eff) (s : State) (k : Nat) : Keeps e s (s.parity k) := by
  unfold State.parity
  split <;> constructor <;> intros <;> rfl

theorem viewRead_keeps (e : Eff) (s : State) (r : Req) (v : Nat) : Keeps e s (viewRead s r v).2 := by
  unfold viewRead
  split
  · exact .refl e s
  · refine List.foldlRecOn (motive := fun p : Nat × State => Keeps e s p.2) _ _ (.refl e s) fun p hp i _ => ?_
    dsimp only
    split
    · exact hp
    · exact hp.trans (by constructor <;> intros <;> rfl)

theorem commitLoad_keeps (e : Eff) {s : State} {r : Req} (hf : s.codes.flaws = []) (hp : hasSlice r.place = false ∨ s.poison = []) :
    Keeps e s (commitLoad s r) := by
  have add {u : State} (h : Keeps e s u) (x : Req) : Keeps e s (u.onCore (fun t => { t with reqs := t.reqs ++ [x] })) :=
    h.trans (onCore_reqs_keeps e u Tile.l1 (fun t => t.reqs ++ [x]))
  have hr : Keeps e s (s.reads r.place r.size) := reads_keeps e r.size hf hp
  have hk : Keeps e s ((s.parity (lineKey r.cls r.tgt r.place)).parity (lineKey r.cls r.tgt (r.place + 64))) :=
    (parity_keeps e s _).trans (parity_keeps e _ _)
  unfold commitLoad
  dsimp only
  split
  · exact add (.refl e s) r
  split
  · split
    · exact add (hr.trans (viewRead_keeps e _ r _)) _
    · exact add hr _
  split
  · split <;> split <;> exact add hk _
  · exact add (.refl e s) r

theorem writeSpec_keeps {e : Eff} (s : State) {i : Nat} (v : Word) (he : e.writes i) : Keeps e s (s.onCore (writeSpec · i v)) := by
  constructor
  case spec => exact fun n _ _ _ _ hw => readSpec_writeSpec_other s v fun h => hw (h ▸ he)
  all_goals intros; rfl

theorem commitEff_keeps (s : State) {e : Eff} (hp : e.plain = true) : Keeps e s (commitEff s e) := by
  cases e with
  | req r =>
    exact onCore_reqs_keeps (.req r) s
      (fun t => if r.kind = .amo ∧ r.cls < 3 then t.l1.filter (fun l => l.key != lineKey r.cls r.tgt r.place) else t.l1) (·.reqs ++ [r])
  | spec i v => exact writeSpec_keeps s v rfl
  | lc v => exact writeSpec_keeps (i := 3) s v rfl
  | rotw v => exact writeSpec_keeps (i := 5) s v rfl
  | seed v =>
    constructor
    case spec => intro n h0 h11 h12 h15 _; exact readSpec_of_spr (by rfl) h0 h11 h12 h15
    case rng => exact fun hs _ => absurd rfl (hs v)
    all_goals rfl
  | pop =>
    constructor
    case spec => intro n h0 h11 h12 h15 _; exact readSpec_of_spr (by rfl) h0 h11 h12 h15
    case rng => exact fun _ hp => absurd rfl hp
    all_goals rfl
  | load _ | store _ | softTrap _ | halt | retire | eret => exact absurd hp Bool.false_ne_true

/-- Where nothing lands and no region is marked, the end of a commit changes of what MFS reads only PC. -/
theorem settled_keeps (e : Eff) {s : State} {i : Iss} (rgs : List Word) (gtc : Nat) (g : Tag) (hf : s.core.flight = []) (hl : i.lands = [])
    (hb : i.rb = false) (he : i.re = false) : Keeps e s ((s.onCore (·.settled i rgs gtc)).tag g) := by
  simp only [State.onCore, settled_still rgs gtc hf hl hb he]
  constructor
  case spec => intro n h0 h11 h12 h15 _; exact readSpec_of_spr (by rfl) h0 h11 h12 h15
  all_goals intros; rfl

theorem finish_keeps (hl : s.core.iss.last = true) (he : s.core.iss.effs = [e]) (hlands : s.core.iss.lands = [])
    (hflight : s.core.flight = []) (hrb : s.core.iss.rb = false) (hre : s.core.iss.re = false) (ht : ∀ t, terminal t e = t)
    (h : Keeps e (cyclePass s false) s.effected) : Keeps e s (finish s) := by
  rw [finish_one hl he ht]
  have h := (cyclePass_keeps e s false).trans h
  exact h.trans (settled_keeps e _ _ _ (h.flight.trans hflight) hlands hrb hre)

end

/-- Settles O57: a scratchpad store changes the bytes that it enables and no other, any other store is sent, and an effect that neither stores
nor ends the bundle's program keeps what Keeps lists. -/
theorem commitEffects : Obligations.CommitEffects := by
  refine ⟨fun s r hl he => ⟨fun hc hf hs a ha => ?_, fun hc hf hp hs k hk hb => ?_, fun hc => ?_⟩,
    fun s e hl he hlands hflight hrb hre hplain => ?_⟩
  · rw [finish_store_scratchpad_mem hl he hc]
    exact writeView_disabled hc hf hs ha
  · rw [finish_store_scratchpad_mem hl he hc]
    exact writeView_enabled hf hp hs hk hb
  · exact ⟨finish_store_sent_mem hl he hc, finish_store_request hl he hc⟩
  have hk : Keeps e s (finish s) := by
    cases e with
    | load r =>
      refine finish_keeps hl he hlands hflight hrb hre (fun _ => rfl) ?_
      rw [effected_load he]
      exact commitLoad_keeps _ hplain.1 hplain.2
    | req _ | spec _ _ | lc _ | rotw _ | seed _ | pop =>
      refine finish_keeps hl he hlands hflight hrb hre (fun _ => rfl) ?_
      rw [effected_plain he rfl]
      exact commitEff_keeps _ rfl
    | store _ | softTrap _ | halt | retire | eret => exact hplain.elim
  exact ⟨hk.mem, hk.poison, hk.others, hk.mbs, hk.dies, hk.regs, hk.tcq, hk.chans, hk.osb, hk.stats, hk.facets, hk.beads,
    fun n h0 h11 h12 h15 hw => hk.spec n h0 h11 h12 h15 fun h => hw (by cases e <;> exact h), hk.rng⟩

end Sys2Proof.Machine
end

section
/-! SUPPORT. The counter-based generator on 64-bit counters, and the fields of a packed value (R7, R45, R81, R82). -/

namespace Sys2Proof.Machine

/-! ## Packed fields -/

theorem packFields_succ (w : Nat) (f : Nat → Nat) (n : Nat) :
    packFields w f (n + 1) = packFields w f n + (f n % 2 ^ w) * 2 ^ (w * n) := by
  simp [packFields, List.range_succ]

theorem packFields_lt (w : Nat) (f : Nat → Nat) (n : Nat) : packFields w f n < 2 ^ (w * n) := by
  induction n with
  | zero => simp [packFields]
  | succ n ih =>
    have hf : f n % 2 ^ w + 1 ≤ 2 ^ w := Nat.mod_lt _ (Nat.two_pow_pos w)
    calc packFields w f (n + 1)
        < 2 ^ (w * n) + (f n % 2 ^ w) * 2 ^ (w * n) := by rw [packFields_succ]; omega
      _ = (f n % 2 ^ w + 1) * 2 ^ (w * n) := by ring
      _ ≤ 2 ^ w * 2 ^ (w * n) := Nat.mul_le_mul_right _ hf
      _ = 2 ^ (w * (n + 1)) := by ring

/-- Field i of a packed value. -/
theorem bits_packFields (w : Nat) (f : Nat → Nat) {n i : Nat} (hi : i < n) : bits (packFields w f n) (w * i) w = f i % 2 ^ w := by
  induction n with
  | zero => omega
  | succ n ih =>
    rw [packFields_succ]
    rcases Nat.lt_succ_iff_lt_or_eq.mp hi with h | rfl
    · obtain ⟨k, rfl⟩ : ∃ k, n = i + 1 + k := ⟨n - (i + 1), by omega⟩
      have hsplit : f (i + 1 + k) % 2 ^ w * 2 ^ (w * (i + 1 + k)) = 2 ^ (w * i) * (2 ^ w * (f (i + 1 + k) % 2 ^ w * 2 ^ (w * k))) := by ring
      rw [← ih h, bits, bits, hsplit, Nat.add_mul_div_left _ _ (Nat.two_pow_pos _), Nat.add_mul_mod_self_left]
    · rw [bits, Nat.add_mul_div_right _ _ (Nat.two_pow_pos _), Nat.div_eq_of_lt (packFields_lt w f i), Nat.zero_add, Nat.mod_mod]

/-- Lane i of a vector register packed from lanes of width w. -/
theorem lane_packFields (w : Nat) (f : Nat → Nat) {n i : Nat} (hn : w * n ≤ 1024) (hi : i < n) :
    lane (BitVec.ofNat 1024 (packFields w f n)) i w = f i % 2 ^ w := by
  rw [lane, BitVec.toNat_ofNat, Nat.mod_eq_of_lt ((packFields_lt w f n).trans_le (Nat.pow_le_pow_right (by omega) hn)), bits_packFields w f hi]

/-! ## The rounds of mix64 -/

/-- The 64-bit words, as a set of natural numbers. -/
def words64 : Set Nat := ↑(Finset.range (2 ^ 64))

theorem mem_words64 {x : Nat} : x ∈ words64 ↔ x < 2 ^ 64 := by simp [words64]

theorem words64_mod (x : Nat) : x % 18446744073709551616 ∈ words64 := mem_words64.2 (Nat.mod_lt _ (by norm_num))

/-- A round maps words to words without collisions; on a finite set that makes it a bijection. -/
def Round (f : Nat → Nat) : Prop := Set.MapsTo f words64 words64 ∧ Set.InjOn f words64

theorem Round.bijOn {f : Nat → Nat} (h : Round f) : Set.BijOn f words64 words64 :=
  ⟨h.1, h.2, Finset.surjOn_of_injOn_of_card_le f h.1 h.2 le_rfl⟩

theorem Round.comp {f g : Nat → Nat} (hg : Round g) (hf : Round f) : Round (fun x => g (f x)) :=
  ⟨hg.1.comp hf.1, hg.2.comp hf.2 hf.1⟩

/-- A value that its own shift leaves as it is has no bits, so a word and its shift combine without loss. -/
theorem round_xorshift {d : Nat} (hd : 1 < d) {k : Nat} (hk : d = 2 ^ k) : Round (fun x => x ^^^ (x / d)) := by
  refine ⟨fun x hx => ?_, fun x _ y _ (h : x ^^^ (x / d) = y ^^^ (y / d)) => ?_⟩
  · rw [mem_words64] at hx ⊢
    exact Nat.xor_lt_two_pow hx ((Nat.div_le_self _ _).trans_lt hx)
  · have hz : x ^^^ y = (x ^^^ y) / d := by
      rw [hk, ← Nat.shiftRight_eq_div_pow, Nat.shiftRight_xor_distrib, Nat.shiftRight_eq_div_pow, Nat.shiftRight_eq_div_pow, ← hk,
        ← Nat.xor_eq_zero_iff, ← Nat.xor_eq_zero_iff.mpr h]
      ac_rfl
    by_contra hne
    have hpos : 0 < x ^^^ y := Nat.pos_of_ne_zero fun h0 => hne (Nat.xor_eq_zero_iff.1 h0)
    have := Nat.div_lt_self hpos hd
    omega

/-- An odd factor is invertible modulo 2^64. -/
theorem round_mul {c : Nat} (hc : Nat.gcd 18446744073709551616 c = 1) : Round (fun x => x * c % 18446744073709551616) := by
  refine ⟨fun x _ => words64_mod _, fun x hx y hy h => ?_⟩
  rw [mem_words64] at hx hy
  have := Nat.ModEq.cancel_right_of_coprime hc (show x * c ≡ y * c [MOD _] from h)
  exact this.eq_of_lt_of_lt hx hy

theorem round_xor {r : Nat} (hr : r < 2 ^ 64) : Round (fun x => x ^^^ r) :=
  ⟨fun _ hx => mem_words64.2 (Nat.xor_lt_two_pow (mem_words64.1 hx) hr), fun _ _ _ _ h => Nat.xor_left_inj.1 h⟩

/-- The generator goes through the rounds of R81: the key, two multiplications each after a shift, the turned key between them, a last
shift. -/
theorem round_mix64 (key : Nat) : Round (mix64 key) := by
  have hkey := Nat.mod_lt key (show 0 < 18446744073709551616 by norm_num)
  have hturn : key % 18446744073709551616 / 4294967296 + key % 18446744073709551616 % 4294967296 * 4294967296 < 2 ^ 64 := by omega
  have h1 := (round_xor hkey).comp (round_mul (c := 0x9E3779B97F4A7C15) (by norm_num))
  have h2 := (round_mul (c := 0xBF58476D1CE4E5B9) (by norm_num)).comp (round_xorshift (d := 1073741824) (k := 30) (by norm_num) (by norm_num))
  have h3 := (round_mul (c := 0x94D049BB133111EB) (by norm_num)).comp (round_xorshift (d := 134217728) (k := 27) (by norm_num) (by norm_num))
  have h4 := (round_xorshift (d := 2147483648) (k := 31) (by norm_num) (by norm_num)).comp (h3.comp ((round_xor hturn).comp (h2.comp h1)))
  have heq : mix64 key = fun x => _ := funext fun x => by rw [mix64, Nat.xor_comm (key % 18446744073709551616)]
  rw [heq]
  exact h4

/-- The generator reads its counter modulo 2^64. -/
theorem mix64_mod (key ctr : Nat) : mix64 key (ctr % 18446744073709551616) = mix64 key ctr := by
  simp only [mix64, Nat.mod_mul_mod]

theorem mix64_lt (key ctr : Nat) : mix64 key ctr < 2 ^ 64 := by
  rw [← mix64_mod]
  exact mem_words64.1 ((round_mix64 key).1 (words64_mod ctr))

/-- Settles O51: every round of mix64 is a bijection of the 64-bit words. -/
theorem mixBijection : Obligations.MixBijection := by
  refine ⟨fun key a b ha hb h => ?_, fun key y hy => ?_, by decide, fun seed g w hw => ?_⟩
  · exact (round_mix64 key).2 (mem_words64.2 ha) (mem_words64.2 hb) h
  · obtain ⟨a, ha, hay⟩ := (round_mix64 key).bijOn.surjOn (mem_words64.2 hy)
    exact ⟨a, mem_words64.1 ha, hay⟩
  · rw [rngEntry, lane_packFields 64 _ (by norm_num) hw]
    exact Nat.mod_eq_of_lt (mix64_lt _ _)

end Sys2Proof.Machine
end

section
/-! SUPPORT. What one result in flight changes when it lands, and the results that a bundle's commit makes land (R51, R100). -/

namespace Sys2Proof.Machine

/-! ## Register files -/

theorem getD_setIfInBounds {α : Type} {n : Nat} (v : Vector α n) (i j : Nat) (x d : α) :
    (v.setIfInBounds i x).getD j d = if i = j ∧ i < n then x else v.getD j d := by
  simp [Vector.getD]
  grind

theorem mem_insertNat {n x : Nat} {l : List Nat} : n ∈ insertNat x l ↔ n = x ∨ n ∈ l := by
  induction l with
  | nil => simp [insertNat]
  | cons y ys ih => grind [insertNat]

theorem mem_foldl_insertNat {n : Nat} (ks l : List Nat) : n ∈ ks.foldl (fun l k => insertNat k l) l ↔ n ∈ ks ∨ n ∈ l := by
  induction ks generalizing l with
  | nil => simp
  | cons k ks ih => simp only [List.foldl_cons, ih, mem_insertNat, List.mem_cons]; tauto

/-- A mark changes the poison of the registers that it names, and of no other (R328). -/
theorem mem_mark (t : Tile) (ks : List Nat) (bad : Bool) (n : Nat) :
    n ∈ (t.mark ks bad).regs.pois ↔ if n ∈ ks then bad = true else n ∈ t.regs.pois := by
  cases bad with
  | false => simp [Tile.mark, Tile.onRegs, and_comm]
  | true =>
    simp only [Tile.mark, Tile.onRegs, if_true, mem_foldl_insertNat]
    split <;> simp [*]

theorem mem_setV_pois (r : Regs) (p n : Nat) (v : VWord) : n ∈ (r.setV p v).pois ↔ n ∈ r.pois ∧ n ≠ 64 + p := by simp [Regs.setV]

/-- Vector registers written in turn: only the vector file and its marks of poison change. -/
theorem foldl_setV (l : List (Nat × VWord)) (r : Regs) :
    l.foldl (fun r p => r.setV p.1 p.2) r =
      { r with v := (l.foldl (fun r p => r.setV p.1 p.2) r).v, pois := (l.foldl (fun r p => r.setV p.1 p.2) r).pois } := by
  induction l generalizing r with
  | nil => rfl
  | cons p l ih => exact ih _

theorem foldl_setV_other {n : Nat} (l : List (Nat × VWord)) (r : Regs) (h : ∀ p ∈ l, p.1 ≠ n) :
    (l.foldl (fun r p => r.setV p.1 p.2) r).v.getD n 0 = r.v.getD n 0 := by
  induction l generalizing r with
  | nil => rfl
  | cons p l ih =>
    have hp := h p List.mem_cons_self
    exact (ih _ fun q hq => h q (List.mem_cons_of_mem _ hq)).trans (by simp [Regs.setV, getD_setIfInBounds, hp])

theorem foldl_setV_pois {n : Nat} (l : List (Nat × VWord)) (r : Regs) (h : ∀ p ∈ l, n ≠ 64 + p.1) :
    n ∈ (l.foldl (fun r p => r.setV p.1 p.2) r).pois ↔ n ∈ r.pois := by
  induction l generalizing r with
  | nil => exact .rfl
  | cons p l ih =>
    have hp := h p List.mem_cons_self
    exact (ih _ fun q hq => h q (List.mem_cons_of_mem _ hq)).trans (by simp [mem_setV_pois, hp])

/-- Of vector registers written in turn, different ones, each holds its value afterwards. -/
theorem foldl_setV_zip {ns : List Nat} {vs : List VWord} {k n : Nat} {v : VWord} (hd : ns.Nodup) (hn : ns[k]? = some n) (hv : vs[k]? = some v)
    (h64 : n < 64) (r : Regs) : ((ns.zip vs).foldl (fun r p => r.setV p.1 p.2) r).v.getD n 0 = v := by
  induction ns generalizing vs k r with
  | nil => simp at hn
  | cons m ns ih =>
    obtain ⟨hm, hd⟩ := List.nodup_cons.1 hd
    cases vs with
    | nil => simp at hv
    | cons w vs =>
      cases k with
      | zero =>
        obtain rfl : m = n := by simpa using hn
        obtain rfl : w = v := by simpa using hv
        rw [List.zip_cons_cons, List.foldl_cons,
          foldl_setV_other _ _ fun p hp (h : p.1 = m) => hm (h ▸ (List.of_mem_zip hp).1)]
        simp [Regs.setV, getD_setIfInBounds, h64]
      | succ k => exact ih hd (by simpa using hn) (by simpa using hv) _

/-! ## Parts of a vector register -/

theorem testBit_lane (v : VWord) (i w j : Nat) : (lane v i w).testBit j = (decide (j < w) && v.getLsbD (w * i + j)) := by
  rw [lane, bits, Nat.testBit_mod_two_pow, Nat.testBit_div_two_pow, Nat.add_comm j]
  rfl

/-- The enable word of a vector value, bit by bit: bit k stands for bytes 2k and 2k + 1 (R400). -/
theorem getLsbD_enBits {en : Word} {b j : Nat} (hb : b < 128) (hj : j < 8) : (enBits en).getLsbD (8 * b + j) = bit en.toNat (b / 2) := by
  have hl := testBit_lane (enBits en) (b / 2) 16 (8 * (b % 2) + j)
  rw [enBits, lane_packFields 16 _ (by norm_num) (by omega), show 16 * (b / 2) + (8 * (b % 2) + j) = 8 * b + j by omega] at hl
  rw [enBits]
  have h16 : 8 * (b % 2) + j < 16 := by omega
  rw [decide_eq_true h16, Bool.true_and] at hl
  rw [← hl]
  split
  · next h => rw [h, show 65535 % 2 ^ 16 = 2 ^ 16 - 1 by norm_num, Nat.testBit_two_pow_sub_one, decide_eq_true h16]
  · next h => simpa using h

theorem bit_allOnes {k : Nat} (hk : k < 64) : bit (BitVec.allOnes 64).toNat k = true := by
  rw [bit_eq_testBit, BitVec.toNat_allOnes, Nat.testBit_two_pow_sub_one, decide_eq_true hk]

/-- The enabled bytes of a merge are those of the new value, the others those of the old one (R114, R400). -/
theorem lane_mergeV (old : VWord) (en : Word) (v : VWord) {b : Nat} (hb : b < 128) :
    lane (mergeV old en v) b 8 = if bit en.toNat (b / 2) then lane v b 8 else lane old b 8 := by
  unfold mergeV
  split
  · next h => rw [h, bit_allOnes (by omega), if_pos rfl]
  · refine Nat.eq_of_testBit_eq fun j => ?_
    rw [testBit_lane]
    by_cases hj : j < 8
    · have he := getLsbD_enBits (en := en) hb hj
      have hlt : 8 * b + j < 1024 := by omega
      simp only [BitVec.getLsbD_or, BitVec.getLsbD_and, BitVec.getLsbD_not, he, hlt]
      split <;> simp [testBit_lane, *]
    · split <;> simp [testBit_lane, hj]

theorem mergeV_allOnes (old v : VWord) : mergeV old (BitVec.allOnes 64) v = v := if_pos rfl

/-! ## Accumulators -/

theorem getD_setAccRows (a : Vector (BitVec 32) 512) (n rows : Nat) (vs : List (BitVec 32)) {i : Nat} (hi : i < 512) :
    (setAccRows a n rows vs).getD i 0 = if i / 64 = n ∧ bit rows (i % 64 / 8) = true then vs.getD (i % 64) 0 else a.getD i 0 := by
  have key (m : Nat) (hm : m ≤ 64) :
      ((List.range m).foldl (fun a i => if bit rows (i / 8) then a.setIfInBounds (64 * n + i) (vs.getD i 0) else a) a).getD i 0 =
        if i / 64 = n ∧ i % 64 < m ∧ bit rows (i % 64 / 8) = true then vs.getD (i % 64) 0 else a.getD i 0 := by
    induction m with
    | zero => simp
    | succ m ih =>
      rw [List.range_succ, List.foldl_append, List.foldl_cons, List.foldl_nil]
      have hplace : 64 * n + m = i ↔ i / 64 = n ∧ i % 64 = m := by omega
      by_cases h : i / 64 = n ∧ i % 64 = m
      · have hsum := hplace.2 h
        obtain ⟨hn, hm'⟩ := h
        split
        · next hb => rw [getD_setIfInBounds, if_pos ⟨hsum, by omega⟩, if_pos ⟨hn, by omega, by rw [hm']; exact hb⟩, hm']
        · next hb => rw [ih (by omega), if_neg (by omega), if_neg (by rw [hm']; tauto)]
      · have hlt : i / 64 = n → (i % 64 < m + 1 ↔ i % 64 < m) := by omega
        have hne : 64 * n + m ≠ i := fun hs => h (hplace.1 hs)
        have hstep : (if i / 64 = n ∧ i % 64 < m + 1 ∧ bit rows (i % 64 / 8) = true then vs.getD (i % 64) 0 else a.getD i 0) =
            if i / 64 = n ∧ i % 64 < m ∧ bit rows (i % 64 / 8) = true then vs.getD (i % 64) 0 else a.getD i 0 :=
          if_congr (and_congr_right fun hn => and_congr_left fun _ => hlt hn) rfl rfl
        rw [hstep, ← ih (by omega)]
        split
        · rw [getD_setIfInBounds, if_neg fun h => hne h.1]
        · rfl
  exact (key 64 le_rfl).trans (if_congr (and_congr_right fun _ => ⟨fun h => h.2, fun h => ⟨Nat.mod_lt _ (by norm_num), h⟩⟩) rfl rfl)

/-! ## One result -/

/-- The vector registers that a landing writes. -/
def Land.names (w : Land) (n : Nat) : Prop :=
  match w with
  | .vec k _ _ => k = n
  | .pair a b _ _ => a = n ∨ b = n
  | .octet ns _ => n ∈ ns
  | _ => False

/-- Landing with its poison changes what the result writes, and marks of poison. -/
theorem landed_eq (t : Tile) (x : Landing) : ∃ ps, t.landed x = (t.applyLand x.what).onRegs (fun r => { r with pois := ps }) := by
  unfold Tile.landed
  dsimp only
  split
  · exact ⟨_, rfl⟩
  · exact ⟨(t.applyLand x.what).regs.pois, rfl⟩

/-- A projection of the tile that reads no mark of poison finds what the result wrote. -/
theorem landed_proj {α : Type} (π : Tile → α) (hπ : ∀ t ps, π (t.onRegs (fun r => { r with pois := ps })) = π t) (t : Tile) (x : Landing) :
    π (t.landed x) = π (t.applyLand x.what) := by
  obtain ⟨ps, h⟩ := landed_eq t x
  rw [h, hπ]

/-- The register files once a landing has written its own: v' is the vector file afterwards, ps the marks of poison. -/
def Land.into (w : Land) (r : Regs) (v' : Vector VWord 64) (ps : List Nat) : Regs :=
  match w with
  | .sreg n v => { r with s := if n = 0 then r.s else r.s.setIfInBounds n v, pois := ps }
  | .pred n v => { r with q := if n = 0 then r.q else r.q.setIfInBounds n v, pois := ps }
  | .mask n en v => { r with m := r.m.setIfInBounds n ((r.m.getD n 0 &&& ~~~en) ||| (v &&& en)), pois := ps }
  | .vec _ _ _ | .pair _ _ _ _ | .octet _ _ => { r with v := v', pois := ps }
  | .acc n rows vs _ => { r with acc := setAccRows r.acc n rows vs, pois := ps }
  | .fmt _ => { r with pois := ps }
  | .twinS v => { r with twinS := v, pois := ps }
  | .twinV en v => { r with twinV := mergeV r.twinV en v, pois := ps }
  | .twinM en v => { r with twinV := ((r.twinV.setWidth 64 &&& ~~~en) ||| (v &&& en)).setWidth 1024, pois := ps }

/-- FMT once a landing has written it. -/
def Land.intoFmt (w : Land) (old : Word) : Word := match w with | .fmt v => v | _ => old

theorem applyLand_eq (t : Tile) (w : Land) :
    ∃ v' ps, t.applyLand w = { t with regs := w.into t.regs v' ps, spr := { t.spr with fmt := w.intoFmt t.spr.fmt } } := by
  cases w with
  | sreg n v =>
    refine ⟨t.regs.v, (t.regs.setS n v).pois, ?_⟩
    by_cases h : n = 0 <;> simp [Tile.applyLand, Tile.onRegs, Regs.setS, Land.into, Land.intoFmt, h]
  | pred n v =>
    refine ⟨t.regs.v, t.regs.pois, ?_⟩
    by_cases h : n = 0 <;> simp [Tile.applyLand, Tile.onRegs, Regs.setQ, Land.into, Land.intoFmt, h]
  | vec n en v =>
    by_cases h : en = BitVec.allOnes 64
    · exact ⟨_, _, by rw [Tile.applyLand, Tile.onRegs, if_pos h]; rfl⟩
    · exact ⟨_, _, by rw [Tile.applyLand, Tile.onRegs, if_neg h]; rfl⟩
  | octet ns vs => exact ⟨_, _, congrArg (fun r => { t with regs := r }) (foldl_setV (ns.zip vs) t.regs)⟩
  | pair _ _ _ _ => exact ⟨_, _, rfl⟩
  | mask _ _ _ | acc _ _ _ _ | fmt _ | twinS _ | twinV _ _ | twinM _ _ => exact ⟨t.regs.v, t.regs.pois, rfl⟩

/-- A landing writes its own register file, or FMT, and changes nothing else of the tile but marks of poison. -/
theorem landed_writes (t : Tile) (x : Landing) :
    ∃ v' ps, t.landed x = { t with regs := x.what.into t.regs v' ps, spr := { t.spr with fmt := x.what.intoFmt t.spr.fmt } } := by
  obtain ⟨ps, h⟩ := landed_eq t x
  obtain ⟨v', qs, ha⟩ := applyLand_eq t x.what
  refine ⟨v', ps, ?_⟩
  rw [h, ha]
  cases x.what <;> simp only [Tile.onRegs, Land.into, Land.intoFmt]

theorem Land.into_accU (w : Land) (r : Regs) (v' : Vector VWord 64) (ps : List Nat) : (w.into r v' ps).accU = r.accU := by
  cases w <;> simp only [Land.into]

section
variable (t : Tile) (x : Landing)

theorem landed_regs : ∃ v' ps, (t.landed x).regs = x.what.into t.regs v' ps := by
  obtain ⟨v', ps, h⟩ := landed_writes t x
  exact ⟨v', ps, by rw [h]⟩

theorem landed_fmt_other (h : ∀ v, x.what ≠ .fmt v) : (t.landed x).spr.fmt = t.spr.fmt := by
  obtain ⟨v', ps, hl⟩ := landed_writes t x
  rw [hl]
  cases hw : x.what with
  | fmt v => exact absurd hw (h v)
  | _ => rfl

theorem landed_fmt {v : Word} (h : x.what = .fmt v) : (t.landed x).spr.fmt = v := by
  obtain ⟨v', ps, hl⟩ := landed_writes t x
  rw [hl, h]
  rfl

theorem landed_s_other {n : Nat} (h : ∀ v, x.what ≠ .sreg n v) : (t.landed x).regs.s.getD n 0 = t.regs.s.getD n 0 := by
  obtain ⟨v', ps, hr⟩ := landed_regs t x
  rw [hr]
  cases hw : x.what with
  | sreg k v =>
    have hk : k ≠ n := fun e => h v (e ▸ hw)
    simp only [Land.into]
    split
    · rfl
    · simp [getD_setIfInBounds, hk]
  | _ => simp only [Land.into]

theorem landed_s {n : Nat} {v : Word} (h0 : 0 < n) (hn : n < 64) (h : x.what = .sreg n v) : (t.landed x).regs.s.getD n 0 = v := by
  obtain ⟨v', ps, hr⟩ := landed_regs t x
  simp [hr, h, Land.into, Nat.ne_of_gt h0, getD_setIfInBounds, hn]

theorem landed_q_other {n : Nat} (h : ∀ v, x.what ≠ .pred n v) : (t.landed x).regs.q.getD n false = t.regs.q.getD n false := by
  obtain ⟨v', ps, hr⟩ := landed_regs t x
  rw [hr]
  cases hw : x.what with
  | pred k v =>
    have hk : k ≠ n := fun e => h v (e ▸ hw)
    simp only [Land.into]
    split
    · rfl
    · simp [getD_setIfInBounds, hk]
  | _ => simp only [Land.into]

theorem landed_q {n : Nat} {v : Bool} (h0 : 0 < n) (hn : n < 16) (h : x.what = .pred n v) : (t.landed x).regs.q.getD n false = v := by
  obtain ⟨v', ps, hr⟩ := landed_regs t x
  simp [hr, h, Land.into, Nat.ne_of_gt h0, getD_setIfInBounds, hn]

theorem landed_m_other {n : Nat} (h : ∀ e v, x.what ≠ .mask n e v) : (t.landed x).regs.m.getD n 0 = t.regs.m.getD n 0 := by
  obtain ⟨v', ps, hr⟩ := landed_regs t x
  rw [hr]
  cases hw : x.what with
  | mask k e v =>
    have hk : k ≠ n := fun he => h e v (he ▸ hw)
    simp [Land.into, getD_setIfInBounds, hk]
  | _ => simp only [Land.into]

theorem landed_m {n : Nat} {en v : Word} (hn : n < 8) (h : x.what = .mask n en v) :
    (t.landed x).regs.m.getD n 0 = (t.regs.m.getD n 0 &&& ~~~en) ||| (v &&& en) := by
  obtain ⟨v', ps, hr⟩ := landed_regs t x
  simp [hr, h, Land.into, getD_setIfInBounds, hn]

theorem landed_acc_other (h : ∀ n r v k, x.what ≠ .acc n r v k) : (t.landed x).regs.acc = t.regs.acc := by
  obtain ⟨v', ps, hr⟩ := landed_regs t x
  rw [hr]
  cases hw : x.what with
  | acc n r v k => exact absurd hw (h n r v k)
  | _ => simp only [Land.into]

theorem landed_acc {n rows k : Nat} {vs : List (BitVec 32)} (h : x.what = .acc n rows vs k) :
    (t.landed x).regs.acc = setAccRows t.regs.acc n rows vs := by
  obtain ⟨v', ps, hr⟩ := landed_regs t x
  rw [hr, h, Land.into]

theorem landed_twinS_other (h : ∀ v, x.what ≠ .twinS v) : (t.landed x).regs.twinS = t.regs.twinS := by
  obtain ⟨v', ps, hr⟩ := landed_regs t x
  rw [hr]
  cases hw : x.what with
  | twinS v => exact absurd hw (h v)
  | _ => simp only [Land.into]

theorem landed_twinS {v : Word} (h : x.what = .twinS v) : (t.landed x).regs.twinS = v := by
  obtain ⟨v', ps, hr⟩ := landed_regs t x
  rw [hr, h, Land.into]

theorem landed_twinV_other (hv : ∀ e v, x.what ≠ .twinV e v) (hm : ∀ e v, x.what ≠ .twinM e v) : (t.landed x).regs.twinV = t.regs.twinV := by
  obtain ⟨v', ps, hr⟩ := landed_regs t x
  rw [hr]
  cases hw : x.what with
  | twinV e v => exact absurd hw (hv e v)
  | twinM e v => exact absurd hw (hm e v)
  | _ => simp only [Land.into]

theorem landed_twinV {en : Word} {v : VWord} (h : x.what = .twinV en v) : (t.landed x).regs.twinV = mergeV t.regs.twinV en v := by
  obtain ⟨v', ps, hr⟩ := landed_regs t x
  rw [hr, h, Land.into]

theorem landed_twinM {en v : Word} (h : x.what = .twinM en v) {b : Nat} (hb : b < 64) :
    (t.landed x).regs.twinV.getLsbD b = if en.getLsbD b then v.getLsbD b else t.regs.twinV.getLsbD b := by
  obtain ⟨v', ps, hr⟩ := landed_regs t x
  have h1024 : b < 1024 := by omega
  rw [hr, h, Land.into]
  simp only [BitVec.getLsbD_setWidth, BitVec.getLsbD_or, BitVec.getLsbD_and, BitVec.getLsbD_not, hb, h1024]
  cases en.getLsbD b <;> simp

theorem landed_v_other {n : Nat} (h : ¬x.what.names n) : (t.landed x).regs.v.getD n 0 = t.regs.v.getD n 0 := by
  rw [landed_proj (·.regs.v.getD n 0) fun _ _ => rfl]
  cases hw : x.what with
  | vec k en v =>
    have hk : k ≠ n := by simpa [hw, Land.names] using h
    simp only [Tile.applyLand, Tile.onRegs]
    split <;> simp [Regs.setV, Regs.setPart, getD_setIfInBounds, hk]
  | pair a b v w =>
    have hk : a ≠ n ∧ b ≠ n := by simpa [hw, Land.names] using h
    simp [Tile.applyLand, Tile.onRegs, Regs.setV, getD_setIfInBounds, hk]
  | octet ns vs =>
    have hk : n ∉ ns := by simpa [hw, Land.names] using h
    exact foldl_setV_other (ns.zip vs) t.regs fun p hp (e : p.1 = n) => hk (e ▸ (List.of_mem_zip hp).1)
  | sreg k v => by_cases hk : k = 0 <;> simp [Tile.applyLand, Tile.onRegs, Regs.setS, hk]
  | pred k v => by_cases hk : k = 0 <;> simp [Tile.applyLand, Tile.onRegs, Regs.setQ, hk]
  | mask _ _ _ | acc _ _ _ _ | fmt _ | twinS _ | twinV _ _ | twinM _ _ => simp only [Tile.applyLand, Tile.onRegs, Tile.onSpr]

theorem landed_vec {n : Nat} {en : Word} {v : VWord} (hn : n < 64) (h : x.what = .vec n en v) :
    (t.landed x).regs.v.getD n 0 = mergeV (t.regs.v.getD n 0) en v := by
  rw [landed_proj (·.regs.v.getD n 0) fun _ _ => rfl, h]
  simp only [Tile.applyLand, Tile.onRegs]
  split
  · next he => rw [he, mergeV_allOnes, Regs.setV, getD_setIfInBounds, if_pos ⟨rfl, hn⟩]
  · simp [Regs.setPart, getD_setIfInBounds, hn]

theorem landed_pair {a b : Nat} {v w : VWord} (ha : a < 64) (hb : b < 64) (hab : a ≠ b) (h : x.what = .pair a b v w) :
    (t.landed x).regs.v.getD a 0 = v ∧ (t.landed x).regs.v.getD b 0 = w := by
  constructor
  · rw [landed_proj (·.regs.v.getD a 0) fun _ _ => rfl, h]
    simp [Tile.applyLand, Tile.onRegs, Regs.setV, getD_setIfInBounds, ha, hab.symm]
  · rw [landed_proj (·.regs.v.getD b 0) fun _ _ => rfl, h]
    simp [Tile.applyLand, Tile.onRegs, Regs.setV, getD_setIfInBounds, hb]

theorem landed_octet {ns : List Nat} {vs : List VWord} {k n : Nat} {v : VWord} (hd : ns.Nodup) (hk : ns[k]? = some n) (hv : vs[k]? = some v)
    (hn : n < 64) (h : x.what = .octet ns vs) : (t.landed x).regs.v.getD n 0 = v := by
  rw [landed_proj (·.regs.v.getD n 0) fun _ _ => rfl, h]
  exact foldl_setV_zip hd hk hv hn t.regs

/-! ## Its poison -/

/-- A register that a result does not write keeps its mark of poison. -/
theorem landed_pois_other {n : Nat} (h : n ∉ x.what.keys.1) : n ∈ (t.landed x).regs.pois ↔ n ∈ t.regs.pois := by
  have ha : n ∈ (t.applyLand x.what).regs.pois ↔ n ∈ t.regs.pois := by
    cases hw : x.what with
    | sreg k v =>
      by_cases hk : k = 0
      · simp [Tile.applyLand, Tile.onRegs, Regs.setS, hk]
      · have hn : n ≠ k := by simpa [hw, Land.keys, hk] using h
        simp [Tile.applyLand, Tile.onRegs, Regs.setS, hk, hn]
    | pred k v => by_cases hk : k = 0 <;> simp [Tile.applyLand, Tile.onRegs, Regs.setQ, hk]
    | vec k en v =>
      have hn : n ≠ 64 + k := by simpa [hw, Land.keys] using h
      simp only [Tile.applyLand, Tile.onRegs]
      split <;> simp [mem_setV_pois, Regs.setPart, hn]
    | pair a b v w =>
      have hn : n ≠ 64 + a ∧ n ≠ 64 + b := by simpa [hw, Land.keys] using h
      simp [Tile.applyLand, Tile.onRegs, mem_setV_pois, hn]
    | octet ns vs =>
      have hn : ∀ k ∈ ns, ¬64 + k = n := by simpa [hw, Land.keys] using h
      exact foldl_setV_pois (ns.zip vs) t.regs fun p hp e => hn p.1 (List.of_mem_zip hp).1 e.symm
    | mask _ _ _ | acc _ _ _ _ | fmt _ | twinS _ | twinV _ _ | twinM _ _ => simp only [Tile.applyLand, Tile.onRegs, Tile.onSpr]
  unfold Tile.landed
  dsimp only
  split
  · rw [mem_mark, if_neg h, ha]
  · exact ha

/-- A scalar register is poisoned after a result exactly where the result is (R328). -/
theorem landed_pois_sreg {n : Nat} {v : Word} (h0 : 0 < n) (h : x.what = .sreg n v) : n ∈ (t.landed x).regs.pois ↔ x.pois = true := by
  have ha : n ∉ (t.applyLand x.what).regs.pois := by simp [h, Tile.applyLand, Tile.onRegs, Regs.setS, Nat.ne_of_gt h0]
  have hk : n ∈ x.what.keys.1 := by simp [h, Land.keys, Nat.ne_of_gt h0]
  unfold Tile.landed
  dsimp only
  split
  · rw [mem_mark, if_pos hk]
  · next hc =>
    have hp : x.pois ≠ true := fun hp => hc (by simp [hp])
    simp [ha, hp]

end

end Sys2Proof.Machine
end

section
/-! SUPPORT. The commit of a bundle whose effects are all landings (R51, R52, R100, R106, R111). -/

namespace Sys2Proof.Machine

/-! ## The results that land -/

/-- The results in flight that land with the next bundle's commit, in issue order. -/
def dueOf (fl : List Landing) : List Landing := fl.filter (fun l => decide (l.d ≤ 1) && l.live)

theorem mem_dueOf {fl : List Landing} {l : Landing} : l ∈ dueOf fl ↔ l ∈ fl ∧ l.d ≤ 1 ∧ l.live = true := by simp [dueOf]

/-- The results that stay in flight, one bundle nearer. -/
def stillIn (fl : List Landing) : List Landing := (fl.map (fun l => { l with d := l.d - 1, j := l.j + 1 })).filter (fun l => l.d != 0)

/-- One bundle counted: what is due lands in issue order, the rest is one bundle nearer. -/
theorem advance_eq (t : Tile) : t.advance = (dueOf t.flight).foldl Tile.landed { t with flight := stillIn t.flight } := by
  have fold (fl : List Landing) (t : Tile) :
      ((fl.map (fun l => { l with d := l.d - 1, j := l.j + 1 })).filter (fun l => l.d == 0)).foldl (fun t x => if x.live then t.landed x else t) t =
        (dueOf fl).foldl Tile.landed t := by
    induction fl generalizing t with
    | nil => rfl
    | cons l fl ih =>
      by_cases hd : l.d ≤ 1
      · have h0 : l.d - 1 = 0 := by omega
        by_cases hl : l.live = true
        · simp only [dueOf, List.map_cons, List.filter_cons, h0, hd, hl, decide_true, Bool.and_self, beq_self_eq_true, if_true, List.foldl_cons]
          exact ih _
        · simp only [dueOf, List.map_cons, List.filter_cons, h0, hd, hl, decide_true, Bool.and_false, beq_self_eq_true, if_true, List.foldl_cons]
          exact ih _
      · have h0 : ¬l.d - 1 = 0 := by omega
        simp only [dueOf, List.map_cons, List.filter_cons, hd, beq_iff_eq, h0, decide_false, Bool.false_and, if_false]
        exact ih _
  exact fold _ _

/-- What no landing of a list changes is as it was before them. -/
theorem foldl_landed_keep {α : Type} (π : Tile → α) {l : List Landing} (h : ∀ x ∈ l, ∀ t, π (t.landed x) = π t) (t : Tile) :
    π (l.foldl Tile.landed t) = π t := by
  induction l generalizing t with
  | nil => rfl
  | cons x l ih => rw [List.foldl_cons, ih fun y hy => h y (List.mem_cons_of_mem _ hy), h x List.mem_cons_self]

/-- Landings change register files and FMT, and nothing else of the tile. -/
theorem foldl_landed_frame (l : List Landing) (t : Tile) :
    ∃ r f, l.foldl Tile.landed t = { t with regs := r, spr := { t.spr with fmt := f } } ∧ r.accU = t.regs.accU := by
  induction l generalizing t with
  | nil => exact ⟨t.regs, t.spr.fmt, rfl, rfl⟩
  | cons x l ih =>
    obtain ⟨v', ps, hx⟩ := landed_writes t x
    obtain ⟨r, f, hl, hu⟩ := ih (t.landed x)
    refine ⟨r, f, by rw [List.foldl_cons, hl, hx], hu.trans ?_⟩
    rw [hx]
    exact Land.into_accU x.what t.regs v' ps

section
variable {α : Type} (π : Tile → α) {t : Tile} {pre post : List Landing} {l : Landing}

theorem advance_keep (h : ∀ x ∈ t.flight, x.d ≤ 1 → x.live = true → ∀ u, π (u.landed x) = π u) :
    π t.advance = π { t with flight := stillIn t.flight } := by
  rw [advance_eq]
  refine foldl_landed_keep π (fun x hx => ?_) _
  obtain ⟨hm, hd, hl⟩ := mem_dueOf.1 hx
  exact h x hm hd hl

/-- The last result due that changes π gives it its value. -/
theorem advance_last (hfl : t.flight = pre ++ l :: post) (hd : l.d ≤ 1) (hl : l.live = true)
    (h : ∀ x ∈ post, x.d ≤ 1 → x.live = true → ∀ u, π (u.landed x) = π u) :
    π t.advance = π (((dueOf pre).foldl Tile.landed { t with flight := stillIn t.flight }).landed l) := by
  have hdue : dueOf t.flight = dueOf pre ++ l :: dueOf post := by rw [hfl]; simp [dueOf, hd, hl]
  rw [advance_eq, hdue, List.foldl_append, List.foldl_cons]
  refine foldl_landed_keep π (fun x hx => ?_) _
  obtain ⟨hm, hd, hl⟩ := mem_dueOf.1 hx
  exact h x hm hd hl

/-- The only result due that changes π finds it as it was. -/
theorem advance_sole (hfl : t.flight = pre ++ l :: post) (hd : l.d ≤ 1) (hl : l.live = true)
    (h : ∀ x ∈ pre ++ post, x.d ≤ 1 → x.live = true → ∀ u, π (u.landed x) = π u) :
    ∃ u, π t.advance = π (u.landed l) ∧ π u = π { t with flight := stillIn t.flight } := by
  refine ⟨_, advance_last π hfl hd hl fun x hx => h x (List.mem_append_right _ hx), foldl_landed_keep π (fun x hx => ?_) _⟩
  obtain ⟨hm, hd, hl⟩ := mem_dueOf.1 hx
  exact h x (List.mem_append_left _ hm) hd hl

end

/-- A landing marks a scalar register only where it writes it. -/
theorem Land.scalar_mem_keys (w : Land) {n : Nat} (hn : n < 64) (h : ∀ v, w ≠ .sreg n v) : n ∉ w.keys.1 := by
  cases w with
  | sreg k v =>
    have hk : n ≠ k := fun e => h v (e ▸ rfl)
    by_cases h0 : k = 0 <;> simp [Land.keys, h0, hk]
  | pred k v => by_cases h0 : k = 0 <;> simp [Land.keys, h0]; omega
  | octet ns vs => simp only [Land.keys, List.mem_map, not_exists, not_and]; omega
  | _ => simp [Land.keys] <;> omega

/-- A landing marks a vector register only where it writes it, or by its number beyond those of the scalar registers. -/
theorem Land.vector_mem_keys (w : Land) {n : Nat} (hn : n < 64) (hs : ∀ v, w ≠ .sreg (64 + n) v) (h : ¬w.names n) : 64 + n ∉ w.keys.1 := by
  cases w with
  | sreg k v =>
    have hk : 64 + n ≠ k := fun e => hs v (e ▸ rfl)
    by_cases h0 : k = 0 <;> simp [Land.keys, h0, hk]
  | pred k v => by_cases h0 : k = 0 <;> simp [Land.keys, h0]; omega
  | octet ns vs => simpa [Land.keys, Land.names] using h
  | vec k en v => simpa [Land.keys, Land.names, eq_comm] using h
  | pair a b v w => simpa [Land.keys, Land.names, eq_comm] using h
  | _ => simp [Land.keys] <;> omega

/-! ## The commit -/

/-- The end of a bundle without effects: a cycle passes, its landings are begun, one bundle is counted, and PC moves. -/
theorem finish_landings {s : State} (hl : s.core.iss.last = true) (he : s.core.iss.effs = []) :
    finish s = ((cyclePass s false).onCore (·.settled s.core.iss s.core.ranges s.hub.gtc)).tag .issued := by
  rw [finish, if_pos hl, commit_eq, he, List.foldl_nil]
  simp [State.effected, he, loadsOf]

/-- The tile core as the landings of its bundle find it. -/
def Tile.landing (t : Tile) : Tile := { t.cycle false with flight := t.flight ++ t.iss.lands }

/-- A bundle without effects changes the state as a cycle, its landings, the region marks and the move of PC do, and in nothing else. -/
theorem finish_landings_eq {s : State} (hl : s.core.iss.last = true) (he : s.core.iss.effs = []) :
    let t := s.core
    let u := t.landing.advance
    finish s = { s with
      hub := s.hub.tick (s.die (tileDie s.self)).clk,
      core := { t with
        regs := u.regs, flight := stillIn (t.flight ++ t.iss.lands), iss := { Iss.reset with out := .issued },
        reqs := (t.reqs.filter (fun r => r.kind != .fetch)).map Req.older, fetchRg := [], mxWait := t.mxWait - 1,
        chkWait := if fld t.spr.wchk 0 1 = 1 then 3 else 0, prof := profTick t false,
        spr := { t.spr with
          fmt := u.spr.fmt, cyc := t.spr.cyc + 1, tstat := regionBits t.spr t.iss,
          pc := t.iss.npc.getD (BitVec.ofNat 64 ((t.spr.pc.toNat + 16) % 2 ^ 56)) },
        task := { t.task with regionStart := if t.iss.rb then s.hub.gtc else t.task.regionStart } } } := by
  intro t u
  obtain ⟨r, f, hadv, _⟩ := foldl_landed_frame (dueOf t.landing.flight) { t.landing with flight := stillIn t.landing.flight }
  have hu : u = { t.landing with flight := stillIn t.landing.flight, regs := r, spr := { t.landing.spr with fmt := f } } :=
    (advance_eq t.landing).trans hadv
  have hset : (t.cycle false).settled t.iss t.ranges s.hub.gtc = { u with
      iss := Iss.reset, reqs := (u.reqs.filter (fun r => r.kind != .fetch)).map Req.older,
      fetchRg := if t.iss.effs.any isRgWrite then t.ranges else [],
      chkWait := if fld u.spr.wchk 0 1 = 1 then 3 else 0,
      spr := { u.spr with tstat := regionBits u.spr t.iss,
                          pc := t.iss.npc.getD (BitVec.ofNat 64 ((u.spr.pc.toNat + 16) % 2 ^ 56)) },
      task := { u.task with regionStart := if t.iss.rb then s.hub.gtc else u.task.regionStart } } := rfl
  rw [finish_landings hl he]
  simp only [State.onCore, State.tag, cyclePass, Tile.onIss]
  rw [hset, he, hu]
  rfl

/-- Settles O56: each register is what the last result due that writes it gives, and the rest is as finish_landings_eq has it. -/
theorem commitFrame : Obligations.CommitFrame := by
  intro s hl he
  rw [finish_landings_eq hl he]
  intro i t t' fl due names last sole vec vec'
  have hacc : t'.regs.accU = t.regs.accU := by
    obtain ⟨r, f, hadv, hu⟩ := foldl_landed_frame (dueOf t.landing.flight) { t.landing with flight := stillIn t.landing.flight }
    exact (congrArg (·.regs.accU) ((advance_eq t.landing).trans hadv)).trans hu
  have hreqs (l : List Req) : l.map Req.older = l.map (fun r => if r.late = true ∧ r.pw ≠ 254 then r else { r with j := r.j + 1 }) := by
    simp [Req.older]
  refine ⟨rfl, rfl, rfl, rfl, rfl, rfl, rfl, rfl, rfl, rfl, rfl, rfl, rfl, rfl, rfl, rfl, rfl, rfl, rfl, rfl, rfl, rfl, rfl, rfl, rfl, rfl,
    rfl, ?_, rfl, rfl, rfl, rfl, rfl, rfl, rfl, rfl, hacc, rfl, rfl, rfl, rfl, rfl, rfl, rfl, rfl, rfl, rfl, hreqs _, rfl, rfl, rfl, fun l hm hd => ?_,
    fun n h => advance_keep (·.regs.s.getD n 0) fun x hm hd hl u => landed_s_other u x (h x ⟨hm, hd, hl⟩),
    fun n h => advance_keep (·.regs.q.getD n false) fun x hm hd hl u => landed_q_other u x (h x ⟨hm, hd, hl⟩),
    fun n h => advance_keep (·.regs.m.getD n 0) fun x hm hd hl u => landed_m_other u x (h x ⟨hm, hd, hl⟩),
    fun h => advance_keep (·.regs.acc) fun x hm hd hl u => landed_acc_other u x (h x ⟨hm, hd, hl⟩),
    fun h => advance_keep (·.regs.twinS) fun x hm hd hl u => landed_twinS_other u x (h x ⟨hm, hd, hl⟩),
    fun hv hm => advance_keep (·.regs.twinV) fun x hx hd hl u => landed_twinV_other u x (hv x ⟨hx, hd, hl⟩) (hm x ⟨hx, hd, hl⟩),
    fun n h => ⟨advance_keep (·.regs.v.getD n 0) fun x hm hd hl u => landed_v_other u x (h x ⟨hm, hd, hl⟩), fun hn hs => ?_⟩,
    fun n hn h => ?_, ?_, ?_, ?_, ?_, ?_, ?_, ?_, ?_, ?_, ?_, ?_, ?_, rfl, rfl⟩
  · exact fun h => advance_keep (·.spr.fmt) fun x hm hd hl u => landed_fmt_other u x (h x ⟨hm, hd, hl⟩)
  · simp only [t', stillIn, List.mem_filter, List.mem_map]
    exact ⟨⟨l, hm, rfl⟩, by simp; omega⟩
  · refine iff_of_eq (advance_keep (64 + n ∈ ·.regs.pois) fun x hm hd hl u => propext (landed_pois_other u x ?_))
    exact x.what.vector_mem_keys hn (hs x ⟨hm, hd, hl⟩) (h x ⟨hm, hd, hl⟩)
  · refine iff_of_eq (advance_keep (n ∈ ·.regs.pois) fun x hm hd hl u => propext (landed_pois_other u x ?_))
    exact x.what.scalar_mem_keys hn (h x ⟨hm, hd, hl⟩)
  · intro pre post l n v h0 hn hfl hd hl hw hpost
    refine (iff_of_eq (advance_last (n ∈ ·.regs.pois) hfl hd hl fun x hx hd hl u => propext (landed_pois_other u x ?_))).trans
      (landed_pois_sreg _ l h0 hw)
    exact x.what.scalar_mem_keys hn (hpost x hx hd hl)
  · rintro n v h0 hn ⟨pre, post, l, hfl, hd, hl, hw, hpost⟩
    exact (advance_last (·.regs.s.getD n 0) hfl hd hl fun x hx hd hl u => landed_s_other u x fun w e => hpost x hx hd hl ⟨w, e⟩).trans
      (landed_s _ l h0 hn hw)
  · rintro n v h0 hn ⟨pre, post, l, hfl, hd, hl, hw, hpost⟩
    exact (advance_last (·.regs.q.getD n false) hfl hd hl fun x hx hd hl u => landed_q_other u x fun w e => hpost x hx hd hl ⟨w, e⟩).trans
      (landed_q _ l h0 hn hw)
  · rintro n en v hn ⟨pre, post, l, hfl, hd, hl, hw, hrest⟩
    obtain ⟨u, hu, hold⟩ := advance_sole (t := s.core.landing) (·.regs.m.getD n 0) hfl hd hl fun x hx hd hl u =>
      landed_m_other u x fun e w h => hrest x hx hd hl ⟨e, w, h⟩
    exact hu.trans ((landed_m u l hn hw).trans (congrArg (fun m => (m &&& ~~~en) ||| (v &&& en)) hold))
  · rintro n en v hn ⟨pre, post, l, hfl, hd, hl, hw, hrest⟩ b hb
    obtain ⟨u, hu, hold⟩ := advance_sole (t := s.core.landing) (·.regs.v.getD n 0) hfl hd hl fun x hx hd hl u => landed_v_other u x (hrest x hx hd hl)
    have hv : vec' n = mergeV (vec n) en v := hu.trans ((landed_vec u l hn hw).trans (congrArg (mergeV · en v) hold))
    rw [hv]
    exact lane_mergeV _ _ _ hb
  · refine fun a b v w ha hb hab => ⟨?_, ?_⟩
    · rintro ⟨pre, post, l, hfl, hd, hl, hw, hpost⟩
      exact (advance_last (·.regs.v.getD a 0) hfl hd hl fun x hx hd hl u => landed_v_other u x (hpost x hx hd hl)).trans
        (landed_pair _ l ha hb hab hw).1
    · rintro ⟨pre, post, l, hfl, hd, hl, hw, hpost⟩
      exact (advance_last (·.regs.v.getD b 0) hfl hd hl fun x hx hd hl u => landed_v_other u x (hpost x hx hd hl)).trans
        (landed_pair _ l ha hb hab hw).2
  · rintro ns vs k n v hns hk hv hn ⟨pre, post, l, hfl, hd, hl, hw, hpost⟩
    exact (advance_last (·.regs.v.getD n 0) hfl hd hl fun x hx hd hl u => landed_v_other u x (hpost x hx hd hl)).trans
      (landed_octet _ l hns hk hv hn hw)
  · rintro n rows vs k hn ⟨pre, post, l, hfl, hd, hl, hw, hrest⟩ i hi
    obtain ⟨u, hu, hold⟩ := advance_sole (t := s.core.landing) (·.regs.acc) hfl hd hl fun x hx hd hl u =>
      landed_acc_other u x fun m r w q h => hrest x hx hd hl ⟨m, r, w, q, h⟩
    have ha : t'.regs.acc = setAccRows t.regs.acc n rows vs := hu.trans ((landed_acc u l hw).trans (congrArg (setAccRows · n rows vs) hold))
    rw [ha]
    exact getD_setAccRows _ _ _ _ hi
  · rintro v ⟨pre, post, l, hfl, hd, hl, hw, hpost⟩
    exact (advance_last (·.spr.fmt) hfl hd hl fun x hx hd hl u => landed_fmt_other u x fun w e => hpost x hx hd hl ⟨w, e⟩).trans
      (landed_fmt _ l hw)
  · rintro v ⟨pre, post, l, hfl, hd, hl, hw, hpost⟩
    exact (advance_last (·.regs.twinS) hfl hd hl fun x hx hd hl u => landed_twinS_other u x fun w e => hpost x hx hd hl ⟨w, e⟩).trans
      (landed_twinS _ l hw)
  · rintro en v ⟨pre, post, l, hfl, hd, hl, hw, hrest⟩ b hb
    obtain ⟨u, hu, hold⟩ := advance_sole (t := s.core.landing) (·.regs.twinV) hfl hd hl fun x hx hd hl u =>
      landed_twinV_other u x (fun e w h => hrest x hx hd hl (.inl ⟨e, w, h⟩)) fun e w h => hrest x hx hd hl (.inr ⟨e, w, h⟩)
    have hv : t'.regs.twinV = mergeV t.regs.twinV en v := hu.trans ((landed_twinV u l hw).trans (congrArg (mergeV · en v) hold))
    rw [hv]
    exact lane_mergeV _ _ _ hb
  · rintro en v ⟨pre, post, l, hfl, hd, hl, hw, hrest⟩ b hb
    obtain ⟨u, hu, hold⟩ := advance_sole (t := s.core.landing) (·.regs.twinV) hfl hd hl fun x hx hd hl u =>
      landed_twinV_other u x (fun e w h => hrest x hx hd hl (.inl ⟨e, w, h⟩)) fun e w h => hrest x hx hd hl (.inr ⟨e, w, h⟩)
    have hv : t'.regs.twinV.getLsbD b = if en.getLsbD b then v.getLsbD b else u.regs.twinV.getLsbD b :=
      (congrArg (·.getLsbD b) hu).trans (landed_twinM u l hw hb)
    rw [hv, hold]
    rfl

end Sys2Proof.Machine
end

section
/-! SUPPORT. The special registers as MFS, MTS and SETFMT read and write them (R25, R163, R164). -/

namespace Sys2Proof.Machine

/-! ## Reading -/

theorem specHidden_iff (n : Nat) : specHidden n = true ↔ (8 ≤ n ∧ n ≤ 10) ∨ (0x20 ≤ n ∧ n ≤ 0x27) ∨ 0x40 ≤ n := by
  simp [specHidden, or_assoc]

theorem readSpec_rg (s : State) {k : Nat} (hk : k < 8) : readSpec s (0x20 + k) = s.core.spr.rg.getD k 0 := by
  rw [readSpec_indexed s (by simp [namedSpecs]; omega), if_pos (by omega), Nat.add_sub_cancel_left]

theorem readSpec_snap (s : State) (k : Nat) : readSpec s (0x40 + k) = s.core.spr.snap.getD k 0 := by
  rw [readSpec_indexed s (by simp [namedSpecs]; omega), if_neg (by omega), Nat.add_sub_cancel_left]

theorem exec_mfs_hidden {o : OpSNgdi} {s : State} (h : Enabled (.mfs o) s) (hs : s.core.sup = false) (hh : specHidden o.i = true) :
    exec (.mfs o) s = trapOut s .priv s.core.iss.slot o.i .trapIssue :=
  issue_trap (.mfs o) _ s h .priv o.i (by simp [hs, hh])

theorem exec_mfs {o : OpSNgdi} {s : State} (h : Enabled (.mfs o) s) (hs : s.core.sup = true ∨ specHidden o.i = false) :
    exec (.mfs o) s = .next (finish (s.withS 1 o.d (readSpec s o.i))) := by
  have hp : (!s.core.sup && specHidden o.i) = false := by rcases hs with hs | hs <;> simp [hs]
  refine (issue_enabled (.mfs o) _ s h (by simp [hp]) rfl rfl rfl rfl).trans ?_
  simp only [land_toNat, BitVec.ofNat_toNat, BitVec.setWidth_eq]

/-- Settles O11: MFS lands what readSpec gives, where the level may see it. -/
theorem readSpecial : Obligations.ReadSpecial := by
  intro o s h n hidden p g reads
  refine ⟨fun hs hh => exec_mfs_hidden h hs ((specHidden_iff _).2 hh), fun hv => ?_⟩
  have hread : reads (readSpec s n) :=
    exec_mfs h (hv.imp_right fun hn => Bool.eq_false_iff.2 fun e => hn ((specHidden_iff _).1 e))
  have readAt {k : Nat} (hn : n = k) : reads (readSpec s k) := hn ▸ hread
  exact ⟨readAt, readAt, readAt, readAt, readAt, readAt, readAt, readAt, readAt, readAt, readAt, readAt, readAt, readAt, readAt,
    fun k hk hn => readSpec_rg s hk ▸ readAt hn, fun k _ hn => readSpec_snap s k ▸ readAt hn, _, hread⟩

/-! ## Writing -/

theorem exec_mts_trap {o : OpSNgai} {s : State} (h : Enabled (.mts o) s) {c : Cause} {v : Nat}
    (ht : mtsTrap s o.i (s.core.sreg o.a) = some (c, v)) : exec (.mts o) s = trapOut s c s.core.iss.slot v .trapIssue :=
  issue_trap (.mts o) _ s h c v ht

theorem exec_mts {o : OpSNgai} {s : State} (h : Enabled (.mts o) s) (ht : mtsTrap s o.i (s.core.sreg o.a) = none) :
    exec (.mts o) s = .next (finish (if o.i.val = 2 then s.land 4 (.fmt (s.core.sreg o.a)) else s.eff (.spec o.i (s.core.sreg o.a)))) :=
  issue_enabled (.mts o) _ s h ht rfl rfl rfl rfl

/-- Task level may write FMT, LC and ROTW only (R25). -/
theorem mtsTrap_priv {s : State} {n : Nat} (v : Word) (hs : s.core.sup = false) (hn : n ≠ 2 ∧ n ≠ 3 ∧ n ≠ 5) :
    mtsTrap s n v = some (.priv, n) := by
  simp [mtsTrap, hs, specOpen, hn]

theorem mtsTrap_reserved {s : State} {n : Nat} {v : Word} (hs : s.core.sup = true ∨ n = 2 ∨ n = 3 ∨ n = 5)
    (hv : v.toNat &&& specReserved n ≠ 0) : mtsTrap s n v = some (.illegal, n) := by
  have hp : (!s.core.sup && !specOpen n) = false := by
    rcases hs with hs | hs | hs | hs <;> simp [hs, specOpen]
  rw [mtsTrap, hp, if_neg Bool.false_ne_true, if_pos hv]

/-- Settles O12: what MTS finds at issue is mtsTrap, and FMT alone is written by a landing. -/
theorem writeSpecial : Obligations.WriteSpecial :=
  ⟨fun _ _ h => ⟨fun ⟨hs, hn⟩ => exec_mts_trap h (mtsTrap_priv _ hs hn), fun hs hv => exec_mts_trap h (mtsTrap_reserved hs hv), exec_mts h⟩,
    fun o s h => issue_enabled (.setfmt o) _ s h rfl rfl rfl rfl rfl⟩

end Sys2Proof.Machine
end

section
/-! SUPPORT. The module right after reset (R17, R24 to R48). -/

namespace Sys2Proof.Machine

theorem reset_tile (t : Nat) : State.reset.tile t = Tile.reset := by
  unfold State.tile
  split <;> rfl

theorem getD_replicate {α : Type} (n i : Nat) (x : α) : (Vector.replicate n x).getD i x = x := by
  simp only [Vector.getD, Vector.toArray_replicate, Array.getD_eq_getD_getElem?, Array.getElem?_replicate]
  split <;> rfl

theorem reset_facet (f : Nat) : Tile.reset.facet f = Facet.reset := getD_replicate 8 f _

theorem reset_buf (b : Nat) : Tile.reset.buf b = Osb.reset := getD_replicate 4 (b % 4) _

theorem reset_chan (c : Nat) : Tile.reset.chan c = Chan.reset := getD_replicate 8 c _

/-- Settles O60: after reset every tile is Tile.reset. -/
theorem resetState : Obligations.ResetState := by
  refine ⟨reset_memWf, rfl, by decide, rfl, rfl, fun t _ => ?_⟩
  rw [reset_tile]
  exact ⟨by decide, rfl, rfl, rfl, rfl, rfl, rfl, rfl, rfl, fun f => by rw [reset_facet]; rfl, fun b _ => by rw [reset_buf]; rfl,
    fun c _ => by rw [reset_chan]; exact ⟨rfl, rfl⟩⟩

end Sys2Proof.Machine
end

section
/-! SUPPORT. The steps of a tile from outside its bundles (R118, R119, R123, R389, R393). -/

namespace Sys2Proof.Machine

/-! ## Unit steps -/

theorem tileStep_eq {s : State} {t : Nat} (ht : t < 1024) (ha : s.arg 0 = t) (f : Nat → State) : tileStep s f = .next (f t) := by
  rw [tileStep, ha, if_neg (by omega)]

@[simp] theorem State.focus_core (s : State) (t : Nat) : (s.focus t).core = s.tile t := by
  unfold State.focus State.tile
  split <;> rfl

/-! ## The boundary of a tile -/

theorem boundary_preempt {s : State} (hp : s.core.task.preq = true) (hr : s.core.inreg = false) :
    boundary s = if s.core.task.pend.isSome then returnCore s else preemptCore s := by
  simp [boundary, hp, hr]

theorem boundary_idle {s : State} (hk : s.core.task.pend = none) (hp : s.core.task.preq = false) (he : regionExpired s = false) :
    boundary s = s := by
  simp [boundary, hk, hp, he]

/-! ## The steps -/

section
variable {s : State} {t : Nat} (ht : t < 1024) (ha : s.arg 0 = t)
include ht ha

/-- A request to pre-empt is taken where it stands outside a region; a return cause wins (R118, R393). -/
theorem exec_preempt (hp : (s.tile t).task.preq = true) (hr : (s.tile t).inreg = false) (hl : (s.tile t).live = true) :
    exec .preempt s = .next (s.atTile t (if (s.tile t).task.pend.isSome then returnCore else preemptCore)) := by
  rw [show exec .preempt s = execPreempt s from rfl, execPreempt, tileStep_eq ht ha, if_pos (by simp [hp, hr, hl]), State.atTile, State.atTile,
    boundary_preempt (by rwa [State.focus_core]) (by rwa [State.focus_core]), State.focus_core]
  split <;> rfl

/-- An expired region is taken where it stands; a return cause wins (R119, R393). -/
theorem exec_regionTimeout (hl : (s.tile t).live = true) (he : regionExpired (s.focus t) = true) :
    exec .regionTimeout s = .next (s.atTile t (if (s.tile t).task.pend.isSome then returnCore else regionCore)) := by
  rw [show exec .regionTimeout s = execRegionTimeout s from rfl, execRegionTimeout, tileStep_eq ht ha, if_pos ⟨hl, he⟩, State.atTile,
    State.atTile, State.focus_core]
  split <;> rfl

/-- A tile that issues nothing lets a cycle pass, takes what stands at its boundary or goes on waiting for its restart, and may issue again
(R32, R100, R389). -/
theorem exec_tileCycle :
    let c := cyclePass (s.focus t) ((s.tile t).iss.out.atRecv && (s.tile t).live)
    let u := if c.core.live then boundary c else restartWaiting c
    exec .tileCycle s = .next (u.tag u.core.iss.out.rest) := by
  intro c u
  rw [show exec .tileCycle s = execTileCycle s from rfl, execTileCycle, tileStep_eq ht ha]
  simp only [State.focus_core]
  rfl

theorem exec_randomBitAppend (hr : (s.tile t).rng.run = true) (hc : (s.tile t).rng.count < 16) (hl : (s.tile t).live = true) :
    let x := s.tile t
    exec .randomBitAppend s = .next (s.setTile t { x with rng := { x.rng with gen := x.rng.gen + 1, count := x.rng.count + 1 } }) := by
  intro x
  rw [show exec .randomBitAppend s = execRandomBitAppend s from rfl, execRandomBitAppend, tileStep_eq ht ha, State.onTile, if_pos ⟨hr, hc, hl⟩]

theorem exec_runAheadPrefetch {d : Dest} (hd : checkRegion (s.focus t) (s.arg 1) true false false = .ok d) (hcls : d.cls < 3)
    (hrun : (s.tile t).task.run = .running) (hout : (s.tile t).iss.out = .stallSb)
    (hm : (aheadLoads (s.focus t) (s.args.drop 2)).contains (s.arg 1) = true) :
    let x := s.tile t
    exec .runAheadPrefetch s = .next (s.setTile t { x with reqs := x.reqs ++
      [{ Req.empty .pref with va := s.arg 1, size := 64, cls := d.cls, tgt := d.tgt, place := d.place / 64 * 64 }] }) := by
  intro x
  rw [show exec .runAheadPrefetch s = execRunAheadPrefetch s from rfl, execRunAheadPrefetch, tileStep_eq ht ha]
  simp only [hd, hrun, hout, hm, decide_eq_true hcls, Bool.and_self, beq_self_eq_true, if_true]
  rfl

end

/-! ## Running ahead -/

theorem follows_next (s : State) (p : Nat) : follows s p ((p + 16) % 2 ^ 56) = true := by simp [follows]

/-- Past a bundle that neither turns nor writes the wheel, with nothing in flight, running ahead knows all but what that bundle writes. -/
theorem aheadPast_still {t : Tile} {b : Bundle} (hf : t.flight = []) (hl : ∀ w, b.s ≠ .loopr w) (hm : ∀ w, b.s ≠ .mts w) :
    aheadPast (t, []) b = (t, ([b.s, b.v0, b.v1, b.t].flatMap scalarDsts).map (physS t.spr.rotw)) := by
  simp only [aheadPast, advance_nil hf, List.append_nil]

theorem aheadTo_next {s : State} {x : Tile × List Nat} {p : Nat} {b c : Bundle} (hb : cached s p = some b) (hpb : passable b = true)
    (hc : cached s ((p + 16) % 2 ^ 56) = some c) (hpc : passable c = true) :
    aheadTo s p x [(p + 16) % 2 ^ 56] = some (c, aheadPast x b) := by
  simp only [aheadTo, hb, hc, hpb, hpc, follows_next, Bool.and_self, if_true]

/-- Running ahead goes nowhere from a bundle that stops it (R123). -/
theorem aheadTo_blocked {s : State} {x : Tile × List Nat} {p : Nat} {b : Bundle} (hb : cached s p = some b) (hpb : passable b = false)
    (path : List Nat) : aheadTo s p x path = none := by
  cases path with
  | nil => rfl
  | cons q l =>
    rw [aheadTo, hb]
    cases cached s q with
    | none => rfl
    | some c => simp [hpb]

/-- The address of a scalar access: the register and the signed displacement in units of its size (R92, R172). -/
theorem scalarEa_eq (s : State) (a i size : Nat) :
    scalarEa s a i size = (s.core.sreg a + (BitVec.ofNat 8 i).signExtend 64 * BitVec.ofNat 64 size).toNat := by
  have hw (x : Int) : wrap 64 x = (BitVec.ofInt 64 x).toNat := by
    rw [← ofNat_wrap, BitVec.toNat_ofNat, Nat.mod_eq_of_lt (by rw [wrap]; omega)]
  rw [scalarEa, hw, BitVec.ofInt_add, BitVec.ofInt_mul, sext_small i 8 (by norm_num), BitVec.ofInt_natCast, BitVec.ofInt_natCast,
    BitVec.ofNat_toNat, BitVec.setWidth_eq, BitVec.signExtend]

/-- The address of a doubleword load, where no pending result and nothing on the way writes its address register. -/
theorem aheadEa_ldD {s : State} {o : OpSNgdai} {l : List Nat} (hr : readsPending s.core (.ldD o) = false)
    (hl : physS s.core.spr.rotw o.a ∉ l) :
    aheadEa s (s.core, l) (.ldD o) = some (s.core.sreg o.a + (BitVec.ofNat 8 o.i).signExtend 64 * 8).toNat := by
  simp only [aheadEa, hr, Bool.false_or]
  rw [if_neg (by simp [hl])]
  exact congrArg some (scalarEa_eq s o.a o.i 8)

/-- Settles O39: each step acts on its tile as its own lemma says, and running ahead past one bundle knows what that bundle leaves alone. -/
theorem tileSteps : Obligations.TileSteps := by
  intro s t ht ha x keep recv c rest
  let u (c : State) : State := if c.core.live then boundary c else restartWaiting c
  refine ⟨exec_preempt ht ha, exec_regionTimeout ht ha, fun hl hcl hk hp he => ?_, fun hcl hout => ?_, exec_randomBitAppend ht ha, ?_,
    fun d => exec_runAheadPrefetch ht ha, ?_, fun b0 path hb hp => ?_⟩
  · refine (exec_tileCycle ht ha).trans ?_
    change Host.Outcome.next ((u c).tag (u c).core.iss.out.rest) = _
    rw [show u c = c from (if_pos hcl).trans (boundary_idle hk hp he),
      show c.core.iss.out = x.iss.out from congrArg (·.iss.out) (s.focus_core t)]
    rfl
  · refine (exec_tileCycle ht ha).trans ?_
    change Host.Outcome.next ((u c).tag (u c).core.iss.out.rest) = _
    rw [show u c = restartWaiting c from if_neg (by simp [hcl]), hout]
    rfl
  · rw [show exec .bankFree s = execBankFree s from rfl, execBankFree, tileStep_eq ht ha]
    rfl
  · intro b0 b o p hb0 hp0 hb hp hs hf hr hl hm hd
    rw [advance_nil hf] at hr
    have hto := (aheadTo_next (x := (s.core, [])) hb0 hp0 hb hp).trans (congrArg (fun y => some (b, y)) (aheadPast_still hf hl hm))
    have hea := aheadEa_ldD (l := ([b0.s, b0.v0, b0.v1, b0.t].flatMap scalarDsts).map (physS s.core.spr.rotw)) hr (by
      simp only [List.mem_map, List.mem_flatMap, not_exists, not_and]
      rintro n ⟨i, hi, hn⟩
      exact hd i hi n hn)
    rw [aheadLoads, if_neg (by simp), hto]
    exact List.contains_iff_mem.2 (List.mem_filterMap.2 ⟨b.s, List.mem_cons_self, hs ▸ hea⟩)
  · rw [aheadLoads, aheadTo_blocked hb hp]
    split <;> rfl

end Sys2Proof.Machine
end

section
/-! SUPPORT. Sparse tables and queues: what an entry reads after a write (R363, R371). -/

namespace Sys2Proof.Machine

/-! ## Tables -/

@[simp] theorem mget_mset_same {α : Type} (d : α) (m : List (Nat × α)) (i : Nat) (x : α) : mget d (mset m i x) i = x := by
  induction m with
  | nil => simp [mset, mget]
  | cons p m ih =>
    unfold mset
    split
    · simp [mget]
    · split <;> simp [mget, *]

@[simp] theorem mset_mset_same {α : Type} (m : List (Nat × α)) (i : Nat) (x y : α) : mset (mset m i x) i y = mset m i y := by
  induction m with
  | nil => simp [mset]
  | cons p m ih => grind [mset]

/-! ## Queues -/

@[simp] theorem State.setQueue_queue (s : State) (q : Nat) (x : Queue) : (s.setQueue q x).queue q = x := by
  simp [State.queue, State.setQueue, State.onDie, State.setDie, State.die]

@[simp] theorem State.setQueue_setQueue (s : State) (q : Nat) (x y : Queue) : (s.setQueue q x).setQueue q y = s.setQueue q y := by
  simp [State.setQueue, State.onDie, State.setDie, State.die]

theorem queueStep_eq {s : State} {q : Nat} (hq : q < 16384) (ha : s.arg 0 = q) (f : Nat → State) : queueStep s f = .next (f q) := by
  rw [queueStep, ha, if_neg (by omega)]

/-- No upset of a table's word is waiting to be found (R412). -/
def State.unflawed (s : State) (f : Flaw) : Prop := s.codes.flaws.contains f = false ∧ s.codes.flaws.contains (.soft f) = false

theorem corrects_unflawed {s : State} {f : Flaw} (h : s.unflawed f) : s.corrects f = s := by
  rw [State.corrects, h.2]
  rfl

theorem queueRead_unflawed {s : State} {q : Nat} (h : s.unflawed (.queue q)) (f : State → State) : queueRead s q f = f s := by
  rw [queueRead, h.1, if_neg Bool.false_ne_true, corrects_unflawed h]

theorem readStage_unflawed {s : State} {d i : Nat} (h : s.unflawed (.stage d i)) : readStage s d i = s := by
  rw [readStage, h.1, if_neg Bool.false_ne_true, corrects_unflawed h]

/-! ## Writes of the registers of a queue -/

section
variable {s : State} {q : Nat} (hq : q < 16384) (ha : s.arg 0 = q)
include hq ha

/-- Before the configuration has verified no register of a queue is written (R481). -/
theorem exec_queueWrites_unverified (hr : s.hub.rot = false) :
    exec .qwcWrite s = .next s ∧ exec .qrstWrite s = .next s ∧ exec .qcfgWrite s = .next s := by
  refine ⟨?_, ?_, ?_⟩
  · rw [show exec .qwcWrite s = execQwcWrite s from rfl, execQwcWrite, queueStep_eq hq ha, hr]; rfl
  · rw [show exec .qrstWrite s = execQrstWrite s from rfl, execQrstWrite, queueStep_eq hq ha, hr]; rfl
  · rw [show exec .qcfgWrite s = execQcfgWrite s from rfl, execQcfgWrite, queueStep_eq hq ha, hr]; rfl

theorem exec_qwcWrite (hr : s.hub.rot = true) (hs : s.unflawed (.queue q)) :
    exec .qwcWrite s = .next (overrun (s.setQueue q { s.queue q with wc := s.arg 1 % 2 ^ 64 }) q) := by
  rw [show exec .qwcWrite s = execQwcWrite s from rfl, execQwcWrite, queueStep_eq hq ha, hr]
  have hs' : (s.setQueue q { s.queue q with wc := s.arg 1 % 2 ^ 64 }).unflawed (.queue q) := hs
  exact congrArg Host.Outcome.next (queueRead_unflawed hs' (overrun · q))

/-- A reset of a queue that holds no record: both counts become N (R367). -/
theorem exec_qrstWrite (hr : s.hub.rot = true) (hst : (s.queue q).state ≠ 4) (hh : (s.queue q).head = none) :
    exec .qrstWrite s = .next (s.setQueue q { s.queue q with
      rst := BitVec.ofNat 64 (s.arg 1), rc := s.arg 1 % 2 ^ 64, wc := s.arg 1 % 2 ^ 64, ecode := 0, state := fld (s.queue q).cfg 4 1 }) := by
  have hd : dropHead s q = s := by simp [dropHead, hh]
  have hn : BitVec.ofNat 64 (s.arg 1 % 2 ^ 64) = BitVec.ofNat 64 (s.arg 1) := BitVec.eq_of_toNat_eq (by simp)
  rw [show exec .qrstWrite s = execQrstWrite s from rfl, execQrstWrite, queueStep_eq hq ha]
  simp only [hd, hn]
  rw [if_neg (by simp [hr, hst])]

/-- A write of QCFG of an idle queue is taken whole where its depth is no reserved one (R363). -/
theorem exec_qcfgWrite (hr : s.hub.rot = true) (hf : bit s.hub.featacc 0 = true) (hen : fld (s.queue q).cfg 4 1 = 0)
    (hst : (s.queue q).state ≤ 1) (hv : s.arg 1 < 2 ^ 12) (hd : s.arg 1 % 16 < 13) :
    exec .qcfgWrite s = .next (s.setQueue q { s.queue q with cfg := BitVec.ofNat 64 (s.arg 1), state := bits (s.arg 1) 4 1 }) := by
  have hstays : ¬13 ≤ bits (s.arg 1) 0 4 := by simpa [bits] using hd
  have hold : bit (s.queue q).cfg.toNat 4 = false := by
    rw [bit, show bits (s.queue q).cfg.toNat 4 1 = 0 from hen]
    rfl
  have hc : bits (s.arg 1) 6 6 * 64 + bits (s.arg 1) 5 1 * 32 + bits (s.arg 1) 4 1 * 16 + bits (s.arg 1) 0 4 = s.arg 1 := by
    simp only [bits]
    omega
  rw [show exec .qcfgWrite s = execQcfgWrite s from rfl, execQcfgWrite, queueStep_eq hq ha]
  simp only [hr, hf, hold, decide_eq_false hstays, hst, Bool.false_and, Bool.or_false, Bool.not_true, Bool.false_eq_true, if_false, if_true]
  rw [hc]

end

/-- A queue within its depth, or not active, does not overrun (R366). -/
theorem overrun_within {s : State} {q : Nat} (h : (s.queue q).state ≠ 1 ∨ (s.queue q).dist ≤ depthOf (s.queue q).cfg) : overrun s q = s :=
  if_neg (by omega)

theorem overrun_beyond {s : State} {q : Nat} (h : (s.queue q).state = 1) (hd : depthOf (s.queue q).cfg < (s.queue q).dist) :
    overrun s q = (s.setQueue q { s.queue q with state := 2 }).postQueue q 3 0 (s.queue q).rc (s.queue q).wc :=
  if_pos ⟨h, hd⟩

/-! ## Records on their way -/

section
variable {s : State} {q : Nat} (hq : q < 16384) (ha : s.arg 0 = q) (hs : s.unflawed (.queue q))
include hq ha hs

theorem exec_recordFetch (hcp : cpUp s (q / 1024) = true) (hf : fetchable (s.queue q) = true) {w : Nat} {s2 : State}
    (hl : locRead s (q / 1024) (s.queue q).base.toNat (64 * ((s.queue q).rc % depthOf (s.queue q).cfg)) 8 = (.ok w, s2))
    (hw : recBad s2 q w = 0) :
    exec .recordFetch s = .next (s2.setQueue q { s2.queue q with head := some w, placed := 0, image := none }) := by
  have hd : ¬depthOf (s.queue q).cfg < (s.queue q).dist := by
    simp only [fetchable, Bool.and_eq_true, decide_eq_true_eq] at hf
    omega
  rw [show exec .recordFetch s = execRecordFetch s from rfl, execRecordFetch, queueStep_eq hq ha]
  simp only [queueRead_unflawed hs, hcp, hf, hd, hl, hw, Bool.not_true, Bool.false_eq_true, if_false, ne_eq, not_true_eq_false]

theorem recStep_ready {kind op w : Nat} (hw : ready s q kind op = some w) (f : State → Nat → Nat → State) :
    recStep s kind op f = .next (f s q w) := by
  rw [recStep, queueStep_eq hq ha, hw]
  exact congrArg _ (queueRead_unflawed hs _)

theorem exec_taskRecord {w img : Nat} {s1 : State} (hw : ready s q 1 0 = some w) (hi : (s.queue q).image = none)
    (hst : bit w 10 = false ∨ (s.unflawed (.stage (q / 1024) (recSidx w)) ∧ (s.stage (q / 1024) (recSidx w)).valid = true ∧
      bits (recWord w 3) 0 64 &&& (s.stage (q / 1024) (recSidx w)).w0.toNat = recWord w 3))
    (hl : locRead s (q / 1024) (recWord w 2) 0 8 = (.ok img, s1))
    (hrg : ((List.range 8).map (fun i => BitVec.ofNat 64 (recWord img i))).any rgBad = false) :
    exec .taskRecord s = .next ((spendCredit s1 q).setQueue q { (spendCredit s1 q).queue q with
      image := some ((List.range 8).map (fun i => BitVec.ofNat 64 (recWord img i))), placed := 0,
      running := (s.queue q).running ++ [{ id := (s.queue q).nid, n := (s.queue q).rc, w := w, left := popc 64 (recWord w 3), killed := 0,
                                           late := false, todo := [], drops := 0, held := none }] }) := by
  have hread : (if (bit w 10 && (none : Option (List Word)).isNone) = true then readStage s (q / 1024) (recSidx w) else s) = s := by
    rcases hst with h | ⟨h, _⟩
    · simp [h]
    · simp [readStage_unflawed h]
  have hok : (bit w 10 && (!(s.stage (q / 1024) (recSidx w)).valid ||
      bits (recWord w 3) 0 64 &&& (s.stage (q / 1024) (recSidx w)).w0.toNat != recWord w 3)) = false := by
    rcases hst with h | ⟨_, hv, hm⟩
    · simp [h]
    · simp [hv, hm]
  rw [show exec .taskRecord s = execTaskRecord s from rfl, execTaskRecord, recStep_ready hq ha hs hw]
  simp only [hi, hread]
  simp only [hok, hl, hrg, Option.isSome_none, Bool.false_eq_true, if_false]

theorem exec_taskPlace {w u : Nat} {rg : List Word} (hw : ready s q 1 0 = some w) (hi : (s.queue q).image = some rg)
    (hu : (recTiles w)[(s.queue q).placed]? = some u) (hfree : (s.tile (64 * (q / 1024) + u)).task.placed = none) :
    let s1 := s.onTile (64 * (q / 1024) + u) (fun y => y.onTask (fun k =>
      { k with placed := some (launchOf q (s.queue q).nid w rg), since := s.hub.gtc, met := false }))
    exec .taskPlace s = .next (s1.setQueue q (
      if (s.queue q).placed + 1 = (recTiles w).length then
        { s.queue q with rc := ((s.queue q).rc + 1) % 2 ^ 64, head := none, placed := 0, image := none, nid := (s.queue q).nid + 1 }
      else { s.queue q with placed := (s.queue q).placed + 1 })) := by
  intro s1
  rw [show exec .taskPlace s = execTaskPlace s from rfl, execTaskPlace, recStep_ready hq ha hs hw]
  simp only [hi, hu, hfree, Option.isSome_none, Bool.false_eq_true, if_false]
  split <;> rfl

end

end Sys2Proof.Machine
end

section
/-! SUPPORT. The placement, entry and report of a tile task, and the registers with which it enters (R48, R160, R358 to R362). -/

namespace Sys2Proof.Machine

/-! ## Entry -/

section
variable {s : State} {t : Nat} (ht : t < 1024) (ha : s.arg 0 = t) {l : Launch} (hl : (s.tile t).task.placed = some l)
include ht ha hl

theorem exec_taskEntry_blocked (hm : mayEnter (s.tile t) l = false) : exec .taskEntry s = .next s := by
  rw [show exec .taskEntry s = execTaskEntry s from rfl, execTaskEntry, tileStep_eq ht ha]
  simp only [hl, hm]
  rfl

/-- A gang task whose tile meets the other conditions waits for START (R362). -/
theorem exec_taskEntry_early (hm : mayEnter (s.tile t) l = true) (hg : l.gang = true) (hs : s.hub.gtc < l.start) :
    exec .taskEntry s = .next (s.setTile t ((s.tile t).onTask (fun k => { k with met := true }))) := by
  rw [show exec .taskEntry s = execTaskEntry s from rfl, execTaskEntry, tileStep_eq ht ha]
  simp only [hl, hm, hg, hs]
  rfl

/-- A task enters; a late gang task marks its record (R359, R362). -/
theorem exec_taskEntry (hm : mayEnter (s.tile t) l = true) (hs : l.gang = false ∨ l.start ≤ s.hub.gtc) :
    let late := lateEntry (s.tile t) l s.hub.gtc
    let u := (s.setTile t (enterTask (s.tile t) t (fld s.hub.prcfg 0 5) l late)).boundTile t
    exec .taskEntry s = .next (if late then u.setQueue l.q { u.queue l.q with
      running := (u.queue l.q).running.map (fun r => if r.id = l.n then { r with late := true } else r) } else u) := by
  intro late u
  have hg : (l.gang && decide (s.hub.gtc < l.start)) = false := by
    rcases hs with h | h
    · simp [h]
    · simp [h]
  rw [show exec .taskEntry s = execTaskEntry s from rfl, execTaskEntry, tileStep_eq ht ha]
  simp only [hl, hm, hg]
  rfl

end

theorem lateEntry_single {x : Tile} {l : Launch} (gtc : Nat) (hg : l.gang = false) : lateEntry x l gtc = false := by simp [lateEntry, hg]

theorem lateEntry_met {x : Tile} {l : Launch} (gtc : Nat) (h : x.task.met = true ∨ (x.task.since ≤ l.start ∧ x.task.drains = [])) :
    lateEntry x l gtc = false := by
  rcases h with h | ⟨hs, hd⟩
  · simp [lateEntry, h]
  · simp [lateEntry, hs, hd]

theorem lateEntry_late {x : Tile} {l : Launch} (gtc : Nat) (hg : l.gang = true) (hm : x.task.met = false) (hs : l.start < x.task.since) :
    lateEntry x l gtc = true := by simp [lateEntry, hg, hm, hs]

/-! ## Report -/

theorem freesEntry_iff (k : Task) (e : Drain) :
    freesEntry k e = true ↔ 2 ≤ k.drains.length ∨ ∃ l ∈ k.placed, e.fown &&& l.facets ≠ 0 := by
  cases h : k.placed <;> simp [freesEntry, h]

theorem exec_taskCompletionReport {s : State} {t : Nat} (ht : t < 1024) (ha : s.arg 0 = t) {e : Drain} {rest : List Drain} {l : Launch}
    (hd : (s.tile t).task.drains = e :: rest) (hc : drained (s.tile t) e = true) (hl : e.launch = some l) :
    exec .taskCompletionReport s = .next (reportTask
      (s.setTile t ((s.tile t).onTask (fun k => { k with drains := rest, since := if freesEntry k e then s.hub.gtc else k.since }))) l e.killed) := by
  rw [show exec .taskCompletionReport s = execTaskCompletionReport s from rfl, execTaskCompletionReport, tileStep_eq ht ha]
  simp only [hd, hc, hl]
  rfl

/-! ## The registers at entry -/

theorem physS_zero {n : Nat} (hn : n < 64) : physS 0 n = n := by
  have hf : fld 0 0 4 = 0 := rfl
  rw [physS, hf]
  split <;> omega

/-- The scalar registers that a task enters with: s1 to s4 hold its arguments, its tile and its rank among the tiles of its record, the
others are zero (R48, R357). -/
theorem enterTask_sreg (z : Tile) (t pos : Nat) (l : Launch) (late : Bool) {n : Nat} (hn : n < 64) :
    (enterTask z t pos l late).sreg n = if n = 4 then BitVec.ofNat 64 (popc (t % 64) (l.tiles % 2 ^ (t % 64)))
      else if n = 3 then BitVec.ofNat 64 (t % 64) else if n = 2 then l.arg1 else if n = 1 then l.arg0 else 0 := by
  have hw : (enterTask z t pos l late).spr.rotw = 0 := rfl
  rw [Tile.sreg, hw, physS_zero hn]
  by_cases h0 : n = 0
  · simp [h0]
  · simp [h0, enterTask, Regs.setS, getD_setIfInBounds, Regs.reset, getD_replicate, @eq_comm _ 4 n, @eq_comm _ 3 n, @eq_comm _ 2 n, @eq_comm _ 1 n]

theorem bits_one (x lo : Nat) : bits x lo 1 = b2n (bit x lo) := by
  have h := bits_lt x lo 1
  by_cases h1 : bits x lo 1 = 1
  · simp [bit, b2n, h1]
  · simp only [bit, b2n, beq_iff_eq, h1, if_false]
    omega

/-- The rank of a tile among those of its record. -/
theorem popc_below (tiles n : Nat) : popc n (tiles % 2 ^ n) = (List.range n).countP (fun k => bit tiles k) := by
  rw [popc_eq]
  refine List.countP_congr fun k hk => ?_
  have hk : k < n := List.mem_range.1 hk
  simp [bit_eq_testBit, Nat.testBit_mod_two_pow, hk]

theorem enterTask_rg (z : Tile) (t pos : Nat) (l : Launch) (late : Bool) {n : Nat} (hn : n < 8) :
    (enterTask z t pos l late).spr.rg.toList.getD n 0 = l.rg.getD n 0 := by
  simp [enterTask, hn]

theorem enterTask_taskid (z : Tile) (t pos : Nat) (l : Launch) (late : Bool) (htag : l.tag < 2 ^ 32) :
    fld (enterTask z t pos l late).spr.taskid 0 32 = l.tag ∧
      (l.facets < 256 → fld (enterTask z t pos l late).spr.taskid 32 8 = l.facets) := by
  simp only [enterTask, fld, bits, BitVec.toNat_ofNat]
  omega

/-- A task owns the banks of its record, but for those that a draining task still holds (R360). -/
theorem enterTask_bown (z : Tile) (t pos : Nat) (l : Launch) (late : Bool) (hb : l.banks < 2 ^ 48) (b : Nat) :
    fld (enterTask z t pos l late).spr.bown b 1 = b2n (bit l.banks b && !bit (drainBanks z t) b) := by
  have hx : (l.banks ^^^ (l.banks &&& drainBanks z t)) < 2 ^ 64 := by
    have h := Nat.xor_lt_two_pow hb ((Nat.and_le_left (m := drainBanks z t)).trans_lt hb)
    omega
  rw [fld, bits_one]
  simp only [enterTask, BitVec.toNat_ofNat, Nat.mod_eq_of_lt hx]
  simp only [bit_eq_testBit, Nat.testBit_xor, Nat.testBit_and]
  cases l.banks.testBit b <;> cases (drainBanks z t).testBit b <;> rfl

/-! ## Register writes from outside -/

/-- A queue's registers lie at 64 bytes from 0x100000 on (R464). -/
theorem regDies_queue {q o : Nat} (hq : q < 16384) (ho : 0x100000 + 64 * q ≤ o) (ho' : o < 0x100000 + 64 * q + 64) : regDies o = [q / 1024] := by
  have h : (o - 0x100000) / 64 / 1024 = q / 1024 := by omega
  simp only [regDies]
  rw [if_neg (by omega), if_pos (by omega), h]

section
variable {s : State} {q o v : Nat} {l : List Nat} (hq : q < 16384) (ha : s.args = o :: v :: l) (hw : s.hub.writes = []) (hv : v < 2 ^ 64)
  (ho : 0x100000 + 64 * q ≤ o) (ho' : o < 0x100000 + 64 * q + 64)
include hq ha hw hv ho ho'

theorem exec_registerWrite : exec .registerWrite s =
    if spineOk s (q / 1024) (l.headD 0 % 2) then regWrite s o v
    else .next (s.onHub (fun h => { h with writes := [[o, v, l.headD 0 % 2]] })) := by
  have hp : pumpWrites s = s := by rw [pumpWrites, hw]; rfl
  have hr : regRoute s (l.headD 0 % 2) o = spineOk s (q / 1024) (l.headD 0 % 2) := by simp [regRoute, regDies_queue hq ho ho']
  rw [show exec .registerWrite s = execRegisterWrite s from rfl, execRegisterWrite]
  simp only [hp, ha, hr, Nat.mod_eq_of_lt hv, State.onHub, hw, List.nil_append]

end

/-- A write of a register of a queue's block goes to the queue (R465). -/
theorem regWrite_queue {s : State} {q r : Nat} (v : Nat) (hq : q < 16384) (hr : s.hub.rot = true) (h8 : r % 8 = 0) (h64 : r < 64) :
    regWrite s (0x100000 + 64 * q + r) v = qWrite s q r v := by
  have hoff : (0x100000 + 64 * q + r - 0x100000) / 64 = q ∧ (0x100000 + 64 * q + r) % 64 = r := by omega
  have ho : offered s.hub (0x100000 + 64 * q + r) = true := by
    rw [offered, show (s.hub.booted && !s.hub.tripped) = true from hr]
    rfl
  simp only [regWrite]
  rw [if_neg (by simp only [ho, Bool.true_eq_false, or_false]; omega), if_neg (by omega), if_neg (by omega), if_neg (by omega), if_neg (by omega),
    if_pos (by omega), hoff.1, hoff.2]

theorem qWrite_base {s : State} {q v : Nat} (he : fld (s.queue q).cfg 4 1 = 0) (hv : locBad v (ringAlign (s.queue q)) 3 = 0) :
    qWrite s q 0x28 v = .next (s.setQueue q { s.queue q with base := BitVec.ofNat 64 v }) := by
  simp [qWrite, he, hv]

theorem qWrite_evq {s : State} {q v : Nat} (he : fld (s.queue q).cfg 4 1 = 0) (hv : v < 64) :
    qWrite s q 0x30 v = .next (s.setQueue q { s.queue q with evq := BitVec.ofNat 64 v }) := by
  simp [qWrite, he, hv]

theorem exec_eqrcWrite {s : State} {e : Nat} (ha : s.arg 0 = e) (he : e < 1025) (hr : s.hub.rot = true) :
    exec .eqrcWrite s = .next (setEvq s e { evqOf s e with rc := s.arg 1 % 2 ^ 64, out := false }) := by
  rw [show exec .eqrcWrite s = execEqrcWrite s from rfl, execEqrcWrite, ha]
  simp only [hr]
  rw [if_neg (by omega)]
  rfl

/-- Settles O42: each step of a queue or of a task's entry does as its own lemma says. -/
theorem queueSteps : Obligations.QueueSteps := by
  intro s q t hq ht x d v off sound
  refine ⟨fun ha hr => ⟨fun hs hd => ?_, fun hs h1 hd => ?_, exec_qrstWrite hq ha hr, exec_qcfgWrite hq ha hr⟩,
    fun ha hr => exec_queueWrites_unverified hq ha hr,
    fun ha hs => ⟨fun hcp hf w s2 hl hw => exec_recordFetch hq ha hs hcp hf hl hw, ?_, fun w rg u hw hi hu hfree => ?_⟩,
    fun ha => ⟨fun l hl hm hg => ?_, fun l hl hm => exec_taskEntry_blocked ht ha hl hm, fun l hl hm hg => ?_, fun e rest l hd hc hl => ?_⟩,
    fun z pos l late => ?_, fun e ha he hr => exec_eqrcWrite ha he hr, fun o v l ha hr hw hv => ?_⟩
  · rw [exec_qwcWrite hq ha hr hs, overrun_within (by simpa [Queue.dist] using hd)]
  · rw [exec_qwcWrite hq ha hr hs, overrun_beyond (by simpa using h1) (by simpa [Queue.dist] using hd), State.setQueue_queue, State.setQueue_setQueue]
  · intro w img s1 hw hi rg hst hl hrg
    exact exec_taskRecord hq ha hs hw hi (hst.imp_right fun ⟨h1, h2, h⟩ => ⟨⟨h1, h2⟩, h⟩) hl hrg
  · have h := exec_taskPlace hq ha hs hw hi hu hfree
    exact ⟨fun hn => h.trans (by rw [if_neg hn]), fun hn => h.trans (by rw [if_pos hn])⟩
  · refine (exec_taskEntry ht ha hl hm (.inl hg)).trans ?_
    rw [lateEntry_single _ hg]
    rfl
  · refine ⟨exec_taskEntry_early ht ha hl hm hg, fun hst hk => ?_, fun hst hk hs => ?_⟩
    · refine (exec_taskEntry ht ha hl hm (.inr hst)).trans ?_
      rw [lateEntry_met _ hk]
      rfl
    · refine (exec_taskEntry ht ha hl hm (.inr hst)).trans ?_
      rw [lateEntry_late _ hg hk hs]
      rfl
  · rw [exec_taskCompletionReport ht ha hd hc hl]
    simp only [freesEntry_iff]
  · have hs (n : Nat) (hn : n < 64) := enterTask_sreg z t pos l late hn
    refine ⟨hs 1 (by norm_num), hs 2 (by norm_num), hs 3 (by norm_num), ?_, fun n h5 hn => ?_, fun n hn => enterTask_rg z t pos l late hn, rfl,
      enterTask_taskid z t pos l late, rfl, rfl, rfl, fun hst => ?_, fun hb b _ => enterTask_bown z t pos l late hb b⟩
    · exact (hs 4 (by norm_num)).trans (congrArg (BitVec.ofNat 64) (popc_below _ _))
    · rw [hs n hn, if_neg (by omega), if_neg (by omega), if_neg (by omega), if_neg (by omega)]
    · simp [enterTask, hst]
  · have hx (r : Nat) (hr64 : r < 64) (ho : o = off + r) := exec_registerWrite hq ha hw hv (show off ≤ o by omega) (show o < off + 64 by omega)
    refine ⟨fun hup he => ⟨fun ho hb => ?_, fun ho hb => ?_⟩, fun hdown h1 h2 => ?_⟩
    · rw [hx 0x28 (by norm_num) ho, if_pos hup, ho, regWrite_queue v hq hr (by norm_num) (by norm_num), qWrite_base he hb]
    · rw [hx 0x30 (by norm_num) ho, if_pos hup, ho, regWrite_queue v hq hr (by norm_num) (by norm_num), qWrite_evq he hb]
    · rw [exec_registerWrite hq ha hw hv h1 h2, if_neg (ne_true_of_eq_false hdown)]

end Sys2Proof.Machine
end

section
/-! SUPPORT. A trap taken by a tile that the module does not have: the statement about the context image bounds the number of the tile in
focus nowhere, and beyond the scratchpads a mark of poison covers 32 bytes (R319, R325, R397; log 67). -/

namespace Sys2Proof.Machine

/-- A task with poisoned data in s1 on tile 2^34, whose save area would lie at 2^56, past every scratchpad; it has a monitor, and nothing is in
flight. -/
def strayTile : State :=
  { State.reset with
    self := 2 ^ 34,
    core := { Tile.reset with spr := { Spr.reset with tstat := 0, mcsb := 64 }, regs := { Regs.reset with pois := [1] } } }

/-- Its image marks the register beside s1 as well: the two lie in one 32-byte unit there. -/
theorem strayTile_marks : (poisonAt (takeTrap strayTile .priv 0 0 0) (saveArea strayTile strayTile.self + 0x100 + 8 * 2) 8).isSome = true := by
  decide +kernel

/-- Refutes O58: a register is not poisoned exactly where its word of the image is. The statement takes any number for the tile in focus; on
tile 2^34 the save area lies at 2^56, where marks cover 32 bytes, and the poison of s1 reads as that of s2. The module has no such tile: the
clause needs the bound of 1,024 tiles. -/
theorem not_trapsAndReturns : ¬Obligations.TrapsAndReturns := by
  intro h
  obtain ⟨_, _, _, himage, _⟩ := h strayTile .priv 0 0 0 (by norm_num) (by norm_num)
  obtain ⟨_, _, hregs⟩ := himage (by decide) (by decide) rfl
  obtain ⟨_, _, _, _, _, _, _, _, _, _, _, _, _, _, _, _, _, _, _, _, _, _, _, _, _, _, hpois⟩ := hregs rfl rfl (by decide)
  have h2 : 2 ∈ strayTile.core.regs.pois := (hpois 2 (by norm_num) (by norm_num)).2 strayTile_marks
  exact absurd h2 (by decide)

end Sys2Proof.Machine
end

section
/-! SUPPORT. The exact values of the float core: decoded codes, sums, products, fused forms and choices (R57 to R60). -/

namespace Sys2Proof.Machine

/-- The number that a finite value names (R57). -/
def FVal.val (v : FVal) : ℚ := match v with | .fin s m e => (if s then -1 else 1) * m * 2 ^ e | _ => 0

/-! ## Two numbers over one exponent -/

/-- An integer over an exponent names the number of its sign and magnitude. -/
theorem FVal.val_int (a e : Int) : (FVal.fin (decide (a < 0)) a.natAbs e).val = a * 2 ^ e := by
  rcases lt_or_ge a 0 with h | h
  · simp [FVal.val, h, Nat.cast_natAbs, abs_of_neg h]
  · simp [FVal.val, not_lt.2 h, Nat.cast_natAbs, abs_of_nonneg h]

/-- A signed magnitude keeps its number over a smaller exponent. -/
theorem FVal.val_lower (s : Bool) (m : Nat) {e e1 : Int} (h : e ≤ e1) :
    (((if s then -((m * 2 ^ (e1 - e).toNat : Nat) : Int) else (m * 2 ^ (e1 - e).toNat : Nat)) : Int) : ℚ) * 2 ^ e = (FVal.fin s m e1).val := by
  have hp : (2 : ℚ) ^ e1 = 2 ^ (e1 - e).toNat * 2 ^ e := by
    rw [← zpow_natCast, Int.toNat_of_nonneg (sub_nonneg.2 h), ← zpow_add₀ two_ne_zero, sub_add_cancel]
  rw [FVal.val, hp]
  cases s <;> push_cast <;> simp <;> ring

theorem alignPair_val (s1 s2 : Bool) (m1 m2 : Nat) (e1 e2 : Int) :
    let p := alignPair s1 m1 e1 s2 m2 e2
    (p.1 : ℚ) * 2 ^ p.2.2 = (FVal.fin s1 m1 e1).val ∧ (p.2.1 : ℚ) * 2 ^ p.2.2 = (FVal.fin s2 m2 e2).val :=
  ⟨FVal.val_lower s1 m1 (min_le_left e1 e2), FVal.val_lower s2 m2 (min_le_right e1 e2)⟩

/-! ## Sums and products -/

theorem addFin_val (s1 s2 : Bool) (m1 m2 : Nat) (e1 e2 : Int) :
    ∃ s m e, addFin s1 m1 e1 s2 m2 e2 = .fin s m e ∧ (FVal.fin s m e).val = (FVal.fin s1 m1 e1).val + (FVal.fin s2 m2 e2).val ∧
      (m = 0 → s = (s1 && s2 && m1 == 0 && m2 == 0)) := by
  obtain ⟨ha, hb⟩ := alignPair_val s1 s2 m1 m2 e1 e2
  unfold addFin
  generalize alignPair s1 m1 e1 s2 m2 e2 = p at ha hb
  obtain ⟨a, b, e⟩ := p
  dsimp only at ha hb ⊢
  by_cases h : m1 = 0 ∧ m2 = 0
  · obtain ⟨rfl, rfl⟩ := h
    exact ⟨s1 && s2, 0, 0, if_pos ⟨rfl, rfl⟩, by simp [FVal.val], by simp⟩
  · refine ⟨_, _, _, if_neg h, ?_, fun hz => ?_⟩
    · rw [FVal.val_int, ← ha, ← hb]; push_cast; ring
    · have hab : a + b = 0 := Int.natAbs_eq_zero.1 hz
      have hs : (s1 && s2 && m1 == 0 && m2 == 0) = false := by
        rw [Bool.and_assoc, Bool.and_eq_false_iff]
        exact .inr (by simpa [← not_and] using h)
      simp [hab, hs]

theorem mulFin_val (s1 s2 : Bool) (m1 m2 : Nat) (e1 e2 : Int) :
    (FVal.fin (s1 != s2) (m1 * m2) (e1 + e2)).val = (FVal.fin s1 m1 e1).val * (FVal.fin s2 m2 e2).val := by
  simp only [FVal.val, zpow_add₀ (two_ne_zero (α := ℚ)), Nat.cast_mul]
  cases s1 <;> cases s2 <;> simp <;> ring

/-- A value with its sign changed where a form of R207 says so. -/
theorem fneg_fin (n s : Bool) (m : Nat) (e : Int) : (if n then fneg (.fin s m e) else .fin s m e) = .fin (s != n) m e := by
  cases n <;> cases s <;> rfl

theorem fneg_val (n s : Bool) (m : Nat) (e : Int) : (FVal.fin (s != n) m e).val = (if n then -1 else 1) * (FVal.fin s m e).val := by
  cases n <;> cases s <;> simp [FVal.val]

/-! ## Order -/

/-- The order of finite values is that of their numbers, and of equal ones -0 is below +0 (R60). -/
theorem flt_fin (s1 s2 : Bool) (m1 m2 : Nat) (e1 e2 : Int) :
    flt (.fin s1 m1 e1) (.fin s2 m2 e2) = true ↔ (FVal.fin s1 m1 e1).val < (FVal.fin s2 m2 e2).val ∨
      (FVal.fin s1 m1 e1).val = (FVal.fin s2 m2 e2).val ∧ s1 = true ∧ s2 = false := by
  obtain ⟨ha, hb⟩ := alignPair_val s1 s2 m1 m2 e1 e2
  unfold flt
  dsimp only
  rw [← ha, ← hb]
  generalize alignPair s1 m1 e1 s2 m2 e2 = p
  obtain ⟨a, b, e⟩ := p
  have hp : (0 : ℚ) < 2 ^ e := by positivity
  simp only [mul_lt_mul_iff_left₀ hp, mul_left_inj' hp.ne', Int.cast_lt, Int.cast_inj]
  by_cases h : a = b <;> simp [h]

end Sys2Proof.Machine
end

section
/-! SUPPORT. The reductions over the pairwise tree, and BFP24 blocks (R74 to R77, R80, R216, R224, R225). -/

namespace Sys2Proof.Machine

/-! ## Reductions -/

/-- A reduction lands its root in every lane, whatever the lane guard (R216). -/
theorem rootOut_enabled {i : Instr} {s : State} (h : Enabled i s) (d f : Nat) (root : FVal) :
    rootOut i d f root s = .next (finish (s.landV 6 d (BitVec.allOnes 64)
      (ofLanes (fltW f) (fun _ => roundW (fltW f) (rmOf s.core.spr.fmt) (satOf s.core.spr.fmt) (rootNan root))))) :=
  issue_enabled i _ s h rfl rfl rfl rfl rfl

/-- Settles O21: the three reductions differ in their operation and its identity only. -/
theorem vectorReductions : Obligations.VectorReductions :=
  fun p _ => ⟨fun h => rootOut_enabled h p.d p.f _, fun h => rootOut_enabled h p.d p.f _, fun h => rootOut_enabled h p.d p.f _⟩

/-! ## BFP24 -/

theorem packFields_congr {w n : Nat} {f g : Nat → Nat} (h : ∀ j < n, f j = g j) : packFields w f n = packFields w g n := by
  induction n with
  | zero => rfl
  | succ n ih => rw [packFields_succ, packFields_succ, ih fun j hj => h j (hj.trans n.lt_succ_self), h n n.lt_succ_self]

theorem ofLanes_congr {w : Nat} {f g : Nat → Nat} (h : ∀ j < 1024 / w, f j = g j) : ofLanes w f = ofLanes w g :=
  congrArg (BitVec.ofNat 1024) (packFields_congr h)

theorem getD_map_range {α : Type} (f : Nat → α) (d : α) {n j : Nat} (hj : j < n) : ((List.range n).map f).getD j d = f j := by
  simp [List.getD_eq_getElem?_getD, List.getElem?_range hj]

theorem length_bfpWords (t : Tile) (n : Nat) : (bfpWords t n).length = 64 := by simp [bfpWords]

/-- A block is bad where one of its words 1 to 63 has a nonzero upper byte (R74). -/
theorem bfpBad_iff {ws : List Nat} (hl : ws.length = 64) :
    bfpBad ws = true ↔ ∃ j, 1 ≤ j ∧ j < 64 ∧ bits (ws.getD j 0) 24 8 ≠ 0 := by
  simp only [bfpBad, List.any_eq_true, bne_iff_ne, List.mem_iff_getElem, List.getElem_drop, List.length_drop, hl]
  constructor
  · rintro ⟨w, ⟨j, hj, rfl⟩, h⟩
    exact ⟨1 + j, by omega, by omega, by rwa [List.getD_eq_getElem _ _ (show 1 + j < ws.length by omega)]⟩
  · rintro ⟨j, h1, h64, h⟩
    refine ⟨_, ⟨j - 1, by omega, rfl⟩, ?_⟩
    rw [List.getD_eq_getElem _ _ (show j < ws.length by omega)] at h
    simpa only [show 1 + (j - 1) = j by omega] using h

/-- The exponent that a finite value asks of its block (R76). -/
def bfpAsk (v : FVal) : Int := match v with | .fin _ m e => (Nat.log2 m : Int) + e + 128 | _ => 0

/-- The exponent that a block of exponent x needs for some values (R76). -/
def bfpNeed (x : Nat) (vs : List FVal) : Int := vs.foldl (fun n v => if v.isZero then n else max n (bfpAsk v)) x

/-- A value times a power of two. -/
def FVal.scale (v : FVal) (k : Int) : FVal := match v with | .fin s m e => .fin s m (e + k) | v => v

/-- The exponent of a block, as its word 0 has it (R74). -/
def bfpX (ws : List Nat) : Nat := bits (ws.getD 0 0) 24 8

theorem bfpExp_eq (ws : List Nat) : bfpExp ws = bfpX ws := by cases ws <;> rfl

/-- The mantissa of element j of a sum, before it is scaled (R76). -/
def bfpPart (mode : Rm) (ws : List Nat) (vs : List FVal) (j : Nat) : Int :=
  let need := bfpNeed (bfpX ws) vs
  rint mode (scaleInt (sext (ws.getD j 0) 24) (bfpX ws - need)) + rint mode ((vs.getD j (.fin false 0 0)).scale (149 - need))

/-- Some mantissa of a sum does not fit (R76). -/
def bfpBig (mode : Rm) (ws : List Nat) (vs : List FVal) : Bool :=
  (List.range 64).any (fun j => decide (bfpPart mode ws vs j < -(2 ^ 23)) || decide (2 ^ 23 - 1 < bfpPart mode ws vs j))

/-- The mantissa of element j of a sum (R76). -/
def bfpSumMant (mode : Rm) (ws : List Nat) (vs : List FVal) (j : Nat) : Int :=
  if bfpBig mode ws vs then rint mode (scaleInt (bfpPart mode ws vs j) (-1)) else bfpPart mode ws vs j

/-- The exponent of a sum (R76). -/
def bfpTop (mode : Rm) (ws : List Nat) (vs : List FVal) : Int :=
  if bfpBig mode ws vs then bfpNeed (bfpX ws) vs + 1 else bfpNeed (bfpX ws) vs

/-- A sum is a NaN block (R76). -/
abbrev bfpSumNan (mode : Rm) (ws : List Nat) (vs : List FVal) : Prop := 0xFE ≤ bfpX ws ∨ vs.any FVal.notFinite ∨ 253 < bfpTop mode ws vs

theorem bfpNan_getD {j : Nat} (hj : j < 64) : bfpNan.getD j 0 = if j = 0 then 0xFF000000 else 0 := by
  rcases j with - | j
  · rfl
  · rw [if_neg j.succ_ne_zero]
    exact List.getD_replicate _ (Nat.succ_lt_succ_iff.1 hj)

/-- What the procedure of R76 does to a block, through the parts that the definitions above name. -/
theorem bfpAdd_eq (mode : Rm) {ws : List Nat} {vs : List FVal} (hw : ws.length = 64) (hv : vs.length = 64) :
    bfpAdd mode ws vs = if 0xFE ≤ bfpX ws ∨ vs.any FVal.notFinite then bfpNan else if 253 < bfpTop mode ws vs then bfpNan else
      (List.range 64).map (fun j => wrap 24 (bfpSumMant mode ws vs j) + if j = 0 then (bfpTop mode ws vs).toNat * 2 ^ 24 else 0) := by
  have hneed (f : Int → FVal → Int) (hf : ∀ n v, f n v = if v.isZero then n else max n (bfpAsk v)) :
      vs.foldl f (bfpX ws) = bfpNeed (bfpX ws) vs :=
    List.foldl_ext _ _ _ fun n v _ => hf n v
  have hparts (f : Int × FVal → Int) (hf : ∀ a v, f (a, v) = rint mode (scaleInt a (bfpX ws - bfpNeed (bfpX ws) vs)) +
      rint mode (v.scale (149 - bfpNeed (bfpX ws) vs))) :
      ((bfpMant ws).zip vs).map f = (List.range 64).map (bfpPart mode ws vs) := by
    refine List.ext_getElem (by simp [bfpMant, hw, hv]) fun i h1 h2 => ?_
    have hi : i < 64 := by simpa using h2
    simp [hf, bfpPart, bfpMant, hw, hv, hi]
  have hmant : (if bfpBig mode ws vs then ((List.range 64).map (bfpPart mode ws vs)).map (fun t => rint mode (scaleInt t (-1)))
      else (List.range 64).map (bfpPart mode ws vs)) = (List.range 64).map (bfpSumMant mode ws vs) := by
    unfold bfpSumMant
    cases bfpBig mode ws vs <;> simp
  unfold bfpAdd
  dsimp only
  rw [bfpExp_eq, hneed _ fun n v => by cases v with
    | nan c => rfl
    | inf s => rfl
    | fin s m e => by_cases hm : m = 0 <;> simp [FVal.isZero, bfpAsk, hm]]
  rw [hparts _ fun a v => rfl, List.any_map, show (List.range 64).any (_ ∘ bfpPart mode ws vs) = bfpBig mode ws vs from rfl, hmant]
  refine ite_congr rfl (fun _ => rfl) fun _ => ite_congr rfl (fun _ => rfl) fun _ => List.map_congr_left fun j hj => ?_
  rw [getD_map_range _ _ (List.mem_range.1 hj)]
  rfl

/-- The words of a sum, element by element (R76). -/
theorem bfpAdd_getD (mode : Rm) {ws : List Nat} {vs : List FVal} (hw : ws.length = 64) (hv : vs.length = 64) {j : Nat} (hj : j < 64) :
    (bfpAdd mode ws vs).getD j 0 = if bfpSumNan mode ws vs then (if j = 0 then 0xFF000000 else 0)
      else wrap 24 (bfpSumMant mode ws vs j) + if j = 0 then (bfpTop mode ws vs).toNat * 2 ^ 24 else 0 := by
  rw [bfpAdd_eq mode hw hv]
  by_cases h1 : 0xFE ≤ bfpX ws ∨ vs.any FVal.notFinite
  · have h : bfpSumNan mode ws vs := h1.imp_right .inl
    rw [if_pos h1, if_pos h, bfpNan_getD hj]
  · by_cases h2 : 253 < bfpTop mode ws vs
    · have h : bfpSumNan mode ws vs := .inr (.inr h2)
      rw [if_neg h1, if_pos h2, if_pos h, bfpNan_getD hj]
    · have h : ¬bfpSumNan mode ws vs := fun h => (or_assoc.2 h).elim h1 h2
      rw [if_neg h1, if_neg h2, if_neg h, getD_map_range _ _ hj]

/-- Settles O27: both instructions stop at a bad block; a sum is the model's element by element, and an expansion is the model's as it stands. -/
theorem blockFloat : Obligations.BlockFloat := by
  intro o s t mode words bad acc src x vs ask need part big mant top sum y first elem
  have hbad {i : Instr} {op : Op} {n : Fin 64} (he : Enabled i s) (hb : bad (words n))
      (ht : op.trap = if bfpBad (bfpWords t n) then some (.illegal, slotWordOf i) else none) :
      issue i op s = trapOut s .illegal t.iss.slot (slotWordOf i) .trapIssue :=
    issue_trap i op s he .illegal _ (ht.trans (if_pos ((bfpBad_iff (length_bfpWords t n)).2 hb)))
  have hgood {i : Instr} {n : Fin 64} (run : State → State) (he : Enabled i s) (hb : ¬bad (words n)) :
      issue i { trap := if bfpBad (bfpWords t n) then some (.illegal, slotWordOf i) else none, run := run } s = .next (finish (run s)) :=
    issue_enabled i _ s he (if_neg (mt (bfpBad_iff (length_bfpWords t n)).1 hb)) rfl rfl rfl rfl
  refine ⟨fun he hb => (hgood _ he hb).trans ?_, fun he hb => hbad he hb rfl, fun he hb => (hgood _ he hb).trans ?_, fun he hb => hbad he hb rfl⟩
  · have hv : vs.length = 64 := by
      dsimp only [vs]
      split <;> simp
    have hsum {j : Nat} (hj : j < 64) : (bfpAdd mode acc vs).getD j 0 = sum j :=
      bfpAdd_getD mode (length_bfpWords t o.d) hv hj
    have hlow : ofLanes 32 (fun j => (bfpAdd mode acc vs).getD j 0) = ofLanes 32 sum := ofLanes_congr fun j hj => hsum (by omega)
    have hhigh : ofLanes 32 (fun j => (bfpAdd mode acc vs).getD (32 + j) 0) = ofLanes 32 (fun j => sum (32 + j)) :=
      ofLanes_congr fun j hj => hsum (by omega)
    exact congrArg₂ (fun v w : VWord => Host.Outcome.next (finish (s.land 6 (.pair _ _ v w)))) hlow hhigh
  · rfl

end Sys2Proof.Machine
end

section
/-! SUPPORT. The matrix unit: groups, exact sums of products, scaled dot products, and the accumulator's own instructions (R78, R79, R103,
R266 to R272). -/

namespace Sys2Proof.Machine

/-! ## Issue -/

theorem mmaLat_eq (f : Nat) : mmaLat f = if f = 1 then 14 else if f = 2 then 13 else 12 := by
  rcases f with - | - | - | f <;> rfl

theorem mmaII_eq (f : Nat) : mmaII f = if f = 1 then 4 else if f = 2 then 3 else 2 := by
  rcases f with - | - | - | f <;> rfl

/-- No buffer in use is being filled where neither OA nor the right buffer of a group with rows is (R103). -/
theorem mmaUsed_filled {t : Tile} {oa : Nat} {gs : List (Nat × Nat × Nat)}
    (h : ∀ q ∈ gs, q.2.1 ≠ 0 → (t.buf oa).st ≠ 1 ∧ (t.buf q.2.2).st ≠ 1) :
    (mmaUsed oa gs).any (fun b => (t.buf b).st == 1) = false := by
  have hr : ∀ b ∈ (gs.filter (fun g => g.2.1 != 0)).map (·.2.2), (t.buf oa).st ≠ 1 ∧ (t.buf b).st ≠ 1 := by
    intro b hb
    obtain ⟨q, hq, rfl⟩ := List.mem_map.1 hb
    obtain ⟨hq, hn⟩ := List.mem_filter.1 hq
    exact h q hq (by simpa using hn)
  simp only [List.any_eq_false, beq_iff_eq]
  intro b hb
  unfold mmaUsed at hb
  dsimp only at hb
  split at hb
  · cases hb
  · next hne =>
    obtain ⟨c, hc⟩ := List.exists_mem_of_ne_nil _ hne
    rcases List.mem_cons.1 hb with rfl | hb
    · exact (hr c hc).1
    · exact (hr b hb).2

theorem mmaOp_enabled {i : Instr} {m : Mma} {s : State} (he : Enabled i s) (ht : m.trap s.core = none) (hw : s.core.mxWait = 0)
    (hf : ∀ q ∈ m.gs, q.2.1 ≠ 0 → (s.core.buf m.oa).st ≠ 1 ∧ (s.core.buf q.2.2).st ≠ 1) :
    let f := mmaFmt m.mf s.core.spr.fmt
    mmaOp i m s = .next (finish ((s.onCore (fun t => { t with mxWait := mmaII f * m.gs.length })).landAcc (mmaLat f) m.c m.rows 6
      ((List.range 64).map (m.value s.core)))) :=
  issue_enabled i _ s he ht rfl rfl (mmaUsed_filled hf) (by simp [hw])

/-- Group g of MMAG covers the rows after those of the groups before it, with the buffer g places on (R269). -/
theorem mmaGroups_range (n : Nat → Nat) (k ob : Nat) : mmaGroups ((List.range k).map n) ob =
    (List.range k).map (fun g => (∑ j ∈ Finset.range g, n j, n g, (ob + g) % 4)) := by
  unfold mmaGroups
  rw [List.length_map, List.length_range]
  refine List.map_congr_left fun g hg => ?_
  have hg : g < k := List.mem_range.1 hg
  rw [getD_map_range n 0 hg, ← List.map_take, List.take_range, Nat.min_eq_left hg.le]
  rfl

/-! ## Elements -/

theorem bit_packFields (f : Nat → Bool) {n r : Nat} (hr : r < n) : bit (packFields 1 (fun k => b2n (f k)) n) r = f r := by
  have h := bits_packFields 1 (fun k => b2n (f k)) hr
  rw [one_mul] at h
  rw [bit, h]
  cases f r <;> rfl

/-- The group that covers a row is the first of those that reach it, as find? takes it. -/
theorem find?_first {α : Type} (p : α → Bool) {pre post : List α} {q : α} (hq : p q = true) (hpre : ∀ x ∈ pre, p x = false) :
    (pre ++ q :: post).find? p = some q := by
  rw [List.find?_append, List.find?_eq_none.2 (by simpa using hpre), Option.none_or, List.find?_cons_of_pos hq]

/-! ## BF16: exact sums of products -/

theorem groupSum_cons (x : FVal) {xs : List FVal} (h : xs ≠ []) :
    groupSum (x :: xs) = if (fadd x (groupSum xs)).isNan then FVal.dnan else fadd x (groupSum xs) := by
  cases xs with
  | nil => exact absurd rfl h
  | cons y ys => rfl

theorem FVal.isNan_iff {v : FVal} : v.isNan = true ↔ ∃ c, v = .nan c := by cases v <;> simp [FVal.isNan]

theorem FVal.notFinite_iff {v : FVal} : v.notFinite = false ↔ ∃ s m e, v = .fin s m e := by cases v <;> simp [FVal.notFinite]

theorem fadd_nan_left (c : Nat) (v : FVal) : fadd (.nan c) v = .nan c := by cases v <;> rfl

theorem fadd_nan_right {v : FVal} (h : v.isNan = false) (c : Nat) : fadd v (.nan c) = .nan c := by
  cases v with
  | nan d => cases h
  | inf s => rfl
  | fin s m e => rfl

theorem isNan_fadd_of_right (v : FVal) {w : FVal} (h : w.isNan = true) : (fadd v w).isNan = true := by
  obtain ⟨c, rfl⟩ := FVal.isNan_iff.1 h
  cases v <;> rfl

/-- A NaN among the products makes the default NaN (R78). -/
theorem groupSum_nan {l : List FVal} {x : FVal} (hx : x ∈ l) (hn : x.isNan = true) : groupSum l = FVal.dnan := by
  induction l with
  | nil => cases hx
  | cons y ys ih =>
    by_cases hys : ys = []
    · subst hys
      obtain rfl := List.mem_singleton.1 hx
      exact if_pos hn
    · rw [groupSum_cons y hys]
      refine if_pos ?_
      rcases List.mem_cons.1 hx with rfl | hx
      · obtain ⟨c, rfl⟩ := FVal.isNan_iff.1 hn
        rw [fadd_nan_left]; rfl
      · exact isNan_fadd_of_right _ (by rw [ih hx]; rfl)

/-- A sum that is a NaN is the default one (R78). -/
theorem groupSum_dnan {l : List FVal} (h : (groupSum l).isNan = true) : groupSum l = FVal.dnan := by
  rcases l with - | ⟨x, - | ⟨y, ys⟩⟩
  · cases h
  · change (if x.isNan then FVal.dnan else x).isNan = true at h
    split at h
    · next hx => exact if_pos hx
    · next hx => exact absurd h hx
  · rw [groupSum_cons x (by simp)] at h ⊢
    split at h
    · next hn => exact if_pos hn
    · next hn => exact absurd h hn

/-- A sum of finite products is finite, and is their sum (R78). -/
theorem groupSum_finite {l : List FVal} (h : ∀ x ∈ l, x.notFinite = false) :
    (groupSum l).notFinite = false ∧ (groupSum l).val = (l.map FVal.val).sum := by
  induction l with
  | nil => exact ⟨rfl, by simp [groupSum, FVal.val]⟩
  | cons x xs ih =>
    obtain ⟨s1, m1, e1, rfl⟩ := FVal.notFinite_iff.1 (h x List.mem_cons_self)
    by_cases hxs : xs = []
    · subst hxs; simp [groupSum, FVal.isNan, FVal.notFinite]
    · obtain ⟨hf, hv⟩ := ih fun y hy => h y (List.mem_cons_of_mem _ hy)
      obtain ⟨s2, m2, e2, h2⟩ := FVal.notFinite_iff.1 hf
      obtain ⟨s, m, e, ha, hval, -⟩ := addFin_val s1 s2 m1 m2 e1 e2
      have hfadd : fadd (.fin s1 m1 e1) (groupSum xs) = .fin s m e := by rw [h2]; exact ha
      rw [groupSum_cons _ hxs, hfadd, List.map_cons, List.sum_cons, ← hv, h2, ← hval]
      exact ⟨rfl, rfl⟩

/-- A sum of products without a NaN and with infinities of one sign is that infinity (R78). -/
theorem groupSum_inf (z : Bool) {l : List FVal} (h : ∀ x ∈ l, x.isNan = false ∧ x ≠ .inf (!z)) (hz : .inf z ∈ l) : groupSum l = .inf z := by
  induction l with
  | nil => cases hz
  | cons x xs ih =>
    by_cases hxs : xs = []
    · subst hxs
      obtain rfl := List.mem_singleton.1 hz
      rfl
    · have hrest : ∀ y ∈ xs, y.isNan = false ∧ y ≠ .inf (!z) := fun y hy => h y (List.mem_cons_of_mem _ hy)
      have hsum : fadd x (groupSum xs) = .inf z := by
        by_cases hzs : .inf z ∈ xs
        · rw [ih hrest hzs]
          obtain ⟨hn, hi⟩ := h x List.mem_cons_self
          cases x with
          | nan c => cases hn
          | inf t => cases t <;> cases z <;> simp_all [fadd]
          | fin s m e => rfl
        · obtain rfl : .inf z = x := (List.mem_cons.1 hz).resolve_right hzs
          have hf : ∀ y ∈ xs, y.notFinite = false := by
            intro y hy
            obtain ⟨hn, hi⟩ := hrest y hy
            cases y with
            | nan c => cases hn
            | inf t => cases t <;> cases z <;> simp_all
            | fin s m e => rfl
          obtain ⟨s, m, e, he⟩ := FVal.notFinite_iff.1 (groupSum_finite hf).1
          rw [he]; rfl
      rw [groupSum_cons _ hxs, hsum]; rfl

/-- Infinities of both signs make the default NaN (R78). -/
theorem groupSum_infs {l : List FVal} (h : ∀ z, .inf z ∈ l) : groupSum l = FVal.dnan := by
  induction l with
  | nil => cases h true
  | cons x xs ih =>
    by_cases hn : ∃ y ∈ x :: xs, y.isNan = true
    · obtain ⟨y, hy, hn⟩ := hn
      exact groupSum_nan hy hn
    · have hn (y : FVal) (hy : y ∈ x :: xs) : y.isNan = false := by simpa using fun h => hn ⟨y, hy, h⟩
      have hxs : xs ≠ [] := by
        rintro rfl
        exact absurd ((List.mem_singleton.1 (h true)).trans (List.mem_singleton.1 (h false)).symm) (by simp)
      rw [groupSum_cons _ hxs]
      refine if_pos ?_
      by_cases hall : ∀ z, .inf z ∈ xs
      · rw [ih hall]; exact isNan_fadd_of_right x rfl
      · obtain ⟨z, hz⟩ := not_forall.1 hall
        obtain rfl : .inf z = x := (List.mem_cons.1 (h z)).resolve_right hz
        have hz' : .inf (!z) ∈ xs := (List.mem_cons.1 (h (!z))).resolve_left (by simp)
        rw [groupSum_inf (!z) (fun y hy => ⟨hn y (List.mem_cons_of_mem _ hy), fun he => hz (by simpa [he] using hy)⟩) hz']
        cases z <;> rfl

theorem mem_map_range {α : Type} {p : Nat → α} {n : Nat} {x : α} : x ∈ (List.range n).map p ↔ ∃ k < n, p k = x := by simp

/-- The sum of sixteen products: a NaN or infinities of both signs make the default NaN, other infinities stay, and finite products are added
exactly (R78). -/
theorem groupSum_products (p : Nat → FVal) :
    let g := groupSum ((List.range 16).map p)
    (((∃ k < 16, (p k).isNan = true) ∨ (∃ k < 16, p k = .inf true) ∧ ∃ k < 16, p k = .inf false) → g = FVal.dnan) ∧
      (∀ z, (∀ k < 16, (p k).isNan = false ∧ p k ≠ .inf (!z)) → (∃ k < 16, p k = .inf z) → g = .inf z) ∧
      ((∀ k < 16, (p k).notFinite = false) → g.notFinite = false ∧ g.val = ∑ k ∈ Finset.range 16, (p k).val) := by
  have hall {P : FVal → Prop} (h : ∀ k < 16, P (p k)) (v : FVal) (hv : v ∈ (List.range 16).map p) : P v := by
    obtain ⟨k, hk, rfl⟩ := mem_map_range.1 hv
    exact h k hk
  refine ⟨?_, fun z hz hi => groupSum_inf z (hall hz) (mem_map_range.2 hi), fun hfin => ?_⟩
  · rintro (⟨k, hk, hn⟩ | ⟨ht, hf⟩)
    · exact groupSum_nan (mem_map_range.2 ⟨k, hk, rfl⟩) hn
    · exact groupSum_infs fun z => mem_map_range.2 (by cases z; exacts [hf, ht])
  · have hs := groupSum_finite (hall hfin)
    rw [List.map_map] at hs
    exact hs

/-- A rounded sum of products is rounded as any other, for its NaN is the default one (R78). -/
theorem accRound_groupSum (mode : Rm) (sat : Bool) (l : List FVal) : accRound mode sat (groupSum l) = fval (roundF mode sat (groupSum l)) := by
  by_cases h : (groupSum l).isNan
  · rw [groupSum_dnan h]
    exact (by decide : FVal.dnan = fval (if bit 0x7FC00000 22 then 0x7FC00000 else 0x7FC00000 + 4194304))
  · exact if_neg h

/-! ## MXINT: scaled dot products -/

theorem foldl_add_range (f : Nat → Int) (n : Nat) : ((List.range n).map f).foldl (· + ·) 0 = ∑ i ∈ Finset.range n, f i := by
  rw [← List.sum_eq_foldl]
  rfl

theorem blockDot_eq {w : Nat} (hw : 0 < w) (A B b : Nat) : blockDot w A B b = ∑ i ∈ Finset.range 32,
    (BitVec.ofNat w (bits A (w * (32 * b + i)) w)).toInt * (BitVec.ofNat w (bits B (w * (32 * b + i)) w)).toInt := by
  simp only [blockDot, foldl_add_range, sext_small _ w hw]

/-- The exact scaled sum of the blocks of an MXINT element, over the exponent of its format (R79). -/
def mxSum (w nb A B : Nat) (sa sb : Nat → Nat) : FVal :=
  let tot : Int := ∑ b ∈ Finset.range nb, blockDot w A B b * 2 ^ (sa b + sb b)
  .fin (decide (tot < 0)) tot.natAbs (-254 - 2 * ((w : Int) - 2))

theorem mxSum_val (w nb A B : Nat) (sa sb : Nat → Nat) : (mxSum w nb A B sa sb).val =
    ∑ b ∈ Finset.range nb, (blockDot w A B b : ℚ) * 2 ^ ((sa b + sb b : Int) - 254 - 2 * ((w : Int) - 2)) := by
  rw [mxSum, FVal.val_int, Int.cast_sum, Finset.sum_mul]
  refine Finset.sum_congr rfl fun b _ => ?_
  have he : (sa b + sb b : Int) - 254 - 2 * ((w : Int) - 2) = ((sa b + sb b : Nat) : Int) + (-254 - 2 * ((w : Int) - 2)) := by push_cast; ring
  rw [he, zpow_add₀ two_ne_zero, zpow_natCast, ← mul_assoc]
  push_cast
  rfl

theorem mmaMx_nan {f : Nat} (mode : Rm) (sat : Bool) {ra sa rb sb : Nat} (acc : FVal)
    (h : ∃ b < scaleBytes f, bits sa (8 * b) 8 = 255 ∨ bits sb (8 * b) 8 = 255) : mmaMx f mode sat ra sa rb sb acc = FVal.dnan := by
  obtain ⟨b, hb, h⟩ := h
  refine if_pos (List.any_eq_true.2 ⟨b, List.mem_range.2 hb, ?_⟩)
  simpa using h

theorem mmaMx_sum {f : Nat} (mode : Rm) (sat : Bool) {ra sa rb sb : Nat} (acc : FVal)
    (h : ∀ b < scaleBytes f, bits sa (8 * b) 8 ≠ 255 ∧ bits sb (8 * b) 8 ≠ 255) : mmaMx f mode sat ra sa rb sb acc =
      accRound mode sat (fadd acc (mxSum (mmaBits f) (scaleBytes f) ra rb (fun b => bits sa (8 * b) 8) (fun b => bits sb (8 * b) 8))) := by
  have hn : ¬((List.range (scaleBytes f)).any (fun b => bits sa (8 * b) 8 == 255 || bits sb (8 * b) 8 == 255)) = true := by
    simp only [List.any_eq_true, List.mem_range, Bool.or_eq_true, beq_iff_eq, not_exists, not_and, not_or]
    exact h
  rw [mmaMx]
  dsimp only
  rw [if_neg hn, foldl_add_range]
  rfl

/-! ## The values of an operation -/

/-- A group covers a row (R269). -/
abbrev covers (r : Nat) (q : Nat × Nat × Nat) : Prop := q.1 ≤ r ∧ r < q.1 + q.2.1

theorem rows_bit (m : Mma) {r : Nat} (hr : r < 8) : bit m.rows r = true ↔ ∃ q ∈ m.gs, covers r q := by
  rw [Mma.rows, bit_packFields _ hr]
  simp [covers]

theorem value_uncovered (m : Mma) (t : Tile) {r c : Nat} (hc : c < 8) (h : ∀ q ∈ m.gs, ¬covers r q) :
    m.value t (8 * r + c) = t.regs.accU.getD (64 * m.c + (8 * r + c)) 0 := by
  have hn : m.gs.find? (fun g => decide (g.1 ≤ r) && decide (r < g.1 + g.2.1)) = none := by
    rw [List.find?_eq_none]
    exact fun q hq => by simpa using h q hq
  rw [Mma.value]
  dsimp only
  rw [show (8 * r + c) / 8 = r by omega, hn]

theorem value_covered (m : Mma) (t : Tile) {r c : Nat} (hc : c < 8) {pre post : List (Nat × Nat × Nat)} {q : Nat × Nat × Nat}
    (hg : m.gs = pre ++ q :: post) (hq : covers r q) (hpre : ∀ p ∈ pre, ¬covers r p) :
    m.value t (8 * r + c) = BitVec.ofNat 32 (roundF .rne false (mmaElem (mmaFmt m.mf t.spr.fmt) (rmOf t.spr.fmt) (satOf t.spr.fmt)
      (t.buf m.oa) (t.buf q.2.2) r c (if m.zero then .fin false 0 0 else fval (t.regs.accU.getD (64 * m.c + (8 * r + c)) 0).toNat))) := by
  have hf : m.gs.find? (fun g => decide (g.1 ≤ r) && decide (r < g.1 + g.2.1)) = some q := by
    rw [hg]
    exact find?_first _ (by simpa using hq) fun p hp => by simpa using hpre p hp
  rw [Mma.value]
  dsimp only
  rw [show (8 * r + c) / 8 = r by omega, hf, show (8 * r + c) % 8 = c by omega]

/-- Product k of group j of a BF16 element (R78). -/
def bfProduct (A B j k : Nat) : FVal := fmul (fvalBf (bits A (16 * (16 * j + k)) 16)) (fvalBf (bits B (16 * (16 * j + k)) 16))

theorem mmaElem_bf (mode : Rm) (sat : Bool) (x y : Osb) (r c : Nat) (acc : FVal) :
    let g (j : Nat) : FVal := groupSum ((List.range 16).map (bfProduct (x.rows.getD r 0) (y.rows.getD c 0) j))
    let rnd (v : FVal) : FVal := fval (roundF mode sat v)
    mmaElem 0 mode sat x y r c acc =
      accRound mode sat (fadd (accRound mode sat (fadd (accRound mode sat (fadd acc (rnd (g 0)))) (rnd (g 1)))) (rnd (g 2))) := by
  intro g rnd
  simp only [rnd, ← accRound_groupSum, g]
  rfl

/-- The bits of an element and the blocks of a row, for each MXINT format (R79). -/
theorem mx_format {f w nb : Nat} (h : (f, w, nb) ∈ [(1, 8, 3), (2, 6, 4), (3, 4, 6)]) :
    f ≠ 0 ∧ mmaBits f = w ∧ scaleBytes f = nb ∧ 0 < w := by
  simp only [List.mem_cons, Prod.mk.injEq, List.not_mem_nil, or_false] at h
  rcases h with ⟨rfl, rfl, rfl⟩ | ⟨rfl, rfl, rfl⟩ | ⟨rfl, rfl, rfl⟩ <;> decide

theorem mmaElem_mx {f : Nat} (hf : f ≠ 0) (mode : Rm) (sat : Bool) (x y : Osb) (r c : Nat) (acc : FVal) :
    mmaElem f mode sat x y r c acc = mmaMx f mode sat (x.rows.getD r 0) (x.scales.getD r 0) (y.rows.getD c 0) (y.scales.getD c 0) acc :=
  if_neg hf

/-- Settles O31: the scoreboard's branch by the shared lemma of its instructions, an element by the first group that covers its row. -/
theorem matrixUnit : Obligations.MatrixUnit := by
  refine ⟨?_, ?_, ?_⟩
  · intro o g s t d one groups ends
    have hends {i : Instr} {m : Mma} (hx : exec i s = mmaOp i m s) : ends i m := fun he ht hw hf => by
      rw [hx, mmaOp_enabled he ht hw hf, mmaLat_eq, mmaII_eq]
    refine ⟨hends rfl, hends rfl, hends ?_⟩
    dsimp only [groups]
    rw [← mmaGroups_range (fun k => bits d (4 * k) 4) (g.k + 1) g.y]
    rfl
  · intro m t r hr c hc f n old acc val rnd plus cov is
    refine ⟨fun h => ⟨?_, value_uncovered m t hc h⟩, ?_⟩
    · rw [Bool.eq_false_iff]
      exact fun hb => let ⟨q, hq, hc⟩ := (rows_bit m hr).1 hb; h q hq hc
    · intro pre q post hg hq hpre x y A B
      have hv := value_covered m t hc hg hq hpre
      refine ⟨(rows_bit m hr).2 ⟨q, by simp [hg], hq⟩, fun hf => ?_, fun w nb hw => ?_⟩
      · refine ⟨fun j => groupSum ((List.range 16).map (bfProduct A B j)), ?_, fun j _ => groupSum_products (bfProduct A B j)⟩
        exact hv.trans (by rw [show mmaFmt m.mf t.spr.fmt = 0 from hf, mmaElem_bf]; rfl)
      · obtain ⟨hf, rfl, rfl, hpos⟩ := mx_format hw
        rw [mmaElem_mx hf] at hv
        intro code sa sb dot
        refine ⟨fun hs => ?_, fun hs => ⟨mxSum (mmaBits f) (scaleBytes f) A B sa sb, ?_, rfl, ?_⟩⟩
        · rw [mmaMx_nan _ _ _ hs] at hv
          exact hv
        · rw [mmaMx_sum _ _ _ hs] at hv
          exact hv
        · refine (mxSum_val _ _ A B sa sb).trans (Finset.sum_congr rfl fun b _ => ?_)
          rw [blockDot_eq hpos]
  · intro o c s t e v
    refine ⟨fun h => ?_, fun h hk => ?_, fun h hk => ?_, fun h => issue_enabled (.mxclr c) _ s h rfl rfl rfl rfl rfl⟩
    · exact issue_enabled (.mxrd o) _ s h rfl rfl rfl rfl rfl
    · exact (issue_enabled (.mxwr o) _ s h rfl rfl rfl rfl rfl).trans (congrArg (Host.Outcome.next <| finish ·) (if_neg hk.ne))
    · exact (issue_enabled (.mxwr o) _ s h rfl rfl rfl rfl rfl).trans (congrArg (Host.Outcome.next <| finish ·) (if_pos hk))

end Sys2Proof.Machine
end

section
/-! SUPPORT. What device agents' accesses, events and traps leave alone of the tile in focus: the tile itself, or its FMT (R67, R348, R395, R396,
R467). -/

namespace Sys2Proof.Machine

/-! ## Accesses of device agents -/

@[simp] theorem State.checks_core (s : State) (us : List Nat) : (s.checks us).core = s.core := (s.checks_units us).1

@[simp] theorem State.corrects_core (s : State) (f : Flaw) : (s.corrects f).core = s.core := by
  unfold State.corrects; split <;> simp

theorem brecOn_succ {motive : Nat → Type} (F : (n : Nat) → Nat.below (motive := motive) n → motive n) (n : Nat) :
    ∃ r : Nat.below (motive := motive) (n + 1), r.1 = Nat.brecOn n F ∧ Nat.brecOn (n + 1) F = F (n + 1) r :=
  ⟨(Nat.brecOn.go (n + 1) F).2, rfl, rfl⟩

/-- One level of a walk, with r for the levels below it. The kernel does not finish the equation that unfold writes for walkFrom, so this one goes
through the recursor. -/
theorem walkFrom_succ (m cls dia lvl : Nat) :
    ∃ r : Nat.below (motive := fun _ => State → Nat → List (Nat × Nat) → WalkEnd × List (Nat × Nat) × State) (lvl + 1),
      (∀ s table acc, r.1 s table acc = walkFrom s m cls dia lvl table acc) ∧
      ∀ s table acc, walkFrom s m cls dia (lvl + 1) table acc = walkFrom._f m cls dia (lvl + 1) r s table acc := by
  obtain ⟨r, hr, h⟩ := brecOn_succ (walkFrom._f m cls dia) lvl
  refine ⟨r, fun s table acc => ?_, fun s table acc => ?_⟩
  · rw [hr]; delta walkFrom; rfl
  · rw [← h]; delta walkFrom; rfl

@[simp] theorem walkFrom_core (s : State) (m cls dia lvl table : Nat) (acc : List (Nat × Nat)) :
    (walkFrom s m cls dia lvl table acc).2.2.core = s.core := by
  induction lvl generalizing s table acc with
  | zero => rfl
  | succ lvl ih =>
    obtain ⟨r, hr, h⟩ := walkFrom_succ m cls dia lvl
    rw [h]
    dsimp only [walkFrom._f]
    cases walkHit s m (table + 8 * walkIndex lvl dia) with
    | some e =>
      dsimp only
      cases walkEntry cls lvl e with
      | inl n => cases n <;> simp [hr, ih]
      | inr r => simp
    | none =>
      dsimp only
      split
      · rfl
      split
      · simp
      cases walkEntry cls lvl _ with
      | inl n => cases n <;> simp [hr, ih]
      | inr r => simp

@[simp] theorem walk_core (s : State) (m cls dia : Nat) : (walk s m cls dia).2.2.core = s.core := walkFrom_core _ _ _ _ _ _ _

@[simp] theorem leafIn_core (s : State) (m cls dia base size : Nat) (r w grant : Bool) (path : List (Nat × Nat)) :
    (leafIn s m cls dia base size r w grant path).core = s.core := by
  unfold leafIn
  dsimp only
  split <;> rfl

@[simp] theorem xlate_core (s : State) (cls tgt dia : Nat) (r w : Bool) : (xlate s cls tgt dia r w).2.core = s.core := by
  have hw := walk_core s (homeOf cls tgt dia) cls dia
  unfold xlate
  dsimp only
  generalize walk s (homeOf cls tgt dia) cls dia = x at hw
  obtain ⟨e, path, s'⟩ := x
  (repeat' split) <;> simp_all

@[simp] theorem locPlace_core (s : State) (d l off : Nat) (wr : Bool) : (locPlace s d l off wr).2.core = s.core := by
  have hx := xlate_core s (locCls l) (locTgt l) (locDia l + off) (!wr) wr
  unfold locPlace
  dsimp only
  generalize xlate s _ _ _ (!wr) wr = x at hx
  obtain ⟨e, s'⟩ := x
  cases e <;> (repeat' split) <;> simp_all

theorem locPut_core {s s' : State} {k n data : Nat} (h : locPut s k n data = some s') : s'.core = s.core := by
  unfold locPut at h
  dsimp only at h
  split at h
  · cases h; simp
  · cases h

theorem locPlace_place_core {s s' : State} {d l off : Nat} {wr : Bool} {r : Except LocErr Nat} (h : locPlace s d l off wr = (r, s')) :
    s'.core = s.core := by
  simpa [h] using locPlace_core s d l off wr

@[simp] theorem locWrite_core (s : State) (d l off : Nat) (ws : List Nat) : (locWrite s d l off ws).2.core = s.core := by
  fun_induction locWrite s d l off ws with
  | case1 => rfl
  | case2 _ _ _ _ _ _ _ _ _ hp | case7 _ _ _ _ _ _ _ hp => exact locPlace_place_core hp
  | case3 _ _ _ _ _ _ _ _ _ hp _ _ hw ih | case5 _ _ _ _ _ _ _ _ _ hp _ _ hw ih | case8 _ _ _ _ _ _ _ hp _ hw ih =>
    exact ih.trans ((locPut_core hw).trans (locPlace_place_core hp))
  | case4 _ _ _ _ _ _ _ _ _ hp | case6 _ _ _ _ _ _ _ _ _ hp | case9 _ _ _ _ _ _ _ hp => exact locPlace_place_core hp

/-! ## Events -/

@[simp] theorem noteFault_core (s : State) (m : Nat) (r : FReq) : (noteFault s m r).2.2.core = s.core := by
  unfold noteFault
  dsimp only
  split <;> simp

@[simp] theorem State.onEvq_core (s : State) (d eq : Nat) (f : EvQ → EvQ) : (s.onEvq d eq f).core = s.core := by
  unfold State.onEvq
  split <;> simp

@[simp] theorem holdEvent_core (s : State) (d eq : Nat) (e : Ev) : (holdEvent s d eq e).core = s.core := rfl

@[simp] theorem ringFault_core (s : State) (d eq : Nat) (e : LocErr) : (ringFault s d eq e).core = s.core := by
  cases e with
  | wait => rfl
  | poison => rfl
  | fault m cls tgt dia reason =>
    unfold ringFault
    dsimp only
    (repeat' split) <;> simp

@[simp] theorem sendDue_core (s : State) (d eq : Nat) : (sendDue s d eq).core = s.core := by
  unfold sendDue
  split <;> simp

@[simp] theorem evWrite_core (s : State) (d eq : Nat) (e : Ev) : (evWrite s d eq e).2.core = s.core := by
  unfold evWrite
  dsimp only
  split
  · rfl
  · have hw := locWrite_core s d (s.evq d eq).base.toNat (64 * ((s.evq d eq).wc % depthOf (s.evq d eq).cfg))
      [e.w0, e.w1, e.w2, e.w3, e.w4, e.w5, 0, 0]
    split <;> simp_all

/-- Steps that each leave the tile in focus alone leave it alone together. -/
theorem foldl_core {α β : Type} (core : β → Tile) (f : β → α → β) (hf : ∀ b a, core (f b a) = core b) (l : List α) (b : β) :
    core (l.foldl f b) = core b := by
  induction l generalizing b with
  | nil => rfl
  | cons a l ih => exact (ih _).trans (hf b a)

@[simp] theorem pumpDie_core (s : State) (d : Nat) : (pumpDie s d).core = s.core := by
  unfold pumpDie
  dsimp only
  rw [State.onDie_core, foldl_core (fun a : State × List (Nat × Ev) => a.1.core)]
  · dsimp only
    rw [foldl_core State.core]
    · simp
    · simp
  · intro b p
    have hw := evWrite_core b.1 d p.1 p.2
    (repeat' split) <;> simp_all

@[simp] theorem State.postDie_core (s : State) (d eq : Nat) (e : Ev) : (s.postDie d eq e).core = s.core := by
  unfold State.postDie
  have hw := evWrite_core (pumpDie s d) d eq e
  dsimp only
  (repeat' split) <;> simp_all

@[simp] theorem State.postCp_core (s : State) (d code w2 w3 : Nat) : (s.postCp d code w2 w3).core = s.core := by
  unfold State.postCp State.postDev
  split <;> simp

@[simp] theorem State.postQueue_core (s : State) (q code tag w2 w3 : Nat) : (s.postQueue q code tag w2 w3).core = s.core := by
  unfold State.postQueue
  split <;> simp

@[simp] theorem completeRec_core (s : State) (q n status cnt : Nat) (late : Bool) : (completeRec s q n status cnt late).core = s.core := by
  unfold completeRec
  dsimp only
  (repeat' split) <;> simp

/-! ## Traps -/

/-- Serving the pre-emption requests of a tile empties their list in its task (R406). -/
@[simp] theorem servePreempt_core (s : State) : (servePreempt s).core = s.core.onTask (fun k => { k with preqRecs := [] }) := by
  unfold servePreempt
  rw [foldl_core State.core]
  · simp
  · simp

@[simp] theorem writeWords_core (s : State) (k : Nat) (ws : List Nat) : (writeWords s k ws).core = s.core := rfl

@[simp] theorem markImage_core (s : State) (base : Nat) (t : Tile) : (markImage s base t).core = s.core := by
  unfold markImage
  rw [foldl_core State.core]
  simp

@[simp] theorem Req.deliver_spr (r : Req) (t : Tile) : (r.deliver t).spr = t.spr := by
  unfold Req.deliver
  (repeat' split) <;> rfl

theorem foldl_deliver_spr (l : List Req) (t : Tile) : (l.foldl (fun t r => r.deliver t) t).spr = t.spr := by
  induction l generalizing t with
  | nil => rfl
  | cons r l ih => exact (ih _).trans (r.deliver_spr t)

@[simp] theorem Tile.withdraw_spr (t : Tile) : t.withdraw.spr = t.spr := foldl_deliver_spr _ t

@[simp] theorem Tile.sfltStands_spr (t : Tile) : t.sfltStands.spr = t.spr := by
  unfold Tile.sfltStands
  dsimp only
  split <;> rfl

/-- What a trap latches it takes from the results in flight, so FMT has the value that the trapping bundle reads (R113, R395). -/
@[simp] theorem Tile.latch_fmt (t : Tile) : t.latch.spr.fmt = t.spr.fmt := by
  unfold Tile.latch
  dsimp only

theorem leaveTask_fmt (s : State) (stop : Bool) : (leaveTask s stop).core.spr.fmt = s.core.spr.fmt := by
  unfold leaveTask
  extract_lets t _ _ _ hasMon t1
  have ht : t1.spr.fmt = s.core.spr.fmt := by
    show (if hasMon then t.latch.sfltStands else t.latch).spr.fmt = _
    cases hasMon <;> simp [t]
  clear_value t1
  split
  · cases stop <;> simp +zetaDelta [ht]
  · simp +zetaDelta [ht]

theorem takeTrap_fmt (s : State) (c : Cause) (slot tval : Nat) (tpc : Word) : (takeTrap s c slot tval tpc).core.spr.fmt = s.core.spr.fmt := by
  unfold takeTrap
  extract_lets
  rw [apply_ite (fun u : State => u.core.spr.fmt), leaveTask_fmt]
  exact ite_self _

theorem trapOut_fmt (s : State) (c : Cause) (slot tval : Nat) (g : Tag) :
    ∃ s', trapOut s c slot tval g = .next s' ∧ s'.core.spr.fmt = s.core.spr.fmt :=
  ⟨_, rfl, takeTrap_fmt s c slot tval s.core.spr.pc⟩

/-- FMT holds no value that sets a reserved bit or gives RM, AFMT or BFMT a reserved code (R66, R67). -/
theorem fmtOk_refused {v : Nat}
    (h : bits v 17 47 ≠ 0 ∨ bits v 13 3 ≠ 0 ∨ bits v 10 2 ≠ 0 ∨ bits v 6 2 ≠ 0 ∨ 2 ≤ bits v 8 2 ∨ 4 ≤ bits v 3 3 ∨ 4 ≤ bits v 0 3) :
    fmtOk v = false := by
  by_contra hok
  simp only [fmtOk, Bool.not_eq_false, Bool.and_eq_true, decide_eq_true_eq, beq_iff_eq] at hok
  simp only [bits] at h
  omega

theorem mtsTrap_fmt {s : State} {v : Word} (h : fmtOk v.toNat = false) : mtsTrap s 2 v = some (.illegal, 2) := by
  have hr : v.toNat &&& specReserved 2 = 0 := Nat.and_zero _
  simp [mtsTrap, specOpen, hr, h]

/-- Settles O49: the value fails fmtOk, which MTS finds at issue and SETFMT at decode, and no trap touches FMT. -/
theorem fmtRefused : Obligations.FmtRefused := by
  intro o i s refused traps
  have trapped {j : Instr} {g : Tag} (h : exec j s = trapOut s .illegal s.core.iss.slot 2 g) : traps j g := by
    obtain ⟨s', hs', hf⟩ := trapOut_fmt s .illegal s.core.iss.slot 2 g
    exact ⟨s', h.trans hs', hs'.symm, hf⟩
  refine ⟨fun he hi hv => trapped (exec_mts_trap he ?_), fun hv => trapped ?_⟩
  · rw [hi, mtsTrap_fmt (fmtOk_refused hv)]
  · exact issue_illegal (.setfmt i) _ s rfl (.inl (fmtOk_refused hv))

end Sys2Proof.Machine
end

section
/-! SUPPORT. Rounding: the floor and the fraction of a dyadic number, the codes of a format as an ordered set, and what each mode gives (R57, R61
to R63). -/

namespace Sys2Proof.Machine

/-! ## Floors of dyadic numbers -/

theorem shiftFloor_eq (m : Nat) (k : Int) : shiftFloor m k = ⌊(m : ℚ) * 2 ^ k⌋₊ := by
  unfold shiftFloor
  split
  · next h =>
    lift k to ℕ using h
    rw [Int.toNat_natCast, zpow_natCast]
    exact_mod_cast (Nat.floor_natCast (R := ℚ) (m * 2 ^ k)).symm
  · next h =>
    obtain ⟨n, rfl⟩ : ∃ n : ℕ, k = -n := ⟨(-k).toNat, by omega⟩
    rw [neg_neg, Int.toNat_natCast, zpow_neg, zpow_natCast, ← div_eq_mul_inv]
    exact_mod_cast (Nat.floor_div_eq_div (K := ℚ) m (2 ^ n)).symm

theorem shiftExact_iff (m : Nat) (k : Int) : shiftExact m k = true ↔ ((shiftFloor m k : Nat) : ℚ) = m * 2 ^ k := by
  unfold shiftExact shiftFloor
  by_cases h : 0 ≤ k
  · lift k to ℕ using h
    simp
  · obtain ⟨n, rfl⟩ : ∃ n : ℕ, k = -n := ⟨(-k).toNat, by omega⟩
    have hp : (2 : ℚ) ^ n ≠ 0 := by positivity
    rw [neg_neg, Int.toNat_natCast, zpow_neg, zpow_natCast, ← div_eq_mul_inv, eq_div_iff hp, if_neg h]
    simp only [h, decide_false, Bool.false_or, beq_iff_eq]
    rw [← Nat.dvd_iff_mod_eq_zero]
    constructor
    · intro hd; exact_mod_cast Nat.div_mul_cancel hd
    · intro hd; exact Dvd.intro_left _ (by exact_mod_cast hd)

/-- Twice a dyadic number. -/
theorem two_mul_shift (m : Nat) (k : Int) : (m : ℚ) * 2 ^ (k + 1) = 2 * (m * 2 ^ k) := by
  rw [zpow_add_one₀ two_ne_zero]; ring

/-! ## Rounding to a natural number -/

theorem roundNat_rtz (m : Nat) (k : Int) : roundNat .rtz m k = ⌊(m : ℚ) * 2 ^ k⌋₊ := by
  simp [roundNat, shiftFloor_eq]

theorem roundNat_exact {mode : Rm} {m : Nat} {k : Int} (h : shiftExact m k = true) : roundNat mode m k = shiftFloor m k := if_pos h

/-- RNE gives a nearest number, and the even one of two (R61). -/
theorem roundNat_rne (m : Nat) (k : Int) :
    |(roundNat .rne m k : ℚ) - m * 2 ^ k| ≤ 1 / 2 ∧ (|(roundNat .rne m k : ℚ) - m * 2 ^ k| = 1 / 2 → roundNat .rne m k % 2 = 0) := by
  have hx : (0 : ℚ) ≤ m * 2 ^ k := by positivity
  by_cases he : shiftExact m k = true
  · rw [roundNat_exact he, (shiftExact_iff m k).1 he]
    norm_num
  have hq := Nat.floor_le hx
  have hq1 := Nat.lt_floor_add_one ((m : ℚ) * 2 ^ k)
  have hp := Nat.floor_le (mul_nonneg two_pos.le hx)
  have hp1 := Nat.lt_floor_add_one (2 * ((m : ℚ) * 2 ^ k))
  have he2 := shiftExact_iff m (k + 1)
  rw [shiftFloor_eq, two_mul_shift] at he2
  rw [roundNat, if_neg he]
  simp only [shiftFloor_eq, two_mul_shift]
  generalize (m : ℚ) * 2 ^ k = x at *
  generalize ⌊x⌋₊ = q at *
  generalize ⌊2 * x⌋₊ = p at *
  obtain rfl | rfl : p = 2 * q ∨ p = 2 * q + 1 := by
    have h1 : (p : ℚ) < (2 * q + 2 : Nat) := by push_cast; linarith
    have h2 : ((2 * q : Nat) : ℚ) < (p + 1 : Nat) := by push_cast; linarith
    have h1 := Nat.cast_lt.1 h1
    have h2 := Nat.cast_lt.1 h2
    omega
  · -- below the middle
    have hlt : |(q : ℚ) - x| < 1 / 2 := by
      push_cast at hp1
      rw [abs_lt]; constructor <;> linarith
    have hhalf : (2 * q % 2 == 1) = false := by rw [beq_eq_false_iff_ne]; omega
    simp only [hhalf, Bool.false_and, Bool.false_eq_true, if_false]
    exact ⟨hlt.le, fun h => absurd h hlt.ne⟩
  · push_cast at hp hp1 he2
    have hhalf : ((2 * q + 1) % 2 == 1) = true := by rw [beq_iff_eq]; omega
    by_cases h2 : shiftExact m (k + 1) = true
    · -- in the middle
      have hmid : x = q + 1 / 2 := by linarith [he2.1 h2]
      simp only [hhalf, h2, Bool.true_and, Bool.not_true, Bool.false_or, beq_iff_eq]
      split
      · have hup : |((q + 1 : Nat) : ℚ) - x| = 1 / 2 := by rw [hmid]; push_cast; norm_num
        exact ⟨hup.le, fun _ => by omega⟩
      · have hdown : |(q : ℚ) - x| = 1 / 2 := by rw [hmid]; norm_num
        exact ⟨hdown.le, fun _ => by omega⟩
    · -- above the middle
      have hne : 2 * (q : ℚ) + 1 ≠ 2 * x := fun h => h2 (he2.2 h)
      have hlt : |((q + 1 : Nat) : ℚ) - x| < 1 / 2 := by
        have := lt_of_le_of_ne hp hne
        push_cast
        rw [abs_lt]; constructor <;> linarith
      simp only [hhalf, h2, Bool.true_and, Bool.not_false, Bool.true_or, if_true]
      exact ⟨hlt.le, fun h => absurd h hlt.ne⟩

/-- SR goes up where the drawn number lies below the scaled fraction (R63). -/
theorem roundNat_sr (n rnd m : Nat) (k : Int) : roundNat (.sr n rnd) m k =
    if rnd < ⌊((m : ℚ) * 2 ^ k - ⌊(m : ℚ) * 2 ^ k⌋₊) * 2 ^ n⌋₊ then ⌊(m : ℚ) * 2 ^ k⌋₊ + 1
    else ⌊(m : ℚ) * 2 ^ k⌋₊ := by
  have hx : (0 : ℚ) ≤ m * 2 ^ k := by positivity
  by_cases he : shiftExact m k = true
  · rw [roundNat_exact he, ← shiftFloor_eq, (shiftExact_iff m k).1 he]
    simp
  have hscale : (m : ℚ) * 2 ^ (k + n) = m * 2 ^ k * 2 ^ n := by rw [zpow_add₀ two_ne_zero, zpow_natCast, mul_assoc]
  have hfrac : shiftFrac m k n = ⌊((m : ℚ) * 2 ^ k - ⌊(m : ℚ) * 2 ^ k⌋₊) * 2 ^ n⌋₊ := by
    rw [shiftFrac, shiftFloor_eq, hscale]
    generalize (m : ℚ) * 2 ^ k = x at *
    have hq := Nat.floor_le hx
    have hq1 := Nat.lt_floor_add_one x
    generalize ⌊x⌋₊ = q at *
    have hsplit : x * 2 ^ n = (x - q) * 2 ^ n + (q * 2 ^ n : Nat) := by push_cast; ring
    rw [hsplit, Nat.floor_add_natCast (by have := sub_nonneg.2 hq; positivity), Nat.add_mul_mod_self_right, Nat.mod_eq_of_lt]
    rw [Nat.floor_lt' (by positivity)]
    push_cast
    nlinarith [pow_pos (two_pos (α := ℚ)) n]
  rw [roundNat, if_neg he]
  simp only [hfrac, shiftFloor_eq]

/-! ## The codes of a format -/

/-- The number of a code without its sign in a format of fraction width F; the code of infinity reads as 2^128 (R57). -/
def codeVal (F k : Nat) : ℚ := (if k < 2 ^ F then k else 2 ^ F + k % 2 ^ F : Nat) * 2 ^ (((max (k / 2 ^ F) 1 : Nat) : Int) - 127 - F)

/-- A code as an exponent and a magnitude over it, the first magnitude of the next exponent among them. -/
theorem codeVal_add (F E q : Nat) (h : E = 0 ∨ 2 ^ F ≤ q) (hq : q ≤ 2 ^ (F + 1)) :
    codeVal F (E * 2 ^ F + q) = q * 2 ^ ((E : Int) - 126 - F) := by
  have hp : 0 < 2 ^ F := Nat.two_pow_pos F
  rw [pow_succ] at hq
  rcases lt_or_ge q (2 ^ F) with hlt | hge
  · obtain rfl : E = 0 := h.resolve_right hlt.not_ge
    simp [codeVal, hlt, Nat.div_eq_of_lt hlt]
  · have hnlt : ¬E * 2 ^ F + q < 2 ^ F := by have := Nat.zero_le (E * 2 ^ F); omega
    rcases hq.lt_or_eq with hlt | rfl
    · obtain ⟨r, rfl⟩ : ∃ r, q = 2 ^ F + r := ⟨q - 2 ^ F, by omega⟩
      have hr : r < 2 ^ F := by omega
      have hcode : E * 2 ^ F + (2 ^ F + r) = r + 2 ^ F * (E + 1) := by ring
      rw [codeVal, if_neg hnlt, hcode, Nat.add_mul_div_left _ _ hp, Nat.add_mul_mod_self_left, Nat.div_eq_of_lt hr, Nat.mod_eq_of_lt hr,
        zero_add, max_eq_left (by omega)]
      congr 2
      push_cast; ring
    · have hcode : E * 2 ^ F + 2 ^ F * 2 = 2 ^ F * (E + 2) := by ring
      rw [codeVal, if_neg hnlt, hcode, Nat.mul_div_cancel_left _ hp, Nat.mul_mod_right, max_eq_left (by omega)]
      have he : (((E + 2 : Nat) : Int) - 127 - F) = ((E : Int) - 126 - F) + 1 := by push_cast; ring
      rw [he, zpow_add_one₀ two_ne_zero]
      push_cast; ring

/-- Every code is such a pair. -/
theorem code_split (F k : Nat) : ∃ E q, k = E * 2 ^ F + q ∧ (E = 0 ∨ 2 ^ F ≤ q) ∧ q < 2 ^ (F + 1) := by
  rw [pow_succ]
  rcases Nat.eq_zero_or_pos (k / 2 ^ F) with h | h
  · have hk := (Nat.div_eq_zero_iff_lt (Nat.two_pow_pos F)).1 h
    exact ⟨0, k, by simp, .inl rfl, by omega⟩
  · have hk := Nat.div_add_mod k (2 ^ F)
    have hm := Nat.mod_lt k (Nat.two_pow_pos F)
    obtain ⟨E, hE⟩ : ∃ E, k / 2 ^ F = E + 1 := ⟨k / 2 ^ F - 1, by omega⟩
    rw [hE, show 2 ^ F * (E + 1) = E * 2 ^ F + 2 ^ F by ring] at hk
    exact ⟨E, 2 ^ F + k % 2 ^ F, by omega, .inr (by omega), by omega⟩

theorem codeVal_strictMono (F : Nat) : StrictMono (codeVal F) := by
  refine strictMono_nat_of_lt_succ fun k => ?_
  obtain ⟨E, q, rfl, h, hq⟩ := code_split F k
  rw [add_assoc, codeVal_add F E q h hq.le, codeVal_add F E (q + 1) (h.imp_right fun h => h.trans q.le_succ) hq]
  push_cast
  have : (0 : ℚ) < 2 ^ ((E : Int) - 126 - F) := by positivity
  nlinarith

/-- The code of infinity reads as the number above the largest finite one. -/
theorem codeVal_top (F : Nat) : codeVal F (255 * 2 ^ F) = 2 ^ 128 := by
  have h := codeVal_add F 253 (2 ^ (F + 1)) (.inr (Nat.pow_le_pow_right two_pos F.le_succ)) le_rfl
  rw [show 253 * 2 ^ F + 2 ^ (F + 1) = 255 * 2 ^ F by ring] at h
  rw [h, Nat.cast_pow, Nat.cast_two, ← zpow_natCast, ← zpow_add₀ two_ne_zero, ← zpow_natCast]
  congr 1
  push_cast; ring

/-! ## Rounding a magnitude -/

theorem log2_bounds {m : Nat} (hm : 0 < m) (e : Int) :
    (2 : ℚ) ^ ((Nat.log2 m : Int) + e) ≤ m * 2 ^ e ∧ (m : ℚ) * 2 ^ e < 2 ^ ((Nat.log2 m : Int) + e + 1) := by
  have h1 : ((2 ^ Nat.log2 m : Nat) : ℚ) ≤ m := by exact_mod_cast Nat.log2_self_le hm.ne'
  have h2 : (m : ℚ) < (2 ^ (Nat.log2 m + 1) : Nat) := by exact_mod_cast Nat.lt_log2_self
  have hp : (0 : ℚ) < 2 ^ e := by positivity
  constructor
  · rw [zpow_add₀ two_ne_zero, zpow_natCast]
    exact mul_le_mul_of_nonneg_right (by exact_mod_cast h1) hp.le
  · rw [add_right_comm, zpow_add₀ two_ne_zero, show ((Nat.log2 m : Int) + 1) = ((Nat.log2 m + 1 : Nat) : Int) by push_cast; rfl, zpow_natCast]
    exact mul_lt_mul_of_pos_right (by exact_mod_cast h2) hp

/-- A magnitude at or above 2^128 overflows in every mode (R62). -/
theorem roundMag_huge {F : Nat} (mode : Rm) (sat : Bool) {m : Nat} {e : Int} (hm : 0 < m) (h : (2 : ℚ) ^ 128 ≤ m * 2 ^ e) :
    roundMag F mode sat m e = overflowMag F mode sat := by
  have hlog : 127 < (Nat.log2 m : Int) + e := by
    have := h.trans_lt (log2_bounds hm e).2
    rw [← zpow_natCast, zpow_lt_zpow_iff_right₀ one_lt_two] at this
    push_cast at this; omega
  exact if_pos (lt_max_of_lt_left hlog)

/-- A magnitude below 2^128 is rounded over the unit u of its binade, or of the subnormals, and overflows where that gives the code of infinity; the
codes about it are those of the floor and of the next number of units (R57, R61, R62). -/
theorem roundMag_scaled (F : Nat) (sat : Bool) {m : Nat} {e : Int} (hm : 0 < m) (h : (m : ℚ) * 2 ^ e < 2 ^ 128) :
    ∃ (A : Nat) (k : Int) (u : ℚ), 0 < u ∧ 2 ^ F ∣ A ∧ (m : ℚ) * 2 ^ e = m * 2 ^ k * u ∧
      A + ⌊(m : ℚ) * 2 ^ k⌋₊ < 255 * 2 ^ F ∧
      codeVal F (A + ⌊(m : ℚ) * 2 ^ k⌋₊) = ⌊(m : ℚ) * 2 ^ k⌋₊ * u ∧
      codeVal F (A + (⌊(m : ℚ) * 2 ^ k⌋₊ + 1)) = (⌊(m : ℚ) * 2 ^ k⌋₊ + 1) * u ∧
      ∀ mode, roundMag F mode sat m e =
        if 255 * 2 ^ F ≤ A + roundNat mode m k then overflowMag F mode sat else A + roundNat mode m k := by
  obtain ⟨hlo, hhi⟩ := log2_bounds hm e
  have hlog : (Nat.log2 m : Int) + e ≤ 127 := by
    have := hlo.trans_lt h
    rw [← zpow_natCast, zpow_lt_zpow_iff_right₀ one_lt_two] at this
    push_cast at this; omega
  obtain ⟨E, hE⟩ : ∃ E : Nat, (E : Int) = max ((Nat.log2 m : Int) + e) (-126) + 126 :=
    ⟨(max ((Nat.log2 m : Int) + e) (-126) + 126).toNat, by omega⟩
  have htop : max ((Nat.log2 m : Int) + e) (-126) = (E : Int) - 126 := by omega
  have hu : (0 : ℚ) < 2 ^ ((E : Int) - 126 - F) := by positivity
  have hscale : (m : ℚ) * 2 ^ e = m * 2 ^ (e - ((E : Int) - 126 - F)) * 2 ^ ((E : Int) - 126 - F) := by
    rw [mul_assoc, ← zpow_add₀ two_ne_zero, sub_add_cancel]
  have hr (mode : Rm) : roundMag F mode sat m e = if 255 * 2 ^ F ≤ E * 2 ^ F + roundNat mode m (e - ((E : Int) - 126 - F))
      then overflowMag F mode sat else E * 2 ^ F + roundNat mode m (e - ((E : Int) - 126 - F)) := by
    unfold roundMag
    dsimp only
    rw [if_neg (by omega), htop, sub_add_cancel, Int.toNat_natCast]
  generalize e - ((E : Int) - 126 - F) = k at hscale hr
  have hx : (0 : ℚ) ≤ m * 2 ^ k := by positivity
  have hql : ⌊(m : ℚ) * 2 ^ k⌋₊ + 1 ≤ 2 ^ (F + 1) := by
    refine Nat.succ_le_of_lt ((Nat.floor_lt hx).2 ?_)
    rw [← mul_lt_mul_iff_left₀ hu, ← hscale, Nat.cast_pow, Nat.cast_two, ← zpow_natCast, ← zpow_add₀ two_ne_zero]
    exact hhi.trans_le (zpow_le_zpow_right₀ one_le_two (by push_cast; omega))
  have hqg : E = 0 ∨ 2 ^ F ≤ ⌊(m : ℚ) * 2 ^ k⌋₊ := by
    refine or_iff_not_imp_left.2 fun h0 => Nat.le_floor ?_
    rw [← mul_le_mul_iff_left₀ hu, ← hscale, Nat.cast_pow, Nat.cast_two, ← zpow_natCast, ← zpow_add₀ two_ne_zero]
    exact (zpow_le_zpow_right₀ one_le_two (by omega)).trans hlo
  refine ⟨E * 2 ^ F, k, _, hu, dvd_mul_left _ _, hscale, ?_, codeVal_add F E _ hqg (Nat.le_of_succ_le hql), ?_, hr⟩
  · have hE : E * 2 ^ F ≤ 253 * 2 ^ F := Nat.mul_le_mul_right _ (by omega)
    rw [pow_succ] at hql
    omega
  · rw [codeVal_add F E _ (hqg.imp_right fun h => h.trans (Nat.le_succ _)) hql, Nat.cast_succ]

/-- RTZ gives the largest code whose number is not above the magnitude (R61). -/
theorem roundMag_rtz (F : Nat) (sat : Bool) {m : Nat} (e : Int) (hm : 0 < m) :
    roundMag F .rtz sat m e < 255 * 2 ^ F ∧ codeVal F (roundMag F .rtz sat m e) ≤ m * 2 ^ e ∧
      ∀ k < 255 * 2 ^ F, codeVal F k ≤ m * 2 ^ e → k ≤ roundMag F .rtz sat m e := by
  have hpos : 0 < 255 * 2 ^ F := by positivity
  rcases le_or_gt ((2 : ℚ) ^ 128) (m * 2 ^ e) with h | h
  · rw [roundMag_huge .rtz sat hm h]
    refine ⟨Nat.sub_one_lt hpos.ne', le_trans ?_ h, fun k hk _ => Nat.le_sub_one_of_lt hk⟩
    rw [← codeVal_top F]
    exact ((codeVal_strictMono F).monotone (Nat.sub_le _ _))
  · obtain ⟨A, k, u, hu, -, hv, hlt, ha, hb, hr⟩ := roundMag_scaled F sat hm h
    have hx : (0 : ℚ) ≤ m * 2 ^ k := by positivity
    rw [hr, roundNat_rtz, if_neg hlt.not_ge, ha, hv]
    refine ⟨hlt, mul_le_mul_of_nonneg_right (Nat.floor_le hx) hu.le, fun j _ hj => ?_⟩
    refine Nat.lt_succ_iff.1 ((codeVal_strictMono F).lt_iff_lt.1 (hj.trans_lt ?_))
    rw [Nat.succ_eq_add_one, add_assoc, hb]
    exact mul_lt_mul_of_pos_right (Nat.lt_floor_add_one _) hu

/-- The code after that of RTZ is above the magnitude (R63). -/
theorem roundMag_sr (F : Nat) (sat : Bool) {m : Nat} {e : Int} (hm : 0 < m) (n rnd : Nat) (h : (m : ℚ) * 2 ^ e < 2 ^ 128) :
    let a := roundMag F .rtz sat m e
    roundMag F (.sr n rnd) sat m e = if rnd < ⌊(m * 2 ^ e - codeVal F a) / (codeVal F (a + 1) - codeVal F a) * 2 ^ n⌋₊ then
      (if a + 1 = 255 * 2 ^ F then overflowMag F (.sr n rnd) sat else a + 1) else a := by
  obtain ⟨A, k, u, hu, -, hv, hlt, ha, hb, hr⟩ := roundMag_scaled F sat hm h
  intro a
  have haq : a = A + ⌊(m : ℚ) * 2 ^ k⌋₊ := by
    dsimp only [a]
    rw [hr, roundNat_rtz, if_neg hlt.not_ge]
  have hfrac : (m * 2 ^ e - codeVal F a) / (codeVal F (a + 1) - codeVal F a) = m * 2 ^ k - ⌊(m : ℚ) * 2 ^ k⌋₊ := by
    rw [haq, add_assoc, hb, ha, hv]
    field_simp
    ring
  rw [hr, roundNat_sr, hfrac]
  split
  · rw [← add_assoc, ← haq]
    exact if_congr ⟨fun h => by omega, fun h => h.ge⟩ rfl rfl
  · rw [if_neg (by omega), haq]

/-- The largest finite code lies one unit of its binade below 2^128. -/
theorem codeVal_top_pred {F : Nat} (hF : F ≤ 126) : codeVal F (255 * 2 ^ F - 1) = 2 ^ 128 - 2 * 2 ^ (126 - F) := by
  have hp : 0 < 2 ^ F := Nat.two_pow_pos F
  have h := codeVal_add F 253 (2 ^ (F + 1) - 1) (.inr (by rw [pow_succ]; omega)) (Nat.sub_le _ _)
  have hu : (2 : ℚ) ^ (((253 : Nat) : Int) - 126 - F) = 2 * 2 ^ (126 - F) := by
    rw [← pow_succ', ← zpow_natCast]
    congr 1
    push_cast [Nat.cast_sub hF]; ring
  have htop : (2 : ℚ) ^ (F + 1) * (2 * 2 ^ (126 - F)) = 2 ^ 128 := by
    rw [← pow_succ', ← pow_add]
    congr 1
    omega
  rw [show 253 * 2 ^ F + (2 ^ (F + 1) - 1) = 255 * 2 ^ F - 1 by rw [pow_succ]; omega] at h
  rw [h, hu, Nat.cast_sub Nat.one_le_two_pow, ← htop]
  push_cast; ring

/-- RNE is the floor or the number after it. -/
theorem roundNat_rne_cases (m : Nat) (k : Int) :
    roundNat .rne m k = ⌊(m : ℚ) * 2 ^ k⌋₊ ∨ roundNat .rne m k = ⌊(m : ℚ) * 2 ^ k⌋₊ + 1 := by
  obtain ⟨h, -⟩ := roundNat_rne m k
  have hx : (0 : ℚ) ≤ m * 2 ^ k := by positivity
  have hq := Nat.floor_le hx
  have hq1 := Nat.lt_floor_add_one ((m : ℚ) * 2 ^ k)
  rw [abs_le] at h
  have hlo : ((⌊(m : ℚ) * 2 ^ k⌋₊ : Nat) : ℚ) < (roundNat .rne m k + 1 : Nat) := by push_cast; linarith
  have hhi : (roundNat .rne m k : ℚ) < (⌊(m : ℚ) * 2 ^ k⌋₊ + 2 : Nat) := by push_cast; linarith
  have hlo := Nat.cast_lt.1 hlo
  have hhi := Nat.cast_lt.1 hhi
  omega

/-- A multiple n of u next to x and within half a unit of it is nearest to x among the numbers c outside the gap about x, and alone so unless it lies
half a unit away. -/
theorem grid_nearest {u x q n c : ℚ} (hu : 0 < u) (hq : q ≤ x) (hq1 : x < q + 1) (hcases : n = q ∨ n = q + 1) (hn : |n - x| ≤ 1 / 2)
    (hc : c ≤ q * u ∨ (q + 1) * u ≤ c) :
    |n * u - x * u| ≤ |c - x * u| ∧ (|n * u - x * u| = |c - x * u| → c ≠ n * u → |n - x| = 1 / 2) := by
  obtain ⟨y, rfl⟩ : ∃ y, c = y * u := ⟨c / u, (div_mul_cancel₀ c hu.ne').symm⟩
  rw [mul_le_mul_iff_left₀ hu, mul_le_mul_iff_left₀ hu] at hc
  rw [← sub_mul, ← sub_mul, abs_mul, abs_mul, mul_le_mul_iff_left₀ (abs_pos.2 hu.ne'), mul_left_inj' (abs_pos.2 hu.ne').ne']
  obtain ⟨hn1, hn2⟩ := abs_le.1 hn
  have hdist (hne : y ≠ n) : |n - x| < |y - x| ∨ 1 / 2 ≤ |y - x| := by
    rcases hcases with rfl | rfl
    · rcases hc with hlo | hhi
      · have := hlo.lt_of_ne hne
        exact .inl (by rw [abs_of_nonpos (by linarith), abs_of_neg (by linarith)]; linarith)
      · exact .inr (le_abs.2 (.inl (by linarith)))
    · rcases hc with hlo | hhi
      · exact .inr (le_abs.2 (.inr (by linarith)))
      · have := hhi.lt_of_ne hne.symm
        exact .inl (by rw [abs_of_pos (by linarith), abs_of_pos (by linarith)]; linarith)
  by_cases hne : y = n
  · exact ⟨by rw [hne], fun _ h => absurd (by rw [hne]) h⟩
  · exact ⟨(hdist hne).elim le_of_lt hn.trans, fun h _ => le_antisymm hn (h ▸ (hdist hne).resolve_left h.not_lt)⟩

/-- RNE gives a code whose number is nearest, and the even code of two, below the middle between the largest finite number and 2^128; from there on it
overflows (R61, R62). -/
theorem roundMag_rne {F : Nat} (hF : 0 < F) (hF126 : F ≤ 126) (sat : Bool) {m : Nat} {e : Int} (hm : 0 < m) :
    ((m : ℚ) * 2 ^ e < 2 ^ 128 - 2 ^ (126 - F) → roundMag F .rne sat m e < 255 * 2 ^ F ∧ ∀ k < 255 * 2 ^ F,
      |codeVal F (roundMag F .rne sat m e) - m * 2 ^ e| ≤ |codeVal F k - m * 2 ^ e| ∧
      (|codeVal F (roundMag F .rne sat m e) - m * 2 ^ e| = |codeVal F k - m * 2 ^ e| → k ≠ roundMag F .rne sat m e →
        roundMag F .rne sat m e % 2 = 0)) ∧
    ((2 : ℚ) ^ 128 - 2 ^ (126 - F) ≤ m * 2 ^ e → roundMag F .rne sat m e = overflowMag F .rne sat) := by
  have hmid : (0 : ℚ) < 2 ^ (126 - F) := by positivity
  rcases le_or_gt ((2 : ℚ) ^ 128) (m * 2 ^ e) with h | h
  · exact ⟨fun hlt => absurd hlt (not_lt.2 (by linarith)), fun _ => roundMag_huge .rne sat hm h⟩
  obtain ⟨A, k, u, hu, hA, hv, hlt, ha, hb, hr⟩ := roundMag_scaled F sat hm h
  have hA2 : 2 ∣ A := (dvd_pow_self 2 hF.ne').trans hA
  have hx : (0 : ℚ) ≤ m * 2 ^ k := by positivity
  have hq := Nat.floor_le hx
  have hq1 := Nat.lt_floor_add_one ((m : ℚ) * 2 ^ k)
  obtain ⟨hn, htie⟩ := roundNat_rne m k
  have hcases := roundNat_rne_cases m k
  have hmono := codeVal_strictMono F
  have htop := codeVal_top F
  have hpred := codeVal_top_pred hF126
  rw [hr .rne, hv]
  rw [hv] at h
  generalize (m : ℚ) * 2 ^ k = x at *
  generalize roundNat .rne m k = n at *
  generalize ⌊x⌋₊ = q at *
  have hcode : codeVal F (A + n) = n * u := by
    rcases hcases with rfl | rfl
    · exact ha
    · rw [hb]; push_cast; rfl
  have hedge (he : A + q + 1 = 255 * 2 ^ F) : (q : ℚ) * u = 2 ^ 128 - 2 * 2 ^ (126 - F) ∧ u = 2 * 2 ^ (126 - F) := by
    rw [← add_assoc, he, htop] at hb
    rw [← he, Nat.add_sub_cancel, ha] at hpred
    exact ⟨hpred, by linarith⟩
  refine ⟨fun hlow => ?_, fun hhigh => ?_⟩
  · have hfit : A + n < 255 * 2 ^ F := by
      by_contra hge
      obtain rfl : n = q + 1 := hcases.resolve_left (by omega)
      obtain ⟨hqu, hue⟩ := hedge (by omega)
      have hxq : (q : ℚ) + 1 / 2 ≤ x := by
        have := (abs_le.1 hn).2
        push_cast at this; linarith
      have := mul_le_mul_of_nonneg_right hxq hu.le
      linarith
    rw [if_neg hfit.not_ge, hcode]
    refine ⟨hfit, fun j _ => ?_⟩
    have hj : codeVal F j ≤ q * u ∨ (q + 1) * u ≤ codeVal F j :=
      (le_or_gt j (A + q)).imp (fun h => ha ▸ hmono.monotone h) fun h => hb ▸ hmono.monotone h
    obtain ⟨hle, heq⟩ := grid_nearest hu hq hq1 (by exact_mod_cast hcases) hn hj
    refine ⟨hle, fun h hne => ?_⟩
    have := htie (heq h (hcode ▸ hmono.injective.ne hne))
    omega
  · have hlast : A + q + 1 = 255 * 2 ^ F := by
      have : 255 * 2 ^ F - 1 < A + (q + 1) := by
        rw [← hmono.lt_iff_lt, hpred, hb]
        linarith [mul_lt_mul_of_pos_right hq1 hu]
      omega
    obtain ⟨hqu, hue⟩ := hedge hlast
    have hxq : (q : ℚ) + 1 / 2 ≤ x := le_of_mul_le_mul_right (by linarith) hu
    rw [if_pos]
    rcases hcases with rfl | rfl
    · have h2 : 2 ∣ 2 ^ F := dvd_pow_self 2 hF.ne'
      have heven := htie (le_antisymm hn (by rw [abs_sub_comm]; exact le_abs.2 (.inl (by linarith))))
      omega
    · omega

end Sys2Proof.Machine
end

section
/-! SUPPORT. The float core's codes and operations at zeros, infinities and NaNs, and its integers (R57 to R61, R63, R207, R215). -/

namespace Sys2Proof.Machine

/-! ## Codes -/

/-- Zero and the subnormals share an exponent with the smallest normal numbers (R57). -/
theorem fval_finite {c : Nat} (he : bits c 23 8 < 255) : ∃ m x, fval c = .fin (bit c 31) m x ∧
    (FVal.fin (bit c 31) m x).val =
      (FVal.fin (bit c 31) (if bits c 23 8 = 0 then bits c 0 23 else 2 ^ 23 + bits c 0 23) ((max (bits c 23 8) 1 : Nat) - 150)).val := by
  unfold fval
  dsimp only
  rw [if_neg he.ne]
  split
  · next h => exact ⟨_, _, rfl, by simp [h]⟩
  · next h => exact ⟨_, _, rfl, by rw [max_eq_left (by omega), add_comm (bits c 0 23)]; rfl⟩

theorem fval_special {c : Nat} (hc : c < 2 ^ 32) (he : bits c 23 8 = 255) : fval c = if bits c 0 23 = 0 then .inf (bit c 31) else .nan c := by
  unfold fval
  dsimp only
  rw [if_pos he, show c % 4294967296 = c from Nat.mod_eq_of_lt hc]

theorem fvalBf_eq {c : Nat} (hc : c < 65536) : fvalBf c = fval (c * 65536) := by rw [fvalBf, Nat.mod_eq_of_lt hc]

/-- Setting a bit adds it where it was not set. -/
theorem setBit_eq (c k : Nat) : c ||| 2 ^ k = if bit c k then c else c + 2 ^ k := by
  split
  · next h =>
    rw [bit_eq_testBit] at h
    refine Nat.eq_of_testBit_eq fun j => ?_
    rw [Nat.testBit_or, Nat.testBit_two_pow]
    by_cases hj : k = j
    · subst hj; simp [h]
    · simp [hj]
  · next h =>
    have hk : c / 2 ^ k % 2 = 0 := by
      rw [bit_eq_testBit, Nat.testBit_eq_decide_div_mod_eq, decide_eq_true_eq] at h
      omega
    obtain ⟨a, ha⟩ : ∃ a, c / 2 ^ k = 2 * a := ⟨c / 2 ^ k / 2, by omega⟩
    have hl : c % 2 ^ k < 2 ^ k := Nat.mod_lt _ (Nat.two_pow_pos k)
    have hc : c = 2 ^ (k + 1) * a + c % 2 ^ k := by
      conv_lhs => rw [← Nat.div_add_mod c (2 ^ k), ha]
      ring
    have hl' : 2 ^ k * 1 + c % 2 ^ k < 2 ^ (k + 1) := by rw [pow_succ]; omega
    have hor := Nat.two_pow_add_eq_or_of_lt (hl.trans (Nat.pow_lt_pow_right one_lt_two k.lt_succ_self)) a
    have hor1 := Nat.two_pow_add_eq_or_of_lt hl 1
    have hor2 := Nat.two_pow_add_eq_or_of_lt hl' a
    rw [mul_one] at hor1 hor2
    calc c ||| 2 ^ k = (2 ^ (k + 1) * a ||| c % 2 ^ k) ||| 2 ^ k := by rw [← hor, ← hc]
      _ = 2 ^ (k + 1) * a ||| (2 ^ k ||| c % 2 ^ k) := by rw [Nat.or_assoc, Nat.or_comm (c % 2 ^ k)]
      _ = c + 2 ^ k := by rw [← hor1, ← hor2]; omega

/-- A NaN is rounded to itself with its quiet bit set (R59). -/
theorem roundF_nan (mode : Rm) (sat : Bool) (c : Nat) : roundF mode sat (.nan c) = c ||| 2 ^ 22 := (setBit_eq c 22).symm

theorem roundBf_nan (mode : Rm) (sat : Bool) (c : Nat) : roundBf mode sat (.nan c) = c / 65536 ||| 64 := (setBit_eq (c / 65536) 6).symm

/-! ## Choices -/

theorem val_le_of_flt {s1 s2 : Bool} {m1 m2 : Nat} {e1 e2 : Int} (h : flt (.fin s1 m1 e1) (.fin s2 m2 e2) = true) :
    (FVal.fin s1 m1 e1).val ≤ (FVal.fin s2 m2 e2).val :=
  ((flt_fin ..).1 h).elim le_of_lt fun h => h.1.le

theorem val_le_of_not_flt {s1 s2 : Bool} {m1 m2 : Nat} {e1 e2 : Int} (h : ¬flt (.fin s1 m1 e1) (.fin s2 m2 e2) = true) :
    (FVal.fin s2 m2 e2).val ≤ (FVal.fin s1 m1 e1).val :=
  not_lt.1 fun hlt => h ((flt_fin ..).2 (.inl hlt))

theorem flt_zeros (s1 s2 : Bool) (e1 e2 : Int) : flt (.fin s1 0 e1) (.fin s2 0 e2) = (s1 && !s2) := by
  rw [Bool.eq_iff_iff, flt_fin]
  simp [FVal.val]

/-- The larger of two numbers, +0 above -0 (R60). -/
theorem fmax_fin (s1 s2 : Bool) (m1 m2 : Nat) (e1 e2 : Int) :
    ∃ s m e, fmax (.fin s1 m1 e1) (.fin s2 m2 e2) = .fin s m e ∧ (FVal.fin s m e).val = max (FVal.fin s1 m1 e1).val (FVal.fin s2 m2 e2).val ∧
      (m1 = 0 → m2 = 0 → s = (s1 && s2)) := by
  by_cases h : flt (.fin s1 m1 e1) (.fin s2 m2 e2) = true
  · refine ⟨s2, m2, e2, if_pos h, (max_eq_right (val_le_of_flt h)).symm, ?_⟩
    rintro rfl rfl
    rw [flt_zeros] at h
    cases s1 <;> cases s2 <;> simp_all
  · refine ⟨s1, m1, e1, if_neg h, (max_eq_left (val_le_of_not_flt h)).symm, ?_⟩
    rintro rfl rfl
    rw [flt_zeros] at h
    cases s1 <;> cases s2 <;> simp_all

/-- The smaller of two numbers, -0 below +0 (R60). -/
theorem fmin_fin (s1 s2 : Bool) (m1 m2 : Nat) (e1 e2 : Int) :
    ∃ s m e, fmin (.fin s1 m1 e1) (.fin s2 m2 e2) = .fin s m e ∧ (FVal.fin s m e).val = min (FVal.fin s1 m1 e1).val (FVal.fin s2 m2 e2).val ∧
      (m1 = 0 → m2 = 0 → s = (s1 || s2)) := by
  by_cases h : flt (.fin s2 m2 e2) (.fin s1 m1 e1) = true
  · refine ⟨s2, m2, e2, if_pos h, (min_eq_right (val_le_of_flt h)).symm, ?_⟩
    rintro rfl rfl
    rw [flt_zeros] at h
    cases s1 <;> cases s2 <;> simp_all
  · refine ⟨s1, m1, e1, if_neg h, (min_eq_left (val_le_of_not_flt h)).symm, ?_⟩
    rintro rfl rfl
    rw [flt_zeros] at h
    cases s1 <;> cases s2 <;> simp_all

theorem ffma_fin (np nc s1 s2 s3 : Bool) (m1 m2 m3 : Nat) (e1 e2 e3 : Int) :
    ∃ s m e, ffma np nc (.fin s1 m1 e1) (.fin s2 m2 e2) (.fin s3 m3 e3) = .fin s m e ∧
      (FVal.fin s m e).val = (if np then -1 else 1) * ((FVal.fin s1 m1 e1).val * (FVal.fin s2 m2 e2).val) +
        (if nc then -1 else 1) * (FVal.fin s3 m3 e3).val ∧
      (m = 0 → s = (((s1 != s2) != np) && (s3 != nc) && m1 * m2 == 0 && m3 == 0)) := by
  obtain ⟨s, m, e, hadd, hval, hz⟩ := addFin_val ((s1 != s2) != np) (s3 != nc) (m1 * m2) m3 (e1 + e2) e3
  refine ⟨s, m, e, ?_, ?_, hz⟩
  · show fadd (if np then fneg (.fin (s1 != s2) (m1 * m2) (e1 + e2)) else .fin (s1 != s2) (m1 * m2) (e1 + e2))
      (if nc then fneg (.fin s3 m3 e3) else .fin s3 m3 e3) = _
    rw [fneg_fin, fneg_fin]
    exact hadd
  · rw [hval, fneg_val np, fneg_val nc, mulFin_val]

end Sys2Proof.Machine
end

section
/-! SUPPORT. Reciprocals, roots and logarithms: digits of an exact result with a sticky bit below them (R215; log 12). -/

namespace Sys2Proof.Machine

/-! ## The sticky bit -/

/-- A sticky bit below the digits of a quotient leaves less than one of their units. -/
theorem sticky_quotient (N d : Nat) (hd : 0 < d) :
    |((2 * (N / d) + b2n (!(N % d == 0)) : Nat) : ℚ) * d - 2 * N| ≤ d := by
  have hdiv := Nat.div_add_mod N d
  have hmod := Nat.mod_lt N hd
  have hN : (N : ℚ) = d * (N / d : Nat) + (N % d : Nat) := by exact_mod_cast hdiv.symm
  have hlt : ((N % d : Nat) : ℚ) < d := by exact_mod_cast hmod
  have hpos : (0 : ℚ) ≤ (N % d : Nat) := by positivity
  rw [hN]
  by_cases h : N % d = 0
  · simp only [h, b2n, beq_self_eq_true, Bool.not_true, Bool.false_eq_true, if_false]
    push_cast
    rw [abs_le]; constructor <;> nlinarith
  · simp only [beq_eq_false_iff_ne.2 h, b2n, Bool.not_false, if_true]
    push_cast
    rw [abs_le]; constructor <;> nlinarith

/-- A number that lies within d of a much larger one is near it. -/
theorem near_one {a N d : ℚ} (hN : 0 < N) (h : |a - N| ≤ d) (hd : d * 2 ^ 300 < N) : |a * (1 / N) - 1| < 1 / 2 ^ 300 := by
  have hP : (0 : ℚ) < 2 ^ 300 := by positivity
  rw [show a * (1 / N) - 1 = (a - N) / N by field_simp, abs_div, abs_of_pos hN, div_lt_div_iff₀ hN hP, one_mul]
  exact (mul_le_mul_of_nonneg_right h hP.le).trans_lt hd

/-! ## Reciprocals -/

/-- 1 / a to 400 bits below its binade (R215). -/
theorem frcp_fin (s : Bool) {m : Nat} (e : Int) (hm : 0 < m) (hlt : m < 2 ^ 24) :
    ∃ q x, frcp (.fin s m e) = .fin s q x ∧ |(q : ℚ) * 2 ^ x * (m * 2 ^ e) - 1| < 1 / 2 ^ 300 := by
  have hq := sticky_quotient (2 ^ 400) m hm
  refine ⟨2 * (2 ^ 400 / m) + b2n (!(2 ^ 400 % m == 0)), 0 - e - 400 - 1, ?_, ?_⟩
  · unfold frcp fdiv
    dsimp only
    rw [if_neg hm.ne', if_neg one_ne_zero, one_mul, sticky, Bool.false_bne]
  · generalize 2 * (2 ^ 400 / m) + b2n (!(2 ^ 400 % m == 0)) = q at *
    have he : (2 : ℚ) ^ (0 - e - 400 - 1) * 2 ^ e = 1 / (2 * 2 ^ 400) := by
      rw [← zpow_add₀ two_ne_zero, show 0 - e - 400 - 1 + e = -((401 : Nat) : Int) by push_cast; ring, zpow_neg, zpow_natCast,
        one_div, ← pow_succ']
    have hsmall : (m : ℚ) * 2 ^ 300 < 2 * 2 ^ 400 := by
      have hm24 : (m : ℚ) < 2 ^ 24 := by exact_mod_cast hlt
      refine (mul_lt_mul_of_pos_right hm24 (by positivity)).trans_le ?_
      rw [← pow_add, ← pow_succ']
      exact pow_le_pow_right₀ one_le_two (by norm_num)
    rw [Nat.cast_pow, Nat.cast_two] at hq
    rw [mul_mul_mul_comm, he]
    exact near_one (by positivity) hq hsmall

/-! ## Roots -/

/-- Each step keeps the root of the digits above it, and takes the next one. -/
theorem isqrtAux_spec (k n r : Nat) (h : r * r ≤ n) (h2 : n < (r + 2 ^ k) * (r + 2 ^ k)) :
    isqrtAux k n r * isqrtAux k n r ≤ n ∧ n < (isqrtAux k n r + 1) * (isqrtAux k n r + 1) := by
  induction k generalizing r with
  | zero => exact ⟨h, by rwa [pow_zero] at h2⟩
  | succ k ih =>
    unfold isqrtAux
    dsimp only
    split
    · next ht => exact ih _ ht (by rwa [add_assoc, ← two_mul, ← pow_succ'])
    · next ht => exact ih _ h (not_le.1 ht)

/-- The digit-by-digit root is the root (R215, R425). -/
theorem isqrt_eq (n : Nat) : isqrt n = Nat.sqrt n := by
  have hn : n < 2 ^ (n.log2 / 2 + 1) * 2 ^ (n.log2 / 2 + 1) := by
    rw [← pow_add]
    exact Nat.lt_log2_self.trans_le (Nat.pow_le_pow_right two_pos (by omega))
  obtain ⟨h1, h2⟩ := isqrtAux_spec (n.log2 / 2 + 1) n 0 (Nat.zero_le _) (by simpa using hn)
  exact (Nat.eq_sqrt.2 ⟨h1, h2⟩)

/-- The root of a quotient with a sticky bit below it, squared and multiplied out again, against the quotient's numerator. -/
theorem sticky_root (N d : Nat) (hd : 0 < d) :
    let q := Nat.sqrt (N / d)
    |((2 * q + b2n (!(q * q * d == N)) : Nat) : ℚ) ^ 2 * d - 4 * (N : ℚ)| ≤ 4 * ((q : ℚ) + 1) * d := by
  intro q
  have h1 : q * q * d ≤ N := (Nat.mul_le_mul_right d (Nat.sqrt_le _)).trans (Nat.div_mul_le_self N d)
  have h2 : N < (q + 1) * (q + 1) * d := (Nat.div_lt_iff_lt_mul hd).1 (Nat.lt_succ_sqrt _)
  have h1 : (q : ℚ) * q * d ≤ N := by exact_mod_cast h1
  have h2 : (N : ℚ) < (q + 1) * (q + 1) * d := by exact_mod_cast h2
  have hd : (0 : ℚ) < d := by exact_mod_cast hd
  have hq : (0 : ℚ) ≤ q := by positivity
  by_cases h : q * q * d = N
  · have hN : (q : ℚ) * q * d = N := by exact_mod_cast h
    simp only [h, b2n, beq_self_eq_true, Bool.not_true, Bool.false_eq_true, if_false]
    rw [← hN]
    push_cast
    rw [abs_le]; constructor <;> nlinarith
  · simp only [beq_eq_false_iff_ne.2 h, b2n, Bool.not_false, if_true]
    push_cast
    rw [abs_le]; constructor <;> nlinarith

/-- 1 / sqrt a to the digits of the root of a quotient (R215). -/
theorem frsq_fin {m : Nat} (e : Int) (hm : 0 < m) (hlt : m < 2 ^ 24) :
    ∃ q x, frsq (.fin false m e) = .fin false q x ∧ |((q : ℚ) * 2 ^ x) ^ 2 * (m * 2 ^ e) - 1| < 1 / 2 ^ 300 := by
  obtain ⟨odd, hodd, h01⟩ : ∃ odd : Nat, (odd : Int) = e % 2 ∧ odd ≤ 1 := ⟨(e % 2).toNat, by omega, by omega⟩
  obtain ⟨h, hh⟩ : ∃ h : Int, e = 2 * h + odd := ⟨e / 2, by omega⟩
  have hd : 0 < m * 2 ^ odd := by positivity
  have hq := sticky_root (2 ^ 800) (m * 2 ^ odd) hd
  have hroot : Nat.sqrt (2 ^ 800 / (m * 2 ^ odd)) ≤ 2 ^ 400 := by
    refine (Nat.sqrt_le_sqrt (Nat.div_le_self _ _)).trans_eq ?_
    rw [show 800 = 400 * 2 from rfl, pow_mul, Nat.sqrt_eq']
  have heq : frsq (.fin false m e) = sticky false (Nat.sqrt (2 ^ 800 / (m * 2 ^ odd))) (-400 - (e - odd) / 2)
      (Nat.sqrt (2 ^ 800 / (m * 2 ^ odd)) * Nat.sqrt (2 ^ 800 / (m * 2 ^ odd)) * (m * 2 ^ odd) == 2 ^ 800) := by
    unfold frsq
    dsimp only
    rw [if_neg hm.ne', if_neg Bool.false_ne_true, ← hodd, Int.toNat_natCast, isqrt_eq]
  refine ⟨_, _, heq, ?_⟩
  dsimp only at hq
  generalize Nat.sqrt (2 ^ 800 / (m * 2 ^ odd)) = r at *
  generalize 2 * r + b2n (!(r * r * (m * 2 ^ odd) == 2 ^ 800)) = q at *
  have he : ((2 : ℚ) ^ (-400 - (e - odd) / 2 - 1)) ^ 2 * 2 ^ e = 2 ^ odd * (1 / (4 * 2 ^ 800)) := by
    rw [show (e - odd) / 2 = h by omega, ← zpow_natCast, ← zpow_mul, ← zpow_add₀ two_ne_zero,
      show (-400 - h - 1) * ((2 : Nat) : Int) + e = (odd : Int) + -((802 : Nat) : Int) by push_cast; omega, zpow_add₀ two_ne_zero, zpow_neg,
      zpow_natCast, zpow_natCast, one_div, show (4 : ℚ) = 2 ^ 2 by norm_num, ← pow_add]
  have hsmall : 4 * ((r : ℚ) + 1) * (m * 2 ^ odd : Nat) * 2 ^ 300 < 4 * 2 ^ 800 := by
    have hr : (r : ℚ) + 1 ≤ 2 ^ 401 := by
      have hr : (r : ℚ) ≤ 2 ^ 400 := by exact_mod_cast hroot
      calc (r : ℚ) + 1 ≤ 2 ^ 400 + 2 ^ 400 := add_le_add hr (one_le_pow₀ one_le_two)
        _ = 2 ^ 401 := by rw [← mul_two, ← pow_succ]
    have hdl : ((m * 2 ^ odd : Nat) : ℚ) ≤ 2 ^ 25 := by
      have : m * 2 ^ odd ≤ 2 ^ 24 * 2 ^ 1 := Nat.mul_le_mul hlt.le (Nat.pow_le_pow_right two_pos h01)
      exact_mod_cast this
    calc 4 * ((r : ℚ) + 1) * (m * 2 ^ odd : Nat) * 2 ^ 300 = 4 * (((r : ℚ) + 1) * (m * 2 ^ odd : Nat) * 2 ^ 300) := by simp only [mul_assoc]
      _ ≤ 4 * ((2 : ℚ) ^ 401 * 2 ^ 25 * 2 ^ 300) := by gcongr
      _ < 4 * 2 ^ 800 := by
        rw [← pow_add, ← pow_add]
        exact mul_lt_mul_of_pos_left (pow_lt_pow_right₀ one_lt_two (by norm_num)) (by norm_num)
  rw [show ((q : ℚ) * 2 ^ (-400 - (e - odd) / 2 - 1)) ^ 2 * (m * 2 ^ e) =
      (q : ℚ) ^ 2 * m * ((2 ^ (-400 - (e - odd) / 2 - 1)) ^ 2 * 2 ^ e) by ring,
    he, ← mul_assoc, mul_assoc ((q : ℚ) ^ 2), show (m : ℚ) * 2 ^ odd = (m * 2 ^ odd : Nat) by push_cast; rfl]
  refine near_one (by positivity) ?_ hsmall
  rwa [show ((2 ^ 800 : Nat) : ℚ) = 2 ^ 800 by rw [Nat.cast_pow, Nat.cast_two]] at hq

/-! ## Logarithms -/

theorem log2Bits_lt (k x acc b : Nat) (h : acc < 2 ^ b) : log2Bits k x acc < 2 ^ (b + k) := by
  induction k generalizing x acc b with
  | zero => exact h
  | succ k ih =>
    unfold log2Bits
    dsimp only
    rw [show b + (k + 1) = b + 1 + k by ring]
    split <;> exact ih _ _ _ (by rw [pow_succ]; omega)

/-- A signed count of units with a sticky bit below its digits, which of a negative count are those of one unit less. -/
def stickyInt (y e : Int) : FVal := if y < 0 then sticky true (y.natAbs - 1) e false else sticky false y.natAbs e false

theorem stickyInt_fin (y e : Int) : ∃ g q x, stickyInt y e = .fin g q x := by
  unfold stickyInt
  split <;> exact ⟨_, _, _, rfl⟩

theorem stickyInt_val (y e : Int) : (stickyInt y e).val = (2 * y + 1) * 2 ^ (e - 1) := by
  unfold stickyInt
  split
  · next h =>
    obtain ⟨k, rfl⟩ : ∃ k : Nat, y = -((k : Int) + 1) := ⟨(-y - 1).toNat, by omega⟩
    rw [show (-((k : Int) + 1)).natAbs - 1 = k by omega]
    simp only [sticky, FVal.val, b2n, Bool.not_false, if_true]
    push_cast; ring
  · next h =>
    lift y to ℕ using not_lt.1 h
    simp [sticky, FVal.val, b2n]

/-- log2 a lies in the interval of its integer part, and is that of a power of two (R215). -/
theorem flog2_fin {m : Nat} (e : Int) (hm : 0 < m) : ∃ g q x, flog2 (.fin false m e) = .fin g q x ∧
    (((Nat.log2 m : Int) + e : Int) : ℚ) ≤ (FVal.fin g q x).val ∧ (FVal.fin g q x).val < (((Nat.log2 m : Int) + e : Int) : ℚ) + 1 ∧
      ((m : ℚ) * 2 ^ e = 2 ^ ((Nat.log2 m : Int) + e) → (FVal.fin g q x).val = (((Nat.log2 m : Int) + e : Int) : ℚ)) := by
  by_cases hp : m = 2 ^ Nat.log2 m
  · have heq : flog2 (.fin false m e) = ofInt ((Nat.log2 m : Int) + e) := by
      unfold flog2
      dsimp only
      rw [if_neg hm.ne', if_neg Bool.false_ne_true, if_pos hp]
    have hv : (ofInt ((Nat.log2 m : Int) + e)).val = (((Nat.log2 m : Int) + e : Int) : ℚ) := by
      rw [ofInt, FVal.val_int, zpow_zero, mul_one]
    exact ⟨_, _, _, heq, hv.ge, hv.trans_lt (lt_add_one _), fun _ => hv⟩
  · have hfr := log2Bits_lt 200 (shiftFloor m (600 - (Nat.log2 m : Int))) 0 0 one_pos
    have heq : flog2 (.fin false m e) =
        stickyInt (((Nat.log2 m : Int) + e) * 2 ^ 200 + log2Bits 200 (shiftFloor m (600 - (Nat.log2 m : Int))) 0) (-200) := by
      unfold flog2
      dsimp only
      rw [if_neg hm.ne', if_neg Bool.false_ne_true, if_neg hp, stickyInt]
    generalize log2Bits 200 (shiftFloor m (600 - (Nat.log2 m : Int))) 0 = fr at hfr heq
    have hpow : (m : ℚ) * 2 ^ e ≠ 2 ^ ((Nat.log2 m : Int) + e) := by
      rw [zpow_add₀ two_ne_zero, zpow_natCast]
      intro h
      exact hp (by exact_mod_cast mul_right_cancel₀ (by positivity) h)
    have hval := stickyInt_val (((Nat.log2 m : Int) + e) * 2 ^ 200 + fr) (-200)
    obtain ⟨g, q, x, h⟩ := stickyInt_fin (((Nat.log2 m : Int) + e) * 2 ^ 200 + fr) (-200)
    rw [h] at hval
    have hfr : (fr : ℚ) + 1 ≤ 2 ^ 200 := by
      rw [zero_add] at hfr
      exact_mod_cast Nat.succ_le_of_lt hfr
    have hunit : (2 : ℚ) ^ ((-200 : Int) - 1) = 1 / (2 * 2 ^ 200) := by
      rw [← pow_succ', one_div, ← zpow_natCast, ← zpow_neg]
      rfl
    have hP : (0 : ℚ) < 2 ^ 200 := by positivity
    have hval : (FVal.fin g q x).val = (((Nat.log2 m : Int) + e : Int) : ℚ) + (2 * fr + 1) / (2 * 2 ^ 200) := by
      rw [hval, hunit]
      push_cast
      field_simp
      ring
    have hlt : (2 * (fr : ℚ) + 1) / (2 * 2 ^ 200) < 1 := by
      rw [div_lt_one (by positivity)]
      linarith
    have hnn : 0 ≤ (2 * (fr : ℚ) + 1) / (2 * 2 ^ 200) := by positivity
    exact ⟨g, q, x, heq.trans h, by linarith, by linarith, fun h => absurd h hpow⟩

end Sys2Proof.Machine
end

section
/-! SUPPORT. The exponential series in units of 2^-512, and powers of two from it (R215; log 12). -/

namespace Sys2Proof.Machine

/-! ## The constants -/

theorem log_two_near : |Real.log 2 - ln2Fix / 2 ^ 512| ≤ 1 / 2 ^ 140 := by
  have hs : |(∑ i ∈ Finset.range 150, (1 / 2 : ℝ) ^ (i + 1) / (i + 1)) - ln2Fix / 2 ^ 512| ≤ 1 / 2 ^ 149 := by
    have hq : |(∑ i ∈ Finset.range 150, (1 / 2 : ℚ) ^ (i + 1) / (i + 1)) - ln2Fix / 2 ^ 512| ≤ 1 / 2 ^ 149 := by decide +kernel
    have h := (Rat.cast_le (K := ℝ)).2 hq
    push_cast at h
    exact h
  have hl := Real.abs_log_sub_add_sum_range_le (show |(1 / 2 : ℝ)| < 1 by rw [abs_of_pos] <;> norm_num) 150
  rw [show (1 : ℝ) - 1 / 2 = 2⁻¹ by norm_num, Real.log_inv, abs_of_pos (show (0 : ℝ) < 1 / 2 by norm_num)] at hl
  generalize (∑ i ∈ Finset.range 150, (1 / 2 : ℝ) ^ (i + 1) / (i + 1)) = sum at hs hl
  generalize (ln2Fix : ℝ) / 2 ^ 512 = l at hs ⊢
  rw [abs_le] at hs hl ⊢
  norm_num at hs hl ⊢
  constructor <;> linarith

theorem log2e_near : |(log2eFix : ℝ) / 2 ^ 512 * (ln2Fix / 2 ^ 512) - 1| ≤ 1 / 2 ^ 140 := by
  have hq : |(log2eFix : ℚ) / 2 ^ 512 * (ln2Fix / 2 ^ 512) - 1| ≤ 1 / 2 ^ 140 := by decide +kernel
  have h := (Rat.cast_le (K := ℝ)).2 hq
  push_cast at h
  exact h

/-! ## The series -/

theorem natDiv_bounds (a : Nat) {b : Nat} (hb : 0 < b) : (a : ℝ) / b - 1 < (a / b : Nat) ∧ ((a / b : Nat) : ℝ) ≤ a / b := by
  have hb' : (0 : ℝ) < b := by exact_mod_cast hb
  refine ⟨?_, Nat.cast_div_le⟩
  have h : (a : ℝ) < b * ((a / b : Nat) + 1) := by exact_mod_cast Nat.lt_mul_div_succ a hb
  rw [sub_lt_iff_lt_add, div_lt_iff₀ hb', mul_comm]
  exact h

theorem units_nonneg (x : Nat) : (0 : ℝ) ≤ x / 2 ^ 512 := div_nonneg x.cast_nonneg (by positivity)

/-- Term i of the exponential series at y, in units of 1 / S. -/
noncomputable def expTerm (S y : ℝ) (i : Nat) : ℝ := S * y ^ i / i.factorial

theorem expTerm_succ (S y : ℝ) (i : Nat) : expTerm S y (i + 1) = expTerm S y i * y / (i + 1 : Nat) := by
  rw [expTerm, expTerm, Nat.factorial_succ, pow_succ]
  push_cast
  field_simp

/-- The next term, from one that has lost at most four units to its roundings (log 12). -/
theorem expTerm_div {x i term : Nat} (hy : (x : ℝ) / 2 ^ 512 ≤ 3 / 4) (hlo : expTerm (2 ^ 512) (x / 2 ^ 512) i - 4 ≤ term)
    (hhi : (term : ℝ) ≤ expTerm (2 ^ 512) (x / 2 ^ 512) i) :
    expTerm (2 ^ 512) (x / 2 ^ 512) (i + 1) - 4 ≤ (term * x / 2 ^ 512 / (i + 1) : Nat) ∧
      ((term * x / 2 ^ 512 / (i + 1) : Nat) : ℝ) ≤ expTerm (2 ^ 512) (x / 2 ^ 512) (i + 1) := by
  obtain ⟨ht1, ht2⟩ := natDiv_bounds (term * x) (show 0 < 2 ^ 512 * (i + 1) by positivity)
  have hscale : ((term * x : Nat) : ℝ) / (2 ^ 512 * (i + 1) : Nat) = term * (x / 2 ^ 512 / (i + 1 : Nat)) := by
    rw [Nat.cast_mul, Nat.cast_mul, Nat.cast_pow, Nat.cast_two, mul_div_assoc, div_div]
  rw [hscale, ← Nat.div_div_eq_div_mul] at ht1 ht2
  rw [expTerm_succ, mul_div_assoc]
  have hd0 : 0 ≤ (x : ℝ) / 2 ^ 512 / (i + 1 : Nat) := div_nonneg (units_nonneg x) (Nat.cast_nonneg _)
  have hd : (x : ℝ) / 2 ^ 512 / (i + 1 : Nat) ≤ 3 / 4 :=
    (div_le_self (units_nonneg x) (by exact_mod_cast Nat.succ_le_succ (Nat.zero_le i))).trans hy
  generalize term * x / 2 ^ 512 / (i + 1) = t at *
  generalize expTerm (2 ^ 512) (x / 2 ^ 512) i = T at *
  generalize (x : ℝ) / 2 ^ 512 / (i + 1 : Nat) = d at *
  constructor <;> nlinarith

/-- Each term of the series loses at most four units to its roundings. -/
theorem expSeries_bounds (k x i term acc : Nat) (hy : (x : ℝ) / 2 ^ 512 ≤ 3 / 4)
    (hlo : expTerm (2 ^ 512) (x / 2 ^ 512) i - 4 ≤ term) (hhi : (term : ℝ) ≤ expTerm (2 ^ 512) (x / 2 ^ 512) i) :
    acc + ∑ j ∈ Finset.range k, expTerm (2 ^ 512) (x / 2 ^ 512) (i + 1 + j) - 4 * k ≤ expSeries k x (i + 1) term acc ∧
      (expSeries k x (i + 1) term acc : ℝ) ≤ acc + ∑ j ∈ Finset.range k, expTerm (2 ^ 512) (x / 2 ^ 512) (i + 1 + j) := by
  induction k generalizing i term acc with
  | zero => simp [expSeries]
  | succ k ih =>
    obtain ⟨ht1, ht2⟩ := expTerm_div hy hlo hhi
    have hnext := ih (i + 1) (term * x / 2 ^ 512 / (i + 1)) (acc + term * x / 2 ^ 512 / (i + 1)) ht1 ht2
    have hsum (f : Nat → ℝ) : ∑ j ∈ Finset.range (k + 1), f (i + 1 + j) = f (i + 1) + ∑ j ∈ Finset.range k, f (i + 1 + 1 + j) := by
      rw [Finset.sum_range_succ', add_comm]
      exact congrArg _ (Finset.sum_congr rfl fun j _ => by rw [show i + 1 + (j + 1) = i + 1 + 1 + j by omega])
    rw [hsum, expSeries]
    generalize term * x / 2 ^ 512 / (i + 1) = t at *
    push_cast at hnext ⊢
    constructor <;> linarith

theorem expTerm_sum (S y : ℝ) (k : Nat) :
    S + ∑ j ∈ Finset.range k, expTerm S y (0 + 1 + j) = S * ∑ m ∈ Finset.range (k + 1), y ^ m / m.factorial := by
  rw [Finset.mul_sum, Finset.sum_range_succ', add_comm]
  congr 1
  · exact Finset.sum_congr rfl fun j _ => by rw [expTerm, zero_add, add_comm 1 j, mul_div_assoc]
  · simp

/-- What the series leaves out after 121 terms. -/
theorem expTail_le {y : ℝ} (h0 : 0 ≤ y) (h1 : y ≤ 1) {n : Nat} (hn : n = 121) : 2 ^ 512 * (y ^ n * (n + 1) / (n.factorial * n)) ≤ 1 := by
  have hfact : 2 ^ 512 * (n + 1) ≤ n.factorial * n := by subst hn; decide +kernel
  have hfact : (2 : ℝ) ^ 512 * (n + 1) ≤ n.factorial * n := by exact_mod_cast hfact
  have hpos : (0 : ℝ) < n.factorial * n := by
    have : 0 < n := by omega
    positivity
  rw [← mul_div_assoc, div_le_one hpos, mul_left_comm]
  exact (mul_le_of_le_one_left (by positivity) (pow_le_one₀ h0 h1)).trans hfact

/-- The exponential of y to 500 units (log 12). -/
theorem expSeries_exp {x : Nat} (hy : (x : ℝ) / 2 ^ 512 ≤ 3 / 4) :
    (2 : ℝ) ^ 512 * Real.exp (x / 2 ^ 512) - 500 ≤ expSeries 120 x 1 (2 ^ 512) (2 ^ 512) ∧
      (expSeries 120 x 1 (2 ^ 512) (2 ^ 512) : ℝ) ≤ 2 ^ 512 * Real.exp (x / 2 ^ 512) := by
  have hcast : ((2 ^ 512 : Nat) : ℝ) = 2 ^ 512 := by simp only [Nat.cast_pow, Nat.cast_ofNat]
  have hzero : expTerm (2 ^ 512) (x / 2 ^ 512) 0 = (2 ^ 512 : Nat) := by
    rw [expTerm, pow_zero, Nat.factorial_zero, Nat.cast_one, mul_one, div_one, hcast]
  obtain ⟨h1, h2⟩ := expSeries_bounds 120 x 0 (2 ^ 512) (2 ^ 512) hy (by rw [hzero]; exact sub_le_self _ (by norm_num)) hzero.ge
  rw [hcast, expTerm_sum] at h1 h2
  have hy0 := units_nonneg x
  have hy1 : (x : ℝ) / 2 ^ 512 ≤ 1 := hy.trans (by norm_num)
  have hS : (0 : ℝ) ≤ 2 ^ 512 := by positivity
  have hlow := mul_le_mul_of_nonneg_left (Real.sum_le_exp_of_nonneg hy0 (120 + 1)) hS
  have hup := mul_le_mul_of_nonneg_left (Real.exp_bound' hy0 hy1 (Nat.succ_pos 120)) hS
  have htail := expTail_le hy0 hy1 (n := 120 + 1) rfl
  rw [mul_add] at hup
  have hloss (A B : ℝ) (h : A ≤ B + 1) : A - 500 ≤ B - 4 * (120 : Nat) := by push_cast; linarith
  exact ⟨(hloss _ _ (hup.trans (add_le_add_right htail _))).trans h1, h2.trans hlow⟩

/-! ## Powers of two -/

/-- Exponentials of near arguments are near. -/
theorem exp_near {a b d : ℝ} (h : |a - b| ≤ d) (hd : d ≤ 1) : |Real.exp a - Real.exp b| ≤ Real.exp b * (2 * d) := by
  have he : Real.exp a - Real.exp b = Real.exp b * (Real.exp (a - b) - 1) := by rw [mul_sub, ← Real.exp_add, add_sub_cancel, mul_one]
  rw [he, abs_mul, Real.abs_exp]
  have := Real.abs_exp_sub_one_le (h.trans hd)
  exact mul_le_mul_of_nonneg_left (this.trans (by linarith)) (Real.exp_pos b).le

theorem log_two_mem : Real.log 2 ∈ Set.Icc 0 (7 / 10 : ℝ) :=
  ⟨Real.log_nonneg one_le_two, Real.log_two_lt_d9.le.trans (by norm_num)⟩

/-- The argument of the series for a fraction f in units of 2^-512 (log 12). -/
theorem ln2Fix_mul_near {f : Nat} (hf : f < 2 ^ 512) :
    |((f * ln2Fix / 2 ^ 512 : Nat) : ℝ) / 2 ^ 512 - f / 2 ^ 512 * Real.log 2| ≤ 1 / 2 ^ 139 ∧
      ((f * ln2Fix / 2 ^ 512 : Nat) : ℝ) / 2 ^ 512 ≤ 3 / 4 := by
  have hS : (0 : ℝ) < 2 ^ 512 := by positivity
  obtain ⟨h1, h2⟩ := natDiv_bounds (f * ln2Fix) (show 0 < 2 ^ 512 by positivity)
  rw [show ((2 ^ 512 : Nat) : ℝ) = 2 ^ 512 by simp only [Nat.cast_pow, Nat.cast_ofNat], Nat.cast_mul, mul_div_assoc] at h1 h2
  have hl := log_two_near
  have hl7 := log_two_mem
  have hf0 := units_nonneg f
  have hl0 := units_nonneg ln2Fix
  have hf1 : (f : ℝ) / 2 ^ 512 ≤ 1 := by
    rw [div_le_one hS]
    exact_mod_cast hf.le
  have h1' : (f : ℝ) / 2 ^ 512 * (ln2Fix / 2 ^ 512) - 1 / 2 ^ 512 ≤ ((f * ln2Fix / 2 ^ 512 : Nat) : ℝ) / 2 ^ 512 := by
    rw [le_div_iff₀ hS, sub_mul, one_div_mul_cancel hS.ne']
    refine le_trans (le_of_eq ?_) h1.le
    field_simp
  have h2' : ((f * ln2Fix / 2 ^ 512 : Nat) : ℝ) / 2 ^ 512 ≤ (f : ℝ) / 2 ^ 512 * (ln2Fix / 2 ^ 512) := by
    rw [div_le_iff₀ hS]
    refine h2.trans (le_of_eq ?_)
    field_simp
  have hunit : (1 : ℝ) / 2 ^ 512 ≤ 1 / 2 ^ 140 := one_div_le_one_div_of_le (by positivity) (pow_le_pow_right₀ one_le_two (by norm_num))
  generalize ((f * ln2Fix / 2 ^ 512 : Nat) : ℝ) / 2 ^ 512 = y at *
  generalize (ln2Fix : ℝ) / 2 ^ 512 = l at *
  generalize (f : ℝ) / 2 ^ 512 = p at *
  generalize (1 : ℝ) / 2 ^ 512 = u at *
  have hpl : |p * Real.log 2 - p * l| ≤ 1 / 2 ^ 140 := by
    rw [← mul_sub, abs_mul, abs_of_nonneg hf0]
    exact (mul_le_of_le_one_left (abs_nonneg _) hf1).trans hl
  have hl1 : l ≤ 3 / 4 := by
    have := (abs_le.1 hl).1
    have : (1 : ℝ) / 2 ^ 140 ≤ 1 / 20 := by norm_num
    linarith [hl7.2]
  have hdouble : (1 : ℝ) / 2 ^ 139 = 1 / 2 ^ 140 + 1 / 2 ^ 140 := by norm_num
  refine ⟨?_, h2'.trans ((mul_le_of_le_one_left hl0 hf1).trans hl1)⟩
  rw [hdouble]
  rw [abs_le] at hpl ⊢
  constructor <;> linarith

/-- 2^f for a fraction f in units of 2^-512 (log 12). -/
theorem exp2Frac_near {f : Nat} (hf : f < 2 ^ 512) :
    |(exp2Frac f : ℝ) / 2 ^ 512 - Real.exp (f / 2 ^ 512 * Real.log 2)| ≤ 1 / 2 ^ 130 := by
  obtain ⟨hnear, hy⟩ := ln2Fix_mul_near hf
  obtain ⟨h1, h2⟩ := expSeries_exp hy
  have hS : (0 : ℝ) < 2 ^ 512 := by positivity
  have hunits : 500 / (2 : ℝ) ^ 512 ≤ 1 / 2 ^ 140 := by
    rw [div_le_div_iff₀ hS (by positivity), one_mul]
    calc (500 : ℝ) * 2 ^ 140 ≤ 2 ^ 9 * 2 ^ 140 := mul_le_mul_of_nonneg_right (by norm_num) (by positivity)
      _ ≤ 2 ^ 512 := by
        rw [← pow_add]
        exact pow_le_pow_right₀ one_le_two (by norm_num)
  have hseries : |(exp2Frac f : ℝ) / 2 ^ 512 - Real.exp ((f * ln2Fix / 2 ^ 512 : Nat) / 2 ^ 512)| ≤ 1 / 2 ^ 140 := by
    rw [show (exp2Frac f : ℝ) / 2 ^ 512 - Real.exp ((f * ln2Fix / 2 ^ 512 : Nat) / 2 ^ 512) =
      (exp2Frac f - 2 ^ 512 * Real.exp ((f * ln2Fix / 2 ^ 512 : Nat) / 2 ^ 512)) / 2 ^ 512 by rw [sub_div, mul_div_cancel_left₀ _ hS.ne'],
      abs_div, abs_of_pos hS]
    refine (div_le_div_of_nonneg_right ?_ hS.le).trans hunits
    exact abs_le.2 ⟨by rw [neg_le_sub_iff_le_add]; exact sub_le_iff_le_add.1 h1, (sub_nonpos.2 h2).trans (by norm_num)⟩
  have hexp := exp_near hnear (by norm_num)
  have hp1 : (f : ℝ) / 2 ^ 512 ≤ 1 := by
    rw [div_le_one hS]
    exact_mod_cast hf.le
  have htwo : Real.exp (f / 2 ^ 512 * Real.log 2) ≤ 2 :=
    (Real.exp_le_exp.2 (mul_le_of_le_one_left log_two_mem.1 hp1)).trans_eq (Real.exp_log two_pos)
  refine (abs_sub_le _ _ _).trans ((add_le_add hseries (hexp.trans (mul_le_mul_of_nonneg_right htwo (by positivity)))).trans (by norm_num))

theorem le_expSeries (k x i term acc : Nat) : acc ≤ expSeries k x i term acc := by
  induction k generalizing i term acc with
  | zero => exact le_rfl
  | succ k ih =>
    rw [expSeries]
    exact (Nat.le_add_right _ _).trans (ih _ _ _)

theorem one_le_exp2Frac (f : Nat) : 2 ^ 512 ≤ exp2Frac f := le_expSeries _ _ _ _ _

end Sys2Proof.Machine
end

section
/-! SUPPORT. 2^a over a fixed-point argument (R215; log 12). -/

namespace Sys2Proof.Machine

/-! ## 2^a -/

/-- The fixed-point argument of 2^a: its number in units of 2^-512, rounded towards zero. -/
theorem fixed_eq (s : Bool) (m : Nat) (e : Int) : (if s then -(shiftFloor m (e + 512) : Int) else shiftFloor m (e + 512)) =
    if s then ⌈(FVal.fin s m e).val * 2 ^ 512⌉ else ⌊(FVal.fin s m e).val * 2 ^ 512⌋ := by
  have hscale : (m : ℚ) * 2 ^ (e + 512) = m * 2 ^ e * 2 ^ 512 := by
    rw [zpow_add₀ two_ne_zero, mul_assoc, ← zpow_natCast (2 : ℚ) 512]; rfl
  rw [shiftFloor_eq, hscale, FVal.val]
  have hnn : (0 : ℚ) ≤ m * 2 ^ e * 2 ^ 512 := mul_nonneg (by positivity) (by positivity)
  cases s
  · simp only [Bool.false_eq_true, if_false, one_mul]
    exact Int.natCast_floor_eq_floor hnn
  · simp only [if_true, neg_mul, one_mul, Int.ceil_neg]
    exact congrArg _ (Int.natCast_floor_eq_floor hnn)

/-- The fixed-point argument y of a number w: within a unit of it, at least every integer below it, and itself where it is one. -/
theorem fixed_bounds (s : Bool) (w : ℚ) {y : Int} (hy : y = if s then ⌈w * 2 ^ 512⌉ else ⌊w * 2 ^ 512⌋) :
    |(y : ℚ) - w * 2 ^ 512| ≤ 1 ∧ (∀ k : Int, (k : ℚ) ≤ w → k * 2 ^ 512 ≤ y) ∧ ∀ k : Int, w = k → y = k * 2 ^ 512 := by
  have hcast (k : Int) : ((k * 2 ^ 512 : Int) : ℚ) = k * 2 ^ 512 := by
    rw [Int.cast_mul]
    simp only [Int.cast_pow, Int.cast_ofNat]
  have hmono {k : Int} (hk : (k : ℚ) ≤ w) : ((k * 2 ^ 512 : Int) : ℚ) ≤ w * 2 ^ 512 := by
    rw [hcast]
    exact mul_le_mul_of_nonneg_right hk (by positivity)
  generalize hN : (2 : ℚ) ^ 512 = N at *
  cases s
  · rw [if_neg Bool.false_ne_true] at hy
    subst hy
    refine ⟨?_, fun k hk => Int.le_floor.2 (hmono hk), fun k hk => ?_⟩
    · have h1 := Int.floor_le (w * N)
      have h2 := Int.lt_floor_add_one (w * N)
      rw [abs_le]; constructor <;> linarith
    · rw [hk, ← hcast, Int.floor_intCast]
  · rw [if_pos rfl] at hy
    subst hy
    refine ⟨?_, fun k hk => Int.cast_le.1 ((hmono hk).trans (Int.le_ceil _)), fun k hk => ?_⟩
    · have h1 := Int.le_ceil (w * N)
      have h2 := Int.ceil_lt_add_one (w * N)
      rw [abs_le]; constructor <;> linarith
    · rw [hk, ← hcast, Int.ceil_intCast]

/-- 2^y for y in units of 2^-512, as fexp2 gives it. -/
def exp2Fixed (y : Int) : FVal :=
  let n := y / (2 ^ 512 : Int)
  let f := (y % (2 ^ 512 : Int)).toNat
  if f = 0 then .fin false 1 n else sticky false (exp2Frac f) (n - 512) false

theorem fexp2_eq (s : Bool) {m : Nat} {e : Int} (hm : 0 < m) (hv : (m : ℚ) * 2 ^ e < 2 ^ 13) :
    fexp2 (.fin s m e) = exp2Fixed (if s then -(shiftFloor m (e + 512) : Int) else shiftFloor m (e + 512)) := by
  have hlog : ¬(Nat.log2 m : Int) + e > 12 := by
    have := (log2_bounds hm e).1.trans_lt hv
    rw [← zpow_natCast, zpow_lt_zpow_iff_right₀ one_lt_two] at this
    push_cast at this; omega
  unfold fexp2 exp2Fixed
  dsimp only
  rw [if_neg hm.ne', if_neg hlog]

/-- The exponential of a fixed-point argument, by its integer part and its fraction. -/
theorem exp_fixed_split (y : Int) :
    Real.exp (y / 2 ^ 512 * Real.log 2) = 2 ^ (y / 2 ^ 512 : Int) * Real.exp ((y % 2 ^ 512 : Int) / 2 ^ 512 * Real.log 2) := by
  have hS : (2 : ℝ) ^ 512 ≠ 0 := by positivity
  have hsplit := congrArg (Int.cast (R := ℝ)) (Int.emod_add_mul_ediv y (2 ^ 512))
  simp only [Int.cast_add, Int.cast_mul, Int.cast_pow, Int.cast_ofNat] at hsplit
  have hy : (y : ℝ) / 2 ^ 512 = (y / 2 ^ 512 : Int) + (y % 2 ^ 512 : Int) / 2 ^ 512 := by
    rw [← hsplit, add_div, mul_div_cancel_left₀ _ hS, add_comm]
  rw [hy, add_mul, Real.exp_add, mul_comm ((y / 2 ^ 512 : Int) : ℝ), ← Real.rpow_def_of_pos two_pos, Real.rpow_intCast]

/-- The power of two of a fixed-point argument: at least that of its integer part, that one where there is no fraction, and near the exponential. -/
theorem exp2Fixed_near (y : Int) : ∃ q x, exp2Fixed y = .fin false q x ∧ (2 : ℚ) ^ (y / 2 ^ 512) ≤ q * 2 ^ x ∧
    (y % 2 ^ 512 = 0 → (q : ℚ) * 2 ^ x = 2 ^ (y / 2 ^ 512)) ∧
      |(q : ℝ) * 2 ^ x - Real.exp (y / 2 ^ 512 * Real.log 2)| ≤ Real.exp (y / 2 ^ 512 * Real.log 2) * (1 / 2 ^ 129) := by
  have hSZ : (0 : Int) < 2 ^ 512 := by positivity
  have hf0 := Int.emod_nonneg y hSZ.ne'
  have hf1 := Int.emod_lt_of_pos y hSZ
  rw [exp_fixed_split]
  unfold exp2Fixed
  dsimp only
  generalize y / 2 ^ 512 = n at *
  generalize y % 2 ^ 512 = g at *
  lift g to ℕ using hf0
  have hf : g < 2 ^ 512 := by exact_mod_cast hf1
  have hp : (0 : ℝ) < 2 ^ n := by positivity
  rw [Int.cast_natCast, Int.toNat_natCast]
  by_cases h0 : g = 0
  · subst h0
    refine ⟨1, n, if_pos rfl, by simp, fun _ => by simp, ?_⟩
    simp [hp.le]
  · refine ⟨_, _, if_neg h0, ?_, fun h => absurd (by exact_mod_cast h) h0, ?_⟩
    · have hE : (2 : ℚ) ^ 512 ≤ exp2Frac g := by exact_mod_cast one_le_exp2Frac g
      have hshift : (2 : ℚ) ^ n = 2 * 2 ^ 512 * 2 ^ (n - 512 - 1) := by
        rw [← pow_succ', ← zpow_natCast, ← zpow_add₀ two_ne_zero]
        congr 1
        push_cast; ring
      rw [hshift]
      refine mul_le_mul_of_nonneg_right ?_ (by positivity)
      rw [Nat.cast_add, Nat.cast_mul, Nat.cast_two]
      exact (mul_le_mul_of_nonneg_left hE zero_le_two).trans (le_add_of_nonneg_right (Nat.cast_nonneg _))
    · have hnear := exp2Frac_near hf
      have hshift : (2 : ℝ) ^ (n - 512 - 1) = 2 ^ n / (2 * 2 ^ 512) := by
        rw [← pow_succ', eq_div_iff (by positivity), ← zpow_natCast, ← zpow_add₀ two_ne_zero]
        congr 1
        push_cast; ring
      have hone : 1 ≤ Real.exp (g / 2 ^ 512 * Real.log 2) := Real.one_le_exp (mul_nonneg (units_nonneg g) log_two_mem.1)
      have hu : 1 / (2 * 2 ^ 512 : ℝ) ≤ 1 / 2 ^ 130 := by
        rw [← pow_succ']
        exact one_div_le_one_div_of_le (by positivity) (pow_le_pow_right₀ one_le_two (by norm_num))
      have hu0 : 0 ≤ 1 / (2 * 2 ^ 512 : ℝ) := one_div_nonneg.2 (by positivity)
      have hval : ((2 * exp2Frac g + b2n (!false) : Nat) : ℝ) * 2 ^ (n - 512 - 1) = 2 ^ n * (exp2Frac g / 2 ^ 512 + 1 / (2 * 2 ^ 512)) := by
        rw [hshift, show ((2 * exp2Frac g + b2n (!false) : Nat) : ℝ) = 2 * exp2Frac g + 1 by simp [b2n]]
        generalize (2 : ℝ) ^ 512 = S at *
        field_simp
      rw [hval, ← mul_sub, abs_mul, abs_of_pos hp, mul_assoc]
      refine mul_le_mul_of_nonneg_left ?_ hp.le
      generalize Real.exp (g / 2 ^ 512 * Real.log 2) = X at *
      generalize (exp2Frac g : ℝ) / 2 ^ 512 = E at *
      generalize 1 / (2 * 2 ^ 512 : ℝ) = u at *
      have hsum : |E + u - X| ≤ 1 / 2 ^ 129 := by
        have hhalf : (1 : ℝ) / 2 ^ 129 = 1 / 2 ^ 130 + 1 / 2 ^ 130 := by norm_num
        rw [hhalf, abs_le]
        obtain ⟨h1, h2⟩ := abs_le.1 hnear
        constructor <;> linarith
      exact hsum.trans (le_mul_of_one_le_left (by positivity) hone)

/-- A fixed-point argument within a unit of its number. -/
theorem fixed_arg_near {y : Int} {w : ℚ} (h : |(y : ℚ) - w * 2 ^ 512| ≤ 1) :
    |(y : ℝ) / 2 ^ 512 * Real.log 2 - w * Real.log 2| ≤ 1 / 2 ^ 140 := by
  have h : |(y : ℝ) - w * 2 ^ 512| ≤ 1 := by
    have h := (Rat.cast_le (K := ℝ)).2 h
    simp only [Rat.cast_abs, Rat.cast_sub, Rat.cast_intCast, Rat.cast_mul, Rat.cast_pow, Rat.cast_ofNat, Rat.cast_one] at h
    exact h
  have hS : (0 : ℝ) < 2 ^ 512 := by positivity
  have hu : (1 : ℝ) / 2 ^ 512 ≤ 1 / 2 ^ 140 := one_div_le_one_div_of_le (by positivity) (pow_le_pow_right₀ one_le_two (by norm_num))
  have hw : (w : ℝ) = w * 2 ^ 512 / 2 ^ 512 := by rw [mul_div_cancel_right₀ _ hS.ne']
  obtain ⟨hl0, hl1⟩ := log_two_mem
  rw [← sub_mul, abs_mul, hw, ← sub_div, abs_div, abs_of_pos hS, abs_of_nonneg hl0]
  exact (mul_le_of_le_one_right (div_nonneg (abs_nonneg _) hS.le) (hl1.trans (by norm_num))).trans ((div_le_div_of_nonneg_right h hS.le).trans hu)

/-- 2^a: its number is exact for an integer, at least the power of its integer part, and within a 2^30th part (R215). -/
theorem fexp2_fin (s : Bool) {m : Nat} {e : Int} (hm : 0 < m) (hv : (m : ℚ) * 2 ^ e < 2 ^ 13) :
    ∃ q x, fexp2 (.fin s m e) = .fin false q x ∧ (2 : ℚ) ^ ⌊(FVal.fin s m e).val⌋ ≤ q * 2 ^ x ∧
      |(q : ℝ) * 2 ^ x - (2 : ℝ) ^ (((FVal.fin s m e).val : ℚ) : ℝ)| ≤ (2 : ℝ) ^ (((FVal.fin s m e).val : ℚ) : ℝ) / 2 ^ 30 ∧
      ∀ n : Int, (FVal.fin s m e).val = n → (q : ℚ) * 2 ^ x = 2 ^ n := by
  rw [fexp2_eq s hm hv, fixed_eq]
  generalize (FVal.fin s m e).val = w
  obtain ⟨hnear, hbelow, hint⟩ := fixed_bounds s w rfl
  generalize (if s then ⌈w * 2 ^ 512⌉ else ⌊w * 2 ^ 512⌋) = y at *
  obtain ⟨q, x, heq, hge, hexact, hexp⟩ := exp2Fixed_near y
  have hSZ : (0 : Int) < 2 ^ 512 := by positivity
  refine ⟨q, x, heq, ?_, ?_, fun n hn => ?_⟩
  · exact (zpow_le_zpow_right₀ one_le_two (Int.le_ediv_of_mul_le hSZ (hbelow _ (Int.floor_le w)))).trans hge
  · rw [Real.rpow_def_of_pos two_pos, mul_comm (Real.log 2)]
    have harg := fixed_arg_near hnear
    have hW := Real.exp_pos (w * Real.log 2)
    have hmove := exp_near harg (by norm_num)
    generalize Real.exp (y / 2 ^ 512 * Real.log 2) = P at *
    generalize Real.exp (w * Real.log 2) = W at *
    have hP : P ≤ 2 * W := by linarith [(abs_le.1 hmove).2, hW]
    refine (abs_sub_le _ P _).trans ((add_le_add (hexp.trans (mul_le_mul_of_nonneg_right hP (by positivity))) hmove).trans ?_)
    rw [div_eq_mul_inv, mul_comm 2 W, mul_assoc, ← mul_add]
    exact mul_le_mul_of_nonneg_left (by norm_num) hW.le
  · rw [hint n hn, Int.mul_ediv_cancel _ hSZ.ne'] at hexact
    exact hexact (Int.mul_emod_left _ _)

end Sys2Proof.Machine
end

section
/-! SUPPORT. tanh a from e^(-2a) (R215; log 12). -/

namespace Sys2Proof.Machine

/-! ## The function -/

theorem tanh_eq_exp (v : ℝ) : Real.tanh v = (1 - Real.exp (-(2 * v))) / (1 + Real.exp (-(2 * v))) := by
  have h : Real.exp (-v) = Real.exp v * Real.exp (-(2 * v)) := by rw [← Real.exp_add]; congr 1; ring
  rw [Real.tanh_eq, h, ← mul_one_sub, ← mul_one_add, mul_div_mul_left _ _ (Real.exp_pos v).ne']

theorem tanh_ge (v : ℝ) : v ≤ Real.tanh v * (1 + v) := by
  have hw := Real.exp_pos (-(2 * v))
  have h : Real.exp (-(2 * v)) * (1 + 2 * v) ≤ 1 := by
    rw [Real.exp_neg, inv_mul_le_one₀ (Real.exp_pos _), add_comm]
    exact Real.add_one_le_exp _
  rw [tanh_eq_exp, div_mul_eq_mul_div, le_div_iff₀ (by linarith)]
  nlinarith

theorem tanh_le (v : ℝ) : Real.tanh v * (1 - v) ≤ v := by
  have hw := Real.exp_pos (-(2 * v))
  have h := Real.add_one_le_exp (-(2 * v))
  rw [tanh_eq_exp, div_mul_eq_mul_div, div_le_iff₀ (by linarith)]
  nlinarith

/-- The quotient (1 - w) / (1 + w) moves by at most twice its argument. -/
theorem quotient_near {t w d : ℝ} (ht : 0 ≤ t) (hw : 0 ≤ w) (h : |t - w| ≤ d) : |(1 - t) / (1 + t) - (1 - w) / (1 + w)| ≤ 2 * d := by
  have hp : 1 ≤ (1 + t) * (1 + w) := by nlinarith
  have heq : (1 - t) / (1 + t) - (1 - w) / (1 + w) = -2 * (t - w) / ((1 + t) * (1 + w)) := by
    field_simp
    ring
  rw [heq, abs_div, abs_mul, abs_of_pos (zero_lt_one.trans_le hp)]
  refine (div_le_self (by positivity) hp).trans ?_
  norm_num
  exact h

/-! ## Small and large arguments -/

/-- Below 2^-60 the function is its argument, less than half a unit more than the result. -/
theorem tanh_near_self {v d : ℝ} (hv : 0 ≤ v) (hsmall : v ≤ 1 / 2 ^ 60) (hd0 : 0 ≤ d) (hd : d ≤ v / 2 ^ 60) :
    |v - d - Real.tanh v| ≤ Real.tanh v / 2 ^ 30 := by
  have hone : (1 : ℝ) / 2 ^ 60 < 1 / 2 := by norm_num
  have hge := tanh_ge v
  have hle := tanh_le v
  generalize Real.tanh v = T at *
  have hT : 0 ≤ T := by nlinarith
  have hTv : T * v ≤ T * (1 / 2 ^ 60) := mul_le_mul_of_nonneg_left hsmall hT
  rw [abs_le]
  constructor <;> linarith

/-- From 128 on the function is 1 to its result's digits. -/
theorem tanh_near_one {v r : ℝ} (hv : 128 ≤ v) (hr : 1 - 1 / 2 ^ 60 ≤ r) (hr1 : r ≤ 1) : |r - Real.tanh v| ≤ Real.tanh v / 2 ^ 30 := by
  have hw := Real.exp_pos (-(2 * v))
  have hexp : Real.exp (-(2 * v)) ≤ 1 / 2 ^ 60 := by
    have h2 : (2 : ℝ) ≤ Real.exp 1 := by linarith [Real.add_one_le_exp (1 : ℝ)]
    have h60 : (2 : ℝ) ^ 60 ≤ Real.exp (2 * v) := by
      refine (pow_le_pow_left₀ two_pos.le h2 60).trans ?_
      rw [Real.exp_one_pow, Real.exp_le_exp]
      push_cast
      linarith
    rw [Real.exp_neg, ← one_div]
    exact one_div_le_one_div_of_le (by positivity) h60
  have hnear := quotient_near (t := Real.exp (-(2 * v))) (w := 0) (d := 1 / 2 ^ 60) hw.le le_rfl (by rwa [sub_zero, abs_of_pos hw])
  rw [← tanh_eq_exp, sub_zero, add_zero, div_one] at hnear
  rw [abs_le] at hnear ⊢
  constructor <;> linarith

/-! ## The quotient -/

theorem exp2Frac_le {f : Nat} (hf : f < 2 ^ 512) : exp2Frac f ≤ 2 ^ 514 := by
  have hS : (0 : ℝ) < 2 ^ 512 := by positivity
  have h := (abs_le.1 (exp2Frac_near hf)).2
  have hp1 : (f : ℝ) / 2 ^ 512 ≤ 1 := by
    rw [div_le_one hS]
    exact_mod_cast hf.le
  have htwo : Real.exp (f / 2 ^ 512 * Real.log 2) ≤ 2 :=
    (Real.exp_le_exp.2 (mul_le_of_le_one_left log_two_mem.1 hp1)).trans_eq (Real.exp_log two_pos)
  have h4 : (exp2Frac f : ℝ) / 2 ^ 512 ≤ 2 ^ 2 := (sub_le_iff_le_add'.1 h).trans ((add_le_add_left htwo _).trans (by norm_num))
  rw [div_le_iff₀ hS, ← pow_add] at h4
  rw [← Nat.cast_le (α := ℝ), Nat.cast_pow, Nat.cast_ofNat]
  exact h4

theorem exp2Frac_pos (f : Nat) : 0 < exp2Frac f := Nat.pos_of_ne_zero fun h => absurd (h ▸ one_le_exp2Frac f) (by decide +kernel)

/-- e^-x for x in units of 2^-512, as ftanh takes it. -/
def expNeg (x : Nat) : Nat :=
  let y := x * log2eFix / 2 ^ 512
  2 ^ 1024 / exp2Frac (y % 2 ^ 512) / 2 ^ (y / 2 ^ 512)

theorem expNeg_le (x : Nat) : expNeg x ≤ 2 ^ 512 := by
  refine (Nat.div_le_self _ _).trans ((Nat.div_le_div_left (one_le_exp2Frac _) (by positivity)).trans_eq ?_)
  rw [show 1024 = 512 + 512 from rfl, pow_add, Nat.mul_div_cancel _ (by positivity)]

theorem expNeg_pos {x : Nat} (hx : x < 2 ^ 8 * 2 ^ 512) : 0 < expNeg x := by
  have hlog : log2eFix ≤ 2 ^ 512 + 2 ^ 511 := by decide +kernel
  have hn : x * log2eFix / 2 ^ 512 / 2 ^ 512 ≤ 384 := by
    have h := (Nat.div_le_div_right (c := 2 ^ 512) (Nat.div_le_div_right (c := 2 ^ 512) (Nat.mul_le_mul hx.le hlog)))
    refine h.trans (by decide +kernel)
  have hfrac := Nat.mod_lt (x * log2eFix / 2 ^ 512) (show 0 < 2 ^ 512 by positivity)
  have hle := Nat.mul_le_mul (exp2Frac_le hfrac) (Nat.pow_le_pow_right two_pos hn)
  rw [expNeg, Nat.div_div_eq_div_mul]
  refine Nat.div_pos (hle.trans ?_) (Nat.mul_pos (exp2Frac_pos _) (Nat.two_pow_pos _))
  decide +kernel

/-- The quotient of a number by log 2, as ftanh takes it, times log 2 again (log 12). -/
theorem log2e_arg_near {x : Nat} {v : ℝ} (hx : (x : ℝ) / 2 ^ 512 = v) (hv : v ≤ 2 ^ 8) :
    |((x * log2eFix / 2 ^ 512 : Nat) : ℝ) / 2 ^ 512 * Real.log 2 - v| ≤ 1 / 2 ^ 130 := by
  have hS : (0 : ℝ) < 2 ^ 512 := by positivity
  have hv0 : 0 ≤ v := hx ▸ units_nonneg x
  have hfloor : |((x * log2eFix / 2 ^ 512 : Nat) : ℝ) / 2 ^ 512 - v * (log2eFix / 2 ^ 512)| ≤ 1 / 2 ^ 140 := by
    obtain ⟨h1, h2⟩ := natDiv_bounds (x * log2eFix) (show 0 < 2 ^ 512 by positivity)
    rw [show ((2 ^ 512 : Nat) : ℝ) = 2 ^ 512 by simp only [Nat.cast_pow, Nat.cast_ofNat], Nat.cast_mul, mul_div_assoc] at h1 h2
    have hscale : ((x * log2eFix / 2 ^ 512 : Nat) : ℝ) / 2 ^ 512 - v * (log2eFix / 2 ^ 512) =
        ((x * log2eFix / 2 ^ 512 : Nat) - x * (log2eFix / 2 ^ 512)) / 2 ^ 512 := by
      rw [← hx, sub_div, mul_div_right_comm]
    have hunit : (1 : ℝ) / 2 ^ 512 ≤ 1 / 2 ^ 140 := one_div_le_one_div_of_le (by positivity) (pow_le_pow_right₀ one_le_two (by norm_num))
    rw [hscale, abs_div, abs_of_pos hS]
    refine (div_le_div_of_nonneg_right ?_ hS.le).trans hunit
    generalize (x : ℝ) * (log2eFix / 2 ^ 512) = z at *
    rw [abs_le]
    constructor <;> linarith
  have hlogs : |(log2eFix : ℝ) / 2 ^ 512 * Real.log 2 - 1| ≤ 3 / 2 ^ 140 := by
    have hL0 := units_nonneg log2eFix
    have hL : (log2eFix : ℝ) / 2 ^ 512 ≤ 2 := by
      have h : (log2eFix : ℝ) ≤ (2 * 2 ^ 512 : Nat) := Nat.cast_le.2 (by decide +kernel)
      rw [div_le_iff₀ hS]
      simpa only [Nat.cast_mul, Nat.cast_pow, Nat.cast_ofNat] using h
    have hdiff : |(log2eFix : ℝ) / 2 ^ 512 * (Real.log 2 - ln2Fix / 2 ^ 512)| ≤ 2 * (1 / 2 ^ 140) := by
      rw [abs_mul, abs_of_nonneg hL0]
      exact mul_le_mul hL log_two_near (abs_nonneg _) zero_le_two
    have hone := log2e_near
    rw [mul_sub] at hdiff
    generalize (log2eFix : ℝ) / 2 ^ 512 * (ln2Fix / 2 ^ 512) = p at *
    generalize (log2eFix : ℝ) / 2 ^ 512 = L at *
    rw [abs_le] at hdiff hone ⊢
    constructor <;> linarith
  obtain ⟨hl0, hl1⟩ := log_two_mem
  generalize (log2eFix : ℝ) / 2 ^ 512 = L at *
  generalize ((x * log2eFix / 2 ^ 512 : Nat) : ℝ) / 2 ^ 512 = y at *
  have h1 : |(y - v * L) * Real.log 2| ≤ 1 / 2 ^ 140 := by
    rw [abs_mul, abs_of_nonneg hl0]
    exact (mul_le_of_le_one_right (abs_nonneg _) (hl1.trans (by norm_num))).trans hfloor
  have h2 : |v * (L * Real.log 2 - 1)| ≤ 2 ^ 8 * (3 / 2 ^ 140) := by
    rw [abs_mul, abs_of_nonneg hv0]
    exact mul_le_mul hv hlogs (abs_nonneg _) (by positivity)
  rw [show y * Real.log 2 - v = (y - v * L) * Real.log 2 + v * (L * Real.log 2 - 1) by ring]
  exact (abs_add_le _ _).trans ((add_le_add h1 h2).trans (by norm_num))

/-- The inverse of a power of two of a fixed-point argument, as a whole number of units (log 12). -/
theorem exp2Frac_inv_near (y : Nat) : |((2 ^ 1024 / exp2Frac (y % 2 ^ 512) / 2 ^ (y / 2 ^ 512) : Nat) : ℝ) / 2 ^ 512 -
    Real.exp (-(y / 2 ^ 512 * Real.log 2))| ≤ 1 / 2 ^ 129 := by
  have hS : (0 : ℝ) < 2 ^ 512 := by positivity
  have hfrac := Nat.mod_lt y (show 0 < 2 ^ 512 by positivity)
  have hnear := exp2Frac_near hfrac
  have hE := one_le_exp2Frac (y % 2 ^ 512)
  have hpos := exp2Frac_pos (y % 2 ^ 512)
  have hsplit : Real.exp (y / 2 ^ 512 * Real.log 2) = 2 ^ (y / 2 ^ 512) * Real.exp ((y % 2 ^ 512 : Nat) / 2 ^ 512 * Real.log 2) := by
    have h := exp_fixed_split y
    rw [show (2 : Int) ^ 512 = (2 ^ 512 : Nat) by simp only [Nat.cast_pow, Nat.cast_ofNat], ← Int.natCast_ediv, ← Int.natCast_emod] at h
    simpa only [Int.cast_natCast, zpow_natCast] using h
  have hone : 1 ≤ Real.exp ((y % 2 ^ 512 : Nat) / 2 ^ 512 * Real.log 2) := Real.one_le_exp (mul_nonneg (units_nonneg _) log_two_mem.1)
  rw [Nat.div_div_eq_div_mul, Real.exp_neg, hsplit]
  generalize exp2Frac (y % 2 ^ 512) = E at *
  generalize Real.exp ((y % 2 ^ 512 : Nat) / 2 ^ 512 * Real.log 2) = X at *
  generalize y / 2 ^ 512 = n at *
  obtain ⟨h1, h2⟩ := natDiv_bounds (2 ^ 1024) (Nat.mul_pos hpos (Nat.two_pow_pos n))
  have hE : (1 : ℝ) ≤ E / 2 ^ 512 := by
    have h : ((2 ^ 512 : Nat) : ℝ) ≤ E := Nat.cast_le.2 hE
    rw [one_le_div hS]
    simpa only [Nat.cast_pow, Nat.cast_ofNat] using h
  have hn : (1 : ℝ) ≤ 2 ^ n := one_le_pow₀ one_le_two
  have hscale : ((2 ^ 1024 : Nat) : ℝ) / (E * 2 ^ n : Nat) = 2 ^ 512 * (1 / (E / 2 ^ 512 * 2 ^ n)) := by
    have h0 : (E : ℝ) ≠ 0 := fun h => by rw [h, zero_div] at hE; exact absurd hE (by norm_num)
    simp only [Nat.cast_mul, Nat.cast_pow, Nat.cast_ofNat]
    rw [show 1024 = 512 + 512 from rfl, pow_add]
    generalize (2 : ℝ) ^ 512 = S at *
    field_simp
  rw [hscale] at h1 h2
  generalize 2 ^ 1024 / (E * 2 ^ n) = t at *
  have hunit : (1 : ℝ) / 2 ^ 512 ≤ 1 / 2 ^ 130 := one_div_le_one_div_of_le (by positivity) (pow_le_pow_right₀ one_le_two (by norm_num))
  generalize (2 : ℝ) ^ 512 = S at *
  generalize (E : ℝ) / S = F at *
  generalize (2 : ℝ) ^ n = N at *
  have hfloor : |(t : ℝ) / S - 1 / (F * N)| ≤ 1 / 2 ^ 130 := by
    rw [show (t : ℝ) / S - 1 / (F * N) = (t - S * (1 / (F * N))) / S by field_simp, abs_div, abs_of_pos hS]
    refine (div_le_div_of_nonneg_right ?_ hS.le).trans hunit
    rw [abs_le]
    constructor <;> linarith
  have hinv : |1 / (F * N) - (N * X)⁻¹| ≤ 1 / 2 ^ 130 := by
    have hp : 1 ≤ F * N * X := one_le_mul_of_one_le_of_one_le (one_le_mul_of_one_le_of_one_le hE hn) hone
    rw [show 1 / (F * N) - (N * X)⁻¹ = -(F - X) / (F * N * X) by field_simp; ring, abs_div, abs_neg, abs_of_pos (zero_lt_one.trans_le hp)]
    exact (div_le_self (abs_nonneg _) hp).trans hnear
  exact (abs_sub_le _ _ _).trans ((add_le_add hfloor hinv).trans (by norm_num))

/-- e^-x, for a number x of at most 256, to 127 bits (log 12). -/
theorem expNeg_near {x : Nat} {v : ℝ} (hx : (x : ℝ) / 2 ^ 512 = v) (hv : v ≤ 2 ^ 8) :
    |(expNeg x : ℝ) / 2 ^ 512 - Real.exp (-v)| ≤ 1 / 2 ^ 127 := by
  have hv0 : 0 ≤ v := hx ▸ units_nonneg x
  have harg := log2e_arg_near hx hv
  have hinv := exp2Frac_inv_near (x * log2eFix / 2 ^ 512)
  rw [expNeg]
  have hexp := exp_near (a := -((x * log2eFix / 2 ^ 512 : Nat) / 2 ^ 512 * Real.log 2)) (b := -v) (d := 1 / 2 ^ 130)
    (by rwa [neg_sub_neg, abs_sub_comm]) (by norm_num)
  have hle : Real.exp (-v) ≤ 1 := Real.exp_le_one_iff.2 (neg_nonpos.2 hv0)
  have hsmall : Real.exp (-v) * (2 * (1 / 2 ^ 130)) ≤ 1 * (2 * (1 / 2 ^ 130)) := mul_le_mul_of_nonneg_right hle (by positivity)
  exact (abs_sub_le _ _ _).trans ((add_le_add hinv (hexp.trans hsmall)).trans (by norm_num))

/-- The result's number: the quotient to half a unit, below 1. -/
theorem tanh_quotient {t : Nat} (ht : 0 < t) (hle : t ≤ 2 ^ 512) :
    (((2 * ((2 ^ 512 - t) * 2 ^ 400 / (2 ^ 512 + t)) + b2n (!false) : Nat) : ℚ) * 2 ^ (-400 - 1 : Int) < 1) ∧
      |((2 * ((2 ^ 512 - t) * 2 ^ 400 / (2 ^ 512 + t)) + b2n (!false) : Nat) : ℝ) * 2 ^ (-400 - 1 : Int) -
        (1 - t / 2 ^ 512) / (1 + t / 2 ^ 512)| ≤ 1 / 2 ^ 401 := by
  have hS : (0 : ℝ) < 2 ^ 512 := by positivity
  have hB : 0 < 2 ^ 512 + t := Nat.add_pos_right _ ht
  have hlt : (2 ^ 512 - t) * 2 ^ 400 / (2 ^ 512 + t) < 2 ^ 400 := by
    rw [Nat.div_lt_iff_lt_mul hB, mul_comm]
    have hsub := (Nat.sub_le (2 ^ 512) t).trans_lt (Nat.lt_add_of_pos_right ht)
    gcongr
  obtain ⟨h1, h2⟩ := natDiv_bounds ((2 ^ 512 - t) * 2 ^ 400) hB
  have hquot : (((2 ^ 512 - t) * 2 ^ 400 : Nat) : ℝ) / (2 ^ 512 + t : Nat) = 2 ^ 400 * ((1 - t / 2 ^ 512) / (1 + t / 2 ^ 512)) := by
    have hden : (2 : ℝ) ^ 512 + t ≠ 0 := by positivity
    simp only [Nat.cast_mul, Nat.cast_sub hle, Nat.cast_add, Nat.cast_pow, Nat.cast_ofNat]
    generalize (2 : ℝ) ^ 512 = S at *
    field_simp
  rw [hquot] at h1 h2
  have hunit {K : Type} [Field K] [CharZero K] : (2 : K) ^ (-400 - 1 : Int) = 1 / 2 ^ 401 := by
    rw [one_div, ← zpow_natCast, ← zpow_neg]; rfl
  have hpow : (2 : ℝ) ^ 401 = 2 * 2 ^ 400 := pow_succ' 2 400
  generalize (2 ^ 512 - t) * 2 ^ 400 / (2 ^ 512 + t) = q at *
  generalize (1 - (t : ℝ) / 2 ^ 512) / (1 + t / 2 ^ 512) = z at *
  have hq {K : Type} [Semiring K] : ((2 * q + b2n (!false) : Nat) : K) = 2 * q + 1 := by simp [b2n]
  have hP : (0 : ℝ) < 2 ^ 400 := by positivity
  constructor
  · have hlt : (2 * q + 1 : Nat) < 2 ^ 401 := by rw [pow_succ]; omega
    have hlt : (2 * (q : ℚ) + 1) < 2 ^ 401 := by exact_mod_cast hlt
    rw [hunit, hq, mul_one_div, div_lt_one (by positivity)]
    exact hlt
  · rw [hunit, hq, hpow]
    generalize (2 : ℝ) ^ 400 = P at *
    rw [show (2 * (q : ℝ) + 1) * (1 / (2 * P)) - z = (2 * (q - P * z) + 1) * (1 / (2 * P)) by field_simp; ring, abs_mul,
      abs_of_pos (show 0 < 1 / (2 * P) by positivity)]
    refine mul_le_of_le_one_left (by positivity) ?_
    rw [abs_le]
    constructor <;> linarith

/-- The quotient of e^-2v is the function to its result's digits (log 12). -/
theorem tanh_series {x : Nat} {v : ℝ} (hx : (x : ℝ) / 2 ^ 512 = 2 * v) (hlo : (2 : ℝ) ^ (-60 : Int) ≤ v) (hhi : 2 * v < 2 ^ 8) :
    (((2 * ((2 ^ 512 - expNeg x) * 2 ^ 400 / (2 ^ 512 + expNeg x)) + b2n (!false) : Nat) : ℚ) * 2 ^ (-400 - 1 : Int) < 1) ∧
      |((2 * ((2 ^ 512 - expNeg x) * 2 ^ 400 / (2 ^ 512 + expNeg x)) + b2n (!false) : Nat) : ℝ) * 2 ^ (-400 - 1 : Int) - Real.tanh v| ≤
        Real.tanh v / 2 ^ 30 := by
  have hx8 : x < 2 ^ 8 * 2 ^ 512 := by
    have h : (x : ℝ) < (2 ^ 8 * 2 ^ 512 : Nat) := by
      rw [← hx, div_lt_iff₀ (by positivity)] at hhi
      simpa only [Nat.cast_mul, Nat.cast_pow, Nat.cast_ofNat] using hhi
    exact Nat.cast_lt.1 h
  obtain ⟨hone, hquot⟩ := tanh_quotient (expNeg_pos hx8) (expNeg_le x)
  refine ⟨hone, ?_⟩
  have hmove := quotient_near (units_nonneg _) (Real.exp_pos _).le (expNeg_near hx hhi.le)
  rw [← tanh_eq_exp] at hmove
  have hv0 : 0 < v := lt_of_lt_of_le (by positivity) hlo
  have hT : 1 / 2 ^ 62 ≤ Real.tanh v := by
    have hge := tanh_ge v
    by_contra h
    have hsmall := mul_le_mul_of_nonneg_right (not_le.1 h).le (show 0 ≤ 1 + v by linarith)
    norm_num at hlo
    linarith
  have hunit : (1 : ℝ) / 2 ^ 401 ≤ 1 / 2 ^ 127 := one_div_le_one_div_of_le (by positivity) (pow_le_pow_right₀ one_le_two (by norm_num))
  refine (abs_sub_le _ _ _).trans ((add_le_add (hquot.trans hunit) hmove).trans ?_)
  linarith

/-! ## Numbers -/

theorem ftanh_small (s : Bool) {m : Nat} {e : Int} (hm : 0 < m) (htop : (Nat.log2 m : Int) + e < -60) :
    ftanh (.fin s m e) = .fin s (m * 2 ^ 200 - 1) (e - 200) := by
  unfold ftanh
  dsimp only
  rw [if_neg hm.ne', if_pos htop]

theorem ftanh_large (s : Bool) {m : Nat} {e : Int} (hm : 0 < m) (htop : 6 < (Nat.log2 m : Int) + e) :
    ftanh (.fin s m e) = .fin s (2 ^ 200 - 1) (-200) := by
  unfold ftanh
  dsimp only
  rw [if_neg hm.ne', if_neg (by omega), if_pos htop]

theorem ftanh_middle (s : Bool) {m : Nat} {e : Int} (hm : 0 < m) (hlo : ¬(Nat.log2 m : Int) + e < -60) (hhi : ¬6 < (Nat.log2 m : Int) + e) :
    ftanh (.fin s m e) = sticky s ((2 ^ 512 - expNeg (shiftFloor m (e + 1 + 512))) * 2 ^ 400 / (2 ^ 512 + expNeg (shiftFloor m (e + 1 + 512))))
      (-400) false := by
  unfold ftanh
  dsimp only
  rw [if_neg hm.ne', if_neg hlo, if_neg hhi]
  rfl

theorem log2_bounds_real {m : Nat} (hm : 0 < m) (e : Int) :
    (2 : ℝ) ^ ((Nat.log2 m : Int) + e) ≤ m * 2 ^ e ∧ (m : ℝ) * 2 ^ e < 2 ^ ((Nat.log2 m : Int) + e + 1) := by
  have h1 := (Rat.cast_le (K := ℝ)).2 (log2_bounds hm e).1
  have h2 := (Rat.cast_lt (K := ℝ)).2 (log2_bounds hm e).2
  push_cast at h1 h2
  exact ⟨h1, h2⟩

/-- A magnitude less a 2^200th part of its unit. -/
theorem predecessor_val {K : Type} [Field K] [CharZero K] {m : Nat} (hm : 0 < m) (e : Int) :
    ((m * 2 ^ 200 - 1 : Nat) : K) * 2 ^ (e - 200) = m * 2 ^ e - 2 ^ (e - 200) := by
  have he : (2 : K) ^ e = 2 ^ 200 * 2 ^ (e - 200) := by
    rw [← zpow_natCast, ← zpow_add₀ two_ne_zero]
    congr 1
    push_cast
    ring
  rw [Nat.cast_sub (Nat.mul_pos hm (Nat.two_pow_pos 200)), he]
  push_cast
  ring

/-- Twice a number, in units of 2^-512, is exact from the binade of 2^-83 on. -/
theorem double_units {m : Nat} {e : Int} (he : -83 ≤ e) : (shiftFloor m (e + 1 + 512) : ℝ) / 2 ^ 512 = 2 * (m * 2 ^ e) := by
  obtain ⟨k, hk⟩ : ∃ k : Nat, e + 1 + 512 = k := ⟨(e + 1 + 512).toNat, by omega⟩
  have he : e = (k : Int) - (512 : Nat) - 1 := by push_cast; omega
  rw [hk, shiftFloor, if_pos (Int.natCast_nonneg k), Int.toNat_natCast, he, zpow_sub₀ two_ne_zero, zpow_sub₀ two_ne_zero,
    zpow_natCast, zpow_natCast, zpow_one, Nat.cast_mul, Nat.cast_pow, Nat.cast_two]
  generalize (2 : ℝ) ^ 512 = S at *
  field_simp

/-- tanh a: below 1 in magnitude and within a 2^30th part (R215). -/
theorem ftanh_fin (s : Bool) {m : Nat} (e : Int) (hm : 0 < m) (hlt : m < 2 ^ 24) :
    ∃ q x, ftanh (.fin s m e) = .fin s q x ∧ (q : ℚ) * 2 ^ x < 1 ∧
      |(q : ℝ) * 2 ^ x - Real.tanh (m * 2 ^ e)| ≤ Real.tanh (m * 2 ^ e) / 2 ^ 30 := by
  obtain ⟨hge, hlt2⟩ := log2_bounds_real hm e
  by_cases hlo : (Nat.log2 m : Int) + e < -60
  · have hv : (m : ℝ) * 2 ^ e ≤ 1 / 2 ^ 60 := by
      rw [one_div, ← zpow_natCast, ← zpow_neg]
      exact hlt2.le.trans (zpow_le_zpow_right₀ one_le_two (by omega))
    refine ⟨_, _, ftanh_small s hm hlo, ?_, ?_⟩
    · rw [predecessor_val hm]
      exact (sub_lt_self _ (by positivity)).trans_le ((log2_bounds hm e).2.le.trans (zpow_le_one_of_nonpos₀ one_le_two (by omega)))
    · rw [predecessor_val hm]
      refine tanh_near_self (by positivity) hv (by positivity) ?_
      rw [zpow_sub₀ two_ne_zero, zpow_ofNat]
      exact div_le_div₀ (by positivity) (le_mul_of_one_le_left (by positivity) (by exact_mod_cast hm)) (by positivity) (by norm_num)
  by_cases hhi : 6 < (Nat.log2 m : Int) + e
  · have hv : (2 : ℝ) ^ (7 : Int) ≤ m * 2 ^ e := (zpow_le_zpow_right₀ one_le_two (by omega)).trans hge
    have hr {K : Type} [Field K] [CharZero K] : ((2 ^ 200 - 1 : Nat) : K) * 2 ^ (-200 : Int) = 1 - 1 / 2 ^ 200 := by norm_num
    refine ⟨_, _, ftanh_large s hm hhi, by rw [hr]; norm_num, ?_⟩
    rw [hr]
    exact tanh_near_one (le_trans (by norm_num) hv) (by norm_num) (by norm_num)
  · have hv8 : 2 * ((m : ℝ) * 2 ^ e) < 2 ^ 8 := by
      have : (m : ℝ) * 2 ^ e < 2 ^ (7 : Int) := hlt2.trans_le (zpow_le_zpow_right₀ one_le_two (by omega))
      norm_num at this ⊢
      linarith
    have hv60 : (2 : ℝ) ^ (-60 : Int) ≤ m * 2 ^ e := (zpow_le_zpow_right₀ one_le_two (by omega)).trans hge
    have hlog : Nat.log2 m < 24 := (Nat.log2_lt hm.ne').2 hlt
    obtain ⟨h1, h2⟩ := tanh_series (double_units (m := m) (e := e) (by omega)) hv60 hv8
    exact ⟨_, _, ftanh_middle s hm hlo hhi, h1, h2⟩

end Sys2Proof.Machine
end

section
/-! SUPPORT. The float core at infinities and NaNs, its integers, and its special results (R59, R60, R63, R205, R215). -/

namespace Sys2Proof.Machine

/-! ## NaN operands -/

theorem fmul_nan_right {a : FVal} (h : a.isNan = false) (c : Nat) : fmul a (.nan c) = .nan c := by
  cases a with
  | nan => cases h
  | inf | fin => rfl

theorem ffma_nan_second {a : FVal} (np nc : Bool) (h : a.isNan = false) (c : Nat) (b : FVal) : ffma np nc a (.nan c) b = .nan c := by
  cases a with
  | nan => cases h
  | inf | fin => rfl

theorem ffma_nan_third {a b : FVal} (np nc : Bool) (ha : a.isNan = false) (hb : b.isNan = false) (c : Nat) : ffma np nc a b (.nan c) = .nan c := by
  cases a with
  | nan => cases ha
  | inf | fin =>
    cases b with
    | nan => cases hb
    | inf | fin => rfl

theorem fmax_nan_right {a : FVal} (h : a.isNan = false) (c : Nat) : fmax a (.nan c) = .nan c := by
  rw [fmax, h]; rfl

theorem fmin_nan_right {a : FVal} (h : a.isNan = false) (c : Nat) : fmin a (.nan c) = .nan c := by
  rw [fmin, h]; rfl

/-- Without a NaN operand the fused form is a sum of a product (R207). -/
theorem ffma_eq_fadd {a b c : FVal} (np nc : Bool) (ha : a.isNan = false) (hb : b.isNan = false) (hc : c.isNan = false) :
    ffma np nc a b c = fadd (if np then fneg (fmul a b) else fmul a b) (if nc then fneg c else c) := by
  cases a with
  | nan => cases ha
  | inf | fin =>
    cases b with
    | nan => cases hb
    | inf | fin =>
      cases c with
      | nan => cases hc
      | inf | fin => rfl

/-! ## Infinities -/

theorem fadd_inf_inf (s t : Bool) : fadd (.inf s) (.inf t) = if s = t then .inf s else FVal.dnan :=
  if_congr (beq_iff_eq) rfl rfl

/-- An infinity with its sign changed where a form of R207 says so. -/
theorem fneg_inf (n s : Bool) : (if n then fneg (.inf s) else .inf s) = .inf (s != n) := by
  cases n <;> cases s <;> rfl

/-- An invalid product makes the default NaN of a fused form (R59). -/
theorem ffma_invalid {x y a : FVal} (np nc : Bool) (hx : x.isNan = false) (hy : y.isNan = false) (ha : a.isNan = false)
    (h : fmul x y = FVal.dnan) : ffma np nc x y a = FVal.dnan := by
  rw [ffma_eq_fadd np nc hx hy ha, h]
  cases np <;> rfl

/-- An infinite product in a fused form (R59). -/
theorem ffma_inf_product {x y : FVal} {s : Bool} (np nc u : Bool) (m : Nat) (e : Int) (hx : x.isNan = false) (hy : y.isNan = false)
    (h : fmul x y = .inf s) : ffma np nc x y (.fin u m e) = .inf (s != np) ∧
      ffma np nc x y (.inf u) = if (s != np) = (u != nc) then .inf (s != np) else FVal.dnan := by
  rw [ffma_eq_fadd np nc hx hy rfl, ffma_eq_fadd np nc hx hy rfl, h, fneg_inf, fneg_inf, fneg_fin]
  exact ⟨rfl, fadd_inf_inf _ _⟩

theorem ffma_inf_third (np nc s t u : Bool) (m1 m2 : Nat) (e1 e2 : Int) :
    ffma np nc (.fin s m1 e1) (.fin t m2 e2) (.inf u) = .inf (u != nc) := by
  rw [ffma_eq_fadd np nc rfl rfl rfl, fneg_inf, fmul, fneg_fin]
  rfl

/-- The products that are infinite (R59). -/
theorem fmul_inf {x y : FVal} {s t : Bool} {m : Nat} {e : Int}
    (h : (x = .inf s ∧ y = .inf t) ∨ (x = .inf s ∧ y = .fin t m e ∧ m ≠ 0) ∨ (x = .fin s m e ∧ m ≠ 0 ∧ y = .inf t)) :
    fmul x y = .inf (s != t) ∧ x.isNan = false ∧ y.isNan = false := by
  rcases h with ⟨rfl, rfl⟩ | ⟨rfl, rfl, hm⟩ | ⟨rfl, hm, rfl⟩
  · exact ⟨rfl, rfl, rfl⟩
  · exact ⟨if_neg hm, rfl, rfl⟩
  · exact ⟨if_neg hm, rfl, rfl⟩

/-! ## Integers -/

/-- The magnitude of a rounded integer. -/
theorem rint_magnitude (mode : Rm) (s : Bool) (m : Nat) (e : Int) :
    (if s then -rint mode (.fin s m e) else rint mode (.fin s m e)) = roundNat mode m e := by
  cases s <;> simp [rint]

theorem floor_dyadic (m : Nat) (e : Int) : ⌊(m : ℚ) * 2 ^ e⌋ = (⌊(m : ℚ) * 2 ^ e⌋₊ : Nat) :=
  (Int.natCast_floor_eq_floor (by positivity)).symm

/-! ## Codes of rounded values -/

theorem roundW_fin {F : Nat} (hF : F = 7 ∨ F = 23) (mode : Rm) (sat s : Bool) (m : Nat) (e : Int) :
    roundW (F + 9) mode sat (.fin s m e) = b2n s * 2 ^ (F + 8) + if m = 0 then 0 else roundMag F mode sat m e := by
  rcases hF with rfl | rfl <;> rfl

theorem roundW_inf {F : Nat} (hF : F = 7 ∨ F = 23) (mode : Rm) (sat s : Bool) :
    roundW (F + 9) mode sat (.inf s) = b2n s * 2 ^ (F + 8) + 255 * 2 ^ F := by
  rcases hF with rfl | rfl <;> rfl

/-- A number drawn against the fraction of the way from the code of RTZ to the next, the code of infinity read as 2^128 (R62, R63). -/
theorem roundMag_sr_below (F : Nat) (sat : Bool) {m : Nat} {e : Int} (hm : 0 < m) (n rnd : Nat) (h : (m : ℚ) * 2 ^ e < 2 ^ 128) :
    let a := roundMag F .rtz sat m e
    let b : ℚ := if a + 1 = 255 * 2 ^ F then 2 ^ 128 else codeVal F (a + 1)
    roundMag F (.sr n rnd) sat m e = if rnd < ⌊(m * 2 ^ e - codeVal F a) / (b - codeVal F a) * 2 ^ n⌋₊ then
      (if a + 1 = 255 * 2 ^ F then overflowMag F (.sr n rnd) sat else a + 1) else a := by
  intro a b
  have hb : b = codeVal F (a + 1) := by
    dsimp only [b]
    split
    · next h => rw [h, codeVal_top]
    · rfl
  rw [hb]
  exact roundMag_sr F sat hm n rnd h

end Sys2Proof.Machine
end
section
/-! SUPPORT. The float core's statement from its parts. -/

namespace Sys2Proof.Machine

/-- Settles O2, from exact values over one exponent, the order of a format's codes, and fixed-point bounds of the series. -/
theorem floatCore : Obligations.FloatCore := by
  unfold Obligations.FloatCore
  intro val
  refine ⟨fun c hc => ⟨fval_finite, fval_special hc, fvalBf_eq⟩, ?_, ?_, ?_, ?_, ?_, ?_, ?_, ?_⟩
  · intro s1 s2 s3 np nc m1 m2 m3 e1 e2 e3
    exact ⟨addFin_val s1 s2 m1 m2 e1 e2, ⟨_, _, rfl, mulFin_val s1 s2 m1 m2 e1 e2⟩, ffma_fin np nc s1 s2 s3 m1 m2 m3 e1 e2 e3,
      fmax_fin s1 s2 m1 m2 e1 e2, fmin_fin s1 s2 m1 m2 e1 e2⟩
  · intro s t np nc m c e a b
    exact ⟨fadd_inf_inf s t, rfl, rfl, rfl, rfl, rfl, rfl, rfl, rfl, rfl, rfl, fun ha => ⟨fadd_nan_right ha c, fmul_nan_right ha c,
      ffma_nan_second np nc ha c b, fmax_nan_right ha c, fmin_nan_right ha c, fun hb => ffma_nan_third np nc ha hb c⟩⟩
  · intro s t u np nc m1 m2 e1 e2 a
    refine ⟨fun ha => ⟨ffma_invalid np nc rfl rfl ha rfl, ffma_invalid np nc rfl rfl ha rfl⟩, fun x y hxy => ?_,
      ffma_inf_third np nc s t u m1 m2 e1 e2, ?_⟩
    · obtain ⟨hmul, hx, hy⟩ := fmul_inf hxy
      exact ffma_inf_product np nc u m2 e2 hx hy hmul
    · cases s <;> cases t <;> exact ⟨rfl, rfl, rfl, rfl, rfl, rfl⟩
  · intro F sat s m e hF hm
    refine ⟨fun mode => ⟨?_, roundW_fin hF mode sat s 0 e, roundW_inf hF mode sat s⟩, roundMag_rtz F sat e hm,
      (roundMag_rne (by omega) (by omega) sat hm).1, (roundMag_rne (by omega) (by omega) sat hm).2,
      fun n rnd => ⟨roundMag_huge (.sr n rnd) sat hm, roundMag_sr_below F sat hm n rnd⟩⟩
    rw [roundW_fin hF, if_neg hm.ne']
  · exact fun mode sat c _ => ⟨roundF_nan mode sat c, roundBf_nan mode sat c⟩
  · intro s m e
    dsimp only
    simp only [rint_magnitude, floor_dyadic, roundNat_rtz, Int.cast_natCast, true_and]
    obtain ⟨hnear, htie⟩ := roundNat_rne m e
    refine ⟨⟨hnear, fun h => by exact_mod_cast htie h⟩, fun n rnd => ?_⟩
    rw [roundNat_sr]
    split <;> simp
  · intro s m e hm hlt
    refine ⟨frcp_fin s e hm hlt, frsq_fin e hm hlt, ?_, fexp2_fin s hm, flog2_fin e hm, ?_, ?_⟩
    · obtain ⟨q, x, heq, hone, hnear⟩ := ftanh_fin s e hm hlt
      refine ⟨q, x, heq, hone, ?_⟩
      push_cast
      exact hnear
    · rw [flog2, if_neg hm.ne', if_pos rfl]
      rfl
    · rw [frsq, if_neg hm.ne', if_pos rfl]
      rfl
  · intro s c e
    exact ⟨rfl, rfl, rfl, rfl, rfl, by cases s <;> rfl, rfl, rfl, rfl, rfl, rfl, rfl, rfl, rfl, rfl, rfl⟩

end Sys2Proof.Machine
end

section
/-! SUPPORT. A field of a word replaced: its bits, and the fields beside it (R7, R145). -/

namespace Sys2Proof.Machine

theorem testBit_bits (x lo w i : Nat) : (bits x lo w).testBit i = (decide (i < w) && x.testBit (lo + i)) := by
  rw [bits, Nat.testBit_mod_two_pow, Nat.testBit_div_two_pow, Nat.add_comm]

/-- The parts of a word around a field of it. -/
theorem field_split (x lo w : Nat) : x = 2 ^ lo * (2 ^ w * (x / 2 ^ (lo + w)) + bits x lo w) + x % 2 ^ lo := by
  rw [bits, pow_add, ← Nat.div_div_eq_div_mul, Nat.div_add_mod, Nat.div_add_mod]

theorem setBits_eq (x lo w v : Nat) : setBits x lo w v = 2 ^ lo * (2 ^ w * (x / 2 ^ (lo + w)) + v % 2 ^ w) + x % 2 ^ lo := by
  have h := field_split x lo w
  rw [mul_add] at h ⊢
  rw [setBits, Nat.mul_comm (bits x lo w), Nat.mul_comm (v % 2 ^ w)]
  omega

theorem testBit_setBits (x lo w v j : Nat) :
    (setBits x lo w v).testBit j = if lo ≤ j ∧ j < lo + w then v.testBit (j - lo) else x.testBit j := by
  rw [setBits_eq, Nat.testBit_two_pow_mul_add _ (Nat.mod_lt _ (Nat.two_pow_pos lo)),
    Nat.testBit_two_pow_mul_add _ (Nat.mod_lt _ (Nat.two_pow_pos w)), Nat.testBit_mod_two_pow, Nat.testBit_mod_two_pow,
    Nat.testBit_div_two_pow]
  rcases Nat.lt_or_ge j lo with h | h
  · simp [h, Nat.not_le.2 h]
  · rcases Nat.lt_or_ge j (lo + w) with h' | h'
    · simp [h, h', Nat.not_lt.2 h, show j - lo < w by omega]
    · simp [h, Nat.not_lt.2 h, Nat.not_lt.2 h', show ¬j - lo < w by omega, show j - lo - w + (lo + w) = j by omega]

theorem bits_setBits_same (x lo w v : Nat) : bits (setBits x lo w v) lo w = v % 2 ^ w := by
  refine Nat.eq_of_testBit_eq fun i => ?_
  rw [testBit_bits, testBit_setBits, Nat.testBit_mod_two_pow, Nat.add_sub_cancel_left]
  by_cases h : i < w <;> simp [h]

theorem bits_setBits_other {x lo w v lo' w' : Nat} (h : lo' + w' ≤ lo ∨ lo + w ≤ lo') : bits (setBits x lo w v) lo' w' = bits x lo' w' := by
  refine Nat.eq_of_testBit_eq fun i => ?_
  rw [testBit_bits, testBit_bits, testBit_setBits]
  by_cases hi : i < w'
  · rw [if_neg (by omega)]
  · simp [hi]

theorem setBits_lt {x lo w v n : Nat} (hx : x < 2 ^ n) (h : lo + w ≤ n) : setBits x lo w v < 2 ^ n := by
  refine Nat.lt_pow_two_of_testBit _ fun j hj => ?_
  rw [testBit_setBits, if_neg (by omega)]
  exact Nat.testBit_lt_two_pow (hx.trans_le (Nat.pow_le_pow_right (by decide) hj))

end Sys2Proof.Machine
end

section
/-! SUPPORT. The immediate forms of the scalar operations, and those that DUP.S names (R116, R142, R144, R145, R292). -/

namespace Sys2Proof.Machine

/-! ## Immediate operands -/

/-- An operation on words, as one on their values: the second operand the sign-extended byte. -/
theorem alu_signed {f : Nat → Nat → Nat} {g : Word → Word → Word} (hf : ∀ a b : Word, BitVec.ofNat 64 (f a.toNat b.toNat) = g a b)
    (a : Word) (i : Nat) : BitVec.ofNat 64 (f a.toNat (sx64 i 8)) = g a ((BitVec.ofNat 8 i).signExtend 64) := by
  rw [sx64_toNat i 8 (by decide), hf]

/-- The second operand the byte as a natural number. -/
theorem alu_natural {f : Nat → Nat → Nat} {g : Word → Word → Word} (hf : ∀ a b : Word, BitVec.ofNat 64 (f a.toNat b.toNat) = g a b)
    (a : Word) (i : Fin 256) : BitVec.ofNat 64 (f a.toNat i) = g a (BitVec.ofNat 64 i) := by
  rw [← hf, ofNat_imm]

/-- Settles O3: each immediate form is its operation with the immediate as its second operand, and LDHI replaces one field of sD. -/
theorem scalarImmediates : Obligations.ScalarImmediates := by
  refine ⟨?_, ?_, ?_⟩
  · intro o x s a i u c ends
    have signed (j : Instr) (k : Nat) {f : Nat → Nat → Nat} {g : Word → Word → Word}
        (hf : ∀ a b : Word, BitVec.ofNat 64 (f a.toNat b.toNat) = g a b) (h : Enabled j s) :
        scalarOut j k o.d (f a.toNat (sx64 o.i 8)) s = .next (finish (s.withS k o.d (g a i))) :=
      scalarOut_enabled j k o.d _ s h _ (alu_signed hf a o.i)
    have natural (j : Instr) {f : Nat → Nat → Nat} {g : Word → Word → Word}
        (hf : ∀ a b : Word, BitVec.ofNat 64 (f a.toNat b.toNat) = g a b) (h : Enabled j s) :
        scalarOut j 1 o.d (f a.toNat o.i) s = .next (finish (s.withS 1 o.d (g a u))) :=
      scalarOut_enabled j 1 o.d _ s h _ (alu_natural hf a o.i)
    have shift (j : Instr) {f : Nat → Nat → Nat} {g : Word → Nat → Word}
        (hf : ∀ (a : Word) n, BitVec.ofNat 64 (f a.toNat n) = g a (n % 64)) (h : Enabled j s) :
        scalarOut j 1 x.d (f c.toNat x.i) s = .next (finish (s.withS 1 x.d (g c x.i))) :=
      scalarOut_enabled j 1 x.d _ s h _ ((hf c x.i).trans (by rw [Nat.mod_eq_of_lt x.i.isLt]))
    exact ⟨signed _ 1 aluAdd_eq, natural _ aluAnd_eq, natural _ aluOr_eq, natural _ aluXor_eq, shift _ aluShl_eq, shift _ aluShr_eq,
      shift _ aluSra_eq, signed _ 3 aluMul_eq, (signed (.miniI o) 1 aluMinI_eq :), (natural (.miniN o) aluMinN_eq :),
      (signed (.maxiI o) 1 aluMaxI_eq :), (natural (.maxiN o) aluMaxN_eq :)⟩
  · exact fun o s h => scalarOut_enabled (.ldi o) 1 o.d (wrap 64 (sext o.i 19)) s h _ (ofNat_sx64 o.i 19 (by decide))
  · intro o s h
    refine ⟨_, scalarOut_enabled (.ldhi o) 1 o.d (setBits (s.core.sreg o.d).toNat (16 * o.h.val) 16 o.i) s h _ rfl, fun k hk => ?_⟩
    have hh : o.h.val < 4 := o.h.isLt
    rw [BitVec.toNat_ofNat, Nat.mod_eq_of_lt (setBits_lt (s.core.sreg o.d).isLt (by omega))]
    by_cases hkh : k = o.h.val
    · rw [if_pos hkh, hkh, bits_setBits_same]
      exact Nat.mod_eq_of_lt o.i.isLt
    · rw [if_neg hkh]
      exact bits_setBits_other (by omega)

/-! ## High products and counts -/

theorem aluMulhI_eq (a b : Word) : BitVec.ofNat 64 (aluMulhI a.toNat b.toNat) = BitVec.ofInt 64 (a.toInt * b.toInt / 2 ^ 64) := by
  rw [aluMulhI, ofNat_wrap, sext_toNat, sext_toNat]

/-- The number of leading zeros of a word (R142). -/
theorem aluClz_bounds (a : Word) : aluClz a.toNat ≤ 64 ∧ a.toNat < 2 ^ (64 - aluClz a.toNat) ∧
    (aluClz a.toNat = 64 ∨ 2 ^ (63 - aluClz a.toNat) ≤ a.toNat) := by
  unfold aluClz
  split
  · next h => simp [h]
  · next h =>
    have hlog : Nat.log2 a.toNat < 64 := (Nat.log2_lt h).2 a.isLt
    rw [show 64 - (63 - Nat.log2 a.toNat) = Nat.log2 a.toNat + 1 by omega, show 63 - (63 - Nat.log2 a.toNat) = Nat.log2 a.toNat by omega]
    exact ⟨by omega, Nat.lt_log2_self, .inr (Nat.log2_self_le h)⟩

theorem aluPopc_eq (a : Word) : aluPopc a.toNat = (List.range 64).countP (fun k => a.getLsbD k) := popc_eq 64 a.toNat

/-! ## DUP.S -/

section
variable {d : OpTNgfab2} {s : State} {f : Nat} {v : Word} (h : Enabled (.dupS d) s) (hf : d.f.val = f)
include h hf

theorem exec_dupS_two (hs : dupSa f = true) (hv : BitVec.ofNat 64 (dupValue f (s.core.sreg d.a).toNat (s.core.sreg d.b).toNat) = v) :
    exec (.dupS d) s = .next (finish (s.land (saLat f) (.twinS v))) := by
  refine (issue_enabled (.dupS d) _ s h rfl rfl rfl rfl rfl).trans ?_
  simp only [hf, hs, if_true, hv]

theorem exec_dupS_imm (hs : dupSa f = false) (hv : BitVec.ofNat 64 (dupValue f (s.core.sreg d.a).toNat d.e) = v) :
    exec (.dupS d) s = .next (finish (s.land (saLat f) (.twinS v))) := by
  refine (issue_enabled (.dupS d) _ s h rfl rfl rfl rfl rfl).trans ?_
  simp only [hf, hs, Bool.false_eq_true, if_false, hv]

end

/-- The codes that DUP.S may name, and the shift counts that its immediate forms may hold (R144, R292). -/
theorem dupS_legal {d : OpTNgfab2} {s : State} (h : Enabled (.dupS d) s) :
    ((1 ≤ d.f.val ∧ d.f.val ≤ 18) ∨ d.f.val ∈ [33, 35, 36, 37, 39, 40, 41, 42, 45, 46, 47, 48]) ∧
      (39 ≤ d.f.val ∧ d.f.val ≤ 41 → d.e.val < 64) := by
  obtain ⟨⟨-, hl, -, -⟩, -, -⟩ := h
  have hl' := (Bool.and_eq_true_iff.1 hl).2
  by_cases hs : dupSa d.f.val = true
  · simp only [dupSa, Bool.and_eq_true, decide_eq_true_eq] at hs
    exact ⟨.inl hs, fun hr => by omega⟩
  · simp only [hs, if_false, Bool.false_eq_true, Bool.and_eq_true, Bool.or_eq_true, decide_eq_true_eq, dupSi,
      List.contains_iff_mem] at hl'
    exact ⟨.inr hl'.1.1, fun hr => by omega⟩

/-- Settles O36: DUP.S gives what the operation of its code gives on the same operands. -/
theorem seedAndDuplicate : Obligations.SeedAndDuplicate := by
  intro o d s a b x u n dup
  have two {f : Nat} {v : Word} (hs : dupSa f = true) (hv : BitVec.ofNat 64 (dupValue f a.toNat b.toNat) = v) : dup f (saLat f) v :=
    fun h hf => exec_dupS_two h hf hs hv
  have imm {f : Nat} {v : Word} (hs : dupSa f = false) (hv : BitVec.ofNat 64 (dupValue f a.toNat d.e) = v) : dup f (saLat f) v :=
    fun h hf => exec_dupS_imm h hf hs hv
  have shift {f : Nat} {g : Word → Nat → Word} (hr : 39 ≤ f ∧ f ≤ 41) (hs : dupSa f = false)
      (hg : BitVec.ofNat 64 (dupValue f a.toNat d.e) = g a (d.e % 64)) : dup f (saLat f) (g a d.e) := fun h hf =>
    imm hs (hg.trans (by rw [Nat.mod_eq_of_lt ((dupS_legal h).2 (hf ▸ hr))])) h hf
  obtain ⟨hr, hlo, hhi⟩ := aluClz_bounds a
  refine ⟨fun h => issue_enabled (.rngSeed o) _ s h rfl rfl rfl rfl rfl,
    two rfl (aluAdd_eq a b), two rfl (aluSub_eq a b), two rfl (aluAnd_eq a b), two rfl (aluOr_eq a b), two rfl (aluXor_eq a b),
    two rfl (aluAndn_eq a b), two rfl (aluShl_eq a b.toNat), two rfl (aluShr_eq a b.toNat), two rfl (aluSra_eq a b.toNat),
    two rfl (aluMul_eq a b), two rfl (aluMulhI_eq a b), two rfl rfl, two rfl (aluMinI_eq a b), two rfl (aluMinN_eq a b),
    two rfl (aluMaxI_eq a b), two rfl (aluMaxN_eq a b), ⟨aluClz a.toNat, hr, two rfl rfl, hlo, hhi⟩,
    two rfl (congrArg _ (aluPopc_eq a)), imm rfl (alu_signed aluAdd_eq a d.e), imm rfl (alu_natural aluAnd_eq a d.e),
    imm rfl (alu_natural aluOr_eq a d.e), imm rfl (alu_natural aluXor_eq a d.e), shift (by decide) rfl (aluShl_eq a d.e),
    shift (by decide) rfl (aluShr_eq a d.e), shift (by decide) rfl (aluSra_eq a d.e), imm rfl (alu_signed aluMul_eq a d.e),
    imm rfl (alu_signed aluMinI_eq a d.e :), imm rfl (alu_natural aluMinN_eq a d.e :), imm rfl (alu_signed aluMaxI_eq a d.e :),
    imm rfl (alu_natural aluMaxN_eq a d.e :), fun h => (dupS_legal h).1⟩

end Sys2Proof.Machine
end

section
/-! SUPPORT. The words of major opcode 0, and a state that fetches one operation (R84, R85, R99, R111). -/

namespace Sys2Proof.Machine

/-! ## Words of major opcode 0 -/

theorem decodeS_opcode_zero {w : Nat} (h : w < 2 ^ 25) (h0 : w ≠ 0) : decodeS w = none := by
  rw [decodeS, if_neg (by omega), decodeSOp, show w / 33554432 = 0 by omega]
  exact if_neg h0

theorem decodeV_opcode_zero {w : Nat} (hdr ext : Nat) (h : w < 2 ^ 25) (h0 : w ≠ 0) : decodeV w hdr ext = none := by
  rw [decodeV, show w / 33554432 = 0 by omega]
  exact if_neg h0

theorem decodeT_opcode_zero {w : Nat} (ext : Nat) (h : w < 2 ^ 25) (h0 : w ≠ 0) : decodeT w ext = none := by
  rw [decodeT, show w / 33554432 = 0 by omega]
  exact if_neg h0

/-- Of no opcode in any position (R85). -/
theorem slotInstr_opcode_zero (p : Fin 4) {w : Nat} (hdr : Fin 2) (ext : Nat) (h : w < 2 ^ 25) (h0 : w ≠ 0) :
    slotInstr p w hdr ext = .unassignedOpcode { slot := p, word := Fin.ofNat 4294967296 w, h := hdr, e := Fin.ofNat 256 ext } := by
  have none_of (sp : Space) (e : Fin 256) : decodeSlot { space := sp, word := w, hdr := hdr, ext := e } = none := by
    cases sp
    · exact decodeS_opcode_zero h h0
    · exact decodeV_opcode_zero _ _ h h0
    · exact decodeT_opcode_zero _ h h0
  simp only [slotInstr, none_of]

/-- NOP may always take effect: it reads and writes no register, and has no guard. -/
theorem nop_enabled (s : State) : Enabled .nop s := ⟨⟨rfl, rfl, rfl, rfl⟩, rfl, by unfold writesPending; split <;> rfl⟩

/-- Settles O10: opcode 0 has one word, NOP, and the trap of any other is that of an unassigned word. -/
theorem nopWords : Obligations.NopWords := by
  refine ⟨fun _ _ => ⟨rfl, rfl, rfl⟩,
    fun w hw h e h0 => ⟨decodeS_opcode_zero hw h0, decodeV_opcode_zero h e hw h0, decodeT_opcode_zero e hw h0⟩,
    fun s => issue_enabled .nop {} s (nop_enabled s) rfl rfl rfl rfl rfl, ⟨rfl, rfl, rfl, rfl⟩, fun _ _ => rfl, ?_⟩
  intro p w h e s h0 hw
  refine ⟨_, slotInstr_opcode_zero p _ e hw h0.ne', (exec_unassigned _ s).trans ?_⟩
  rw [Fin.val_ofNat, Nat.mod_eq_of_lt (by omega)]

/-- Settles O52: each word decodes by the arm of its opcode. -/
theorem slotWordsDecode : Obligations.SlotWordsDecode :=
  ⟨by decide, by decide, by decide, by decide, by decide, by decide, by decide, by decide, by decide⟩

/-! ## A bundle of one operation -/

theorem issueBundle_one {exec : Instr → State → Out} {s : State} {b : Bundle} {p : Nat} {i : Instr} (hc : s.core.chkWait = 0)
    (hb : b.ops = [(p, i)])
    (hl : newLoads s.core [(p, i)] = 0 ∨ (s.core.reqs.filter isLoadReq).length + newLoads s.core [(p, i)] ≤ 16) :
    issueBundle exec b s = exec i (atSlot s b p i true) := by
  unfold issueBundle
  rw [hb]
  exact (if_neg (not_not.2 hc)).trans (if_neg (by omega))

/-- The decoder is named by a variable here, so that the kernel does not evaluate it on bytes that are not known. -/
theorem attempt_bytes {exec : Instr → State → Out} {s : State} {bs : List Nat} (hf : fetch s = .bytes bs)
    (hd : decodeFault s (decodeBundle bs) = none) : attempt exec s = issueBundle exec (decodeBundle bs) s := by
  obtain ⟨dec, hdec⟩ : ∃ dec, dec = decodeBundle := ⟨_, rfl⟩
  unfold attempt
  rw [← hdec] at hd ⊢
  simp only [hf, hd]

/-- A running tile at whose boundary nothing stands does what its bundle does (R393). -/
theorem issueWith_attempt {exec : Instr → State → Out} {s : State} (hp : s.core.task.pend = none)
    (hr : s.core.osb.toList.any (·.refill) = false) (hq : s.core.task.preq = false)
    (he : regionExpired (s.onCore (fun t => { t with iss := Iss.reset })) = false) :
    issueWith exec s = attempt exec (s.onCore (fun t => { t with iss := Iss.reset })) := by
  simp only [issueWith, State.onCore_core, hp, hr, hq, he, Option.isSome_none, Bool.false_eq_true, if_false, Bool.false_and, ite_self]

/-- Settles O55: the agenda goes first, and a bundle of one operation is that operation's, in its slot and last. -/
theorem stepRunsBundle : Obligations.StepRunsBundle := by
  refine ⟨fun s i a rest h => by rw [step, h], ?_⟩
  intro s bs p i ha hm hp s1 b hr hf hd hc hq he hb hl
  rw [step, ha]
  simp only [hm, if_true]
  rw [issueWith_attempt hp hr hq he, attempt_bytes hf hd]
  exact issueBundle_one hc hb hl

end Sys2Proof.Machine
end

section
/-! SUPPORT. Headers, loads, prefetches, fences and pushes of operand loads at issue (R86, R105, R172, R175, R179, R229, R265). -/

namespace Sys2Proof.Machine

/-! ## Headers -/

/-- Settles O14: the region bits are checked first, and a header that passes only waits for the join. -/
theorem header : Obligations.Header := by
  intro o s bad w s'
  have hrb : o.rb.val = 0 ∨ o.rb.val = 1 := by omega
  have hbad : ((o.rb.val == 1 && s.core.inreg) || (o.re.val == 1 && !(s.core.inreg || o.rb.val == 1))) = true ↔ bad := by
    rcases hrb with h | h <;> cases hi : s.core.inreg <;> simp [bad, h, hi]
  refine ⟨fun h => if_pos (hbad.2 h), fun h he hw => (if_neg (mt hbad.1 h)).trans ?_⟩
  refine issue_enabled (.header o) _ s he rfl rfl rfl rfl ?_
  rcases hw with hw | hw <;> simp [hw]

/-! ## Loads -/

/-- An address from a register and a signed displacement of w bits in units of n bytes (R92, R93). -/
theorem wrap_displaced (a : Word) (x : Nat) {w : Nat} (hw : 0 < w) (n : Nat) :
    wrap 64 ((a.toNat : Int) + sext x w * n) = (a + (BitVec.ofNat w x).signExtend 64 * BitVec.ofNat 64 n).toNat := by
  have h := congrArg BitVec.toNat (ofNat_wrap ((a.toNat : Int) + sext x w * n))
  rw [BitVec.toNat_ofNat, Nat.mod_eq_of_lt (by rw [wrap]; omega)] at h
  rw [h, BitVec.ofInt_add, BitVec.ofInt_mul, sext_small x w hw, BitVec.ofInt_natCast, BitVec.ofInt_natCast, BitVec.ofNat_toNat,
    BitVec.setWidth_eq, BitVec.signExtend]

/-- The displacement of a vector access counts in units of 128 bytes, and takes the extension byte of a header (R93, R228). -/
theorem vectorEa_eq (s : State) (a i : Nat) (h : Fin 2) (e : Fin 256) : vectorEa s a i h e =
    (s.core.sreg a + (if h.val = 1 then (BitVec.ofNat 14 (64 * e.val + i)).signExtend 64 else (BitVec.ofNat 6 i).signExtend 64) * 128).toNat := by
  unfold vectorEa
  rw [Nat.mul_comm e.val]
  split
  · exact wrap_displaced _ _ (by decide) 128
  · exact wrap_displaced _ _ (by decide) 128

/-- An enabled access that is granted has its request under way. -/
theorem issue_granted {s : State} {i : Instr} {a size enb : Nat} {r w : Bool} {d : Dest} (he : Enabled i s) (hg : Granted s i a size enb r w d)
    (q : Acc → Req) :
    issue i { trap := (access s i a size enb r w).trap, wchk := (access s i a size enb r w).wchk, wait := (access s i a size enb r w).wait,
              run := fun s' => s'.eff (.load (q (access s i a size enb r w))) } s =
      .next (finish (s.eff (.load (q { trap := none, wchk := none, wait := false, dest := d })))) := by
  rw [hg]
  exact issue_enabled i _ s he rfl rfl rfl rfl rfl

/-- Settles O15: a granted load sends the request of its address. -/
theorem loads : Obligations.Loads := by
  intro o v b s d at' disp far req scalar
  have sends (i : Instr) (size : Nat) (sx : Bool) (he : Enabled i s)
      (hg : Granted s i (at' o.a (disp * BitVec.ofNat 64 size)) size (2 ^ size - 1) true false d) : loadOp i o size sx s =
        .next (finish (s.eff (.load { req .ld (at' o.a (disp * BitVec.ofNat 64 size)) size with
          dst := physS s.core.spr.rotw o.d, sx := sx }))) := by
    rw [loadOp, scalarEa_eq]
    exact issue_granted he hg (fun x => { x.req .ld _ size with dst := physS s.core.spr.rotw o.d, sx := sx })
  refine ⟨sends _ 1 true, sends _ 1 false, sends _ 2 true, sends _ 2 false, sends _ 4 true, sends _ 4 false, sends _ 8 false, ?_, ?_⟩
  · intro a he hg
    refine Eq.trans ?_ (issue_granted he hg (fun x => { x.req .vld a 128 with dst := physV s.core.spr.rotw v.d }))
    change execVld v s = _
    rw [execVld, vectorEa_eq]
    rfl
  · intro a size he hg
    refine Eq.trans ?_ (issue_granted he hg (fun x => { x.req .vldb a size with dst := physV s.core.spr.rotw b.d, pw := b.f }))
    change execVldb b s = _
    rw [execVldb, vectorEa_eq]
    rfl

end Sys2Proof.Machine
end

section
/-! SUPPORT. Prefetches and fences, the parties of the scopes, and the pushes of operand loads (R105, R175, R179 to R185, R261 to R265, R297). -/

namespace Sys2Proof.Machine

/-! ## Prefetches and fences -/

theorem exec_pref {o : OpSNgai} {s : State} (h : Enabled (.pref o) s) (hw : s.core.scopedAmo = false) {d : Dest}
    (hd : checkRegion s (scalarEa s o.a o.i 64) true false false = .ok d) (hc : d.cls < 3) :
    exec (.pref o) s = .next (finish (s.eff (.req { Req.empty .pref with
      va := scalarEa s o.a o.i 64, size := 64, cls := d.cls, tgt := d.tgt, place := d.place / 64 * 64 }))) := by
  refine (issue_enabled (.pref o) _ s h rfl rfl rfl rfl hw).trans ?_
  simp only [hd, hc, if_true]

theorem exec_pref_none {o : OpSNgai} {s : State} (h : Enabled (.pref o) s) (hw : s.core.scopedAmo = false)
    (hd : ∀ d, checkRegion s (scalarEa s o.a o.i 64) true false false = .ok d → 3 ≤ d.cls) :
    exec (.pref o) s = .next (finish s) := by
  refine (issue_enabled (.pref o) _ s h rfl rfl rfl rfl hw).trans ?_
  dsimp only
  cases hr : checkRegion s (scalarEa s o.a o.i 64) true false false with
  | error e => rfl
  | ok d => simp only [Nat.not_lt.2 (hd d hr), if_false]

theorem exec_fence {o : OpSNgks} {s : State} (h : Enabled (.fence o) s) (hr : o.k.val ≠ 1 → releaseWaits s.self s.core o.s = false)
    (ha : o.k.val ≠ 2 → acquireWaits s.core = false) :
    exec (.fence o) s = .next (finish
      (let s1 := if o.k.val ≠ 2 ∧ o.s.val ≠ 1 ∧ o.s.val ≠ 12 then s.onCore Tile.dropL1
        else if o.k.val ≠ 2 then s.onCore Tile.dropPrefs else s
       if o.k.val ≠ 1 ∨ o.s.val = 1 then s1.join else s1)) := by
  refine (issue_enabled (.fence o) _ s h rfl rfl rfl rfl ?_).trans ?_
  · by_cases h1 : o.k.val = 1 <;> by_cases h2 : o.k.val = 2 <;> simp_all
  · simp only [bne_iff_ne, Bool.and_eq_true, Bool.or_eq_true, beq_iff_eq, and_assoc]

/-! ## Scopes -/

theorem Agent.onDies_iff {a : Agent} {l : List Nat} : a.onDies l = true ↔ ∃ d, a.die? = some d ∧ d ∈ l := by
  unfold Agent.onDies
  cases a.die? <;> simp

theorem Agent.onDies_mono {a : Agent} {l l' : List Nat} (hl : l ⊆ l') (h : a.onDies l = true) : a.onDies l' = true := by
  obtain ⟨d, hd, hm⟩ := onDies_iff.1 h
  exact onDies_iff.2 ⟨d, hd, hl hm⟩

theorem Agent.inPackage_of_onDies {a : Agent} {l : List Nat} (h : a.onDies l = true) : a.inPackage = true := by
  obtain ⟨d, hd, -⟩ := onDies_iff.1 h
  simp [inPackage, hd]

/-- The agents of a tile are on its die. -/
theorem Agent.die?_of_tile? {a : Agent} {u : Nat} (h : a.tile? = some u) : a.die? = some (tileDie u) := by
  cases a <;> cases h <;> rfl

/-- Each wider scope holds the parties of the one before it (R297). -/
theorem inScope_mono {t cls : Nat} {a : Agent} (ht : t < 1024) : ∀ p ∈ [(1, 2), (2, 3), (3, 4), (4, 5), (5, 8), (6, 8), (7, 8), (8, 9), (9, 10), (10, 11)],
    inScope t p.1 cls a = true → inScope t p.2 cls a = true := by
  simp only [List.forall_mem_cons, List.not_mem_nil, false_implies, implies_true, and_true, inScope]
  refine ⟨fun h => ?_, fun h => ?_, fun h => ?_, fun h => ?_, fun h => ?_, fun h => ?_, fun h => ?_, fun h => ?_, fun h => ?_⟩
  · simp [beq_iff_eq.1 h]
  · cases hu : a.tile? with
    | none => simp [hu] at h
    | some u =>
      have hd : u / 16 = t / 16 := by simpa [hu] using h
      refine Agent.onDies_iff.2 ⟨_, Agent.die?_of_tile? hu, ?_⟩
      simp only [tileDie, List.mem_singleton]
      omega
  · exact Agent.onDies_mono (by simp) h
  · refine Agent.onDies_mono (fun d hd => ?_) h
    simp only [tileDie, List.mem_cons, List.not_mem_nil, or_false, List.mem_range] at hd ⊢
    omega
  · exact Agent.inPackage_of_onDies h
  · exact (Bool.and_eq_true_iff.1 h).1
  · exact (Bool.and_eq_true_iff.1 h).1
  · simp [h]
  · simp [h]

/-- A release and an acquire of one scope by two tiles of the module synchronise where each core is within the other's scope (R300). -/
theorem synchronise_same {t u : Nat} (cls : Nat) (ht : t < 1024) (hu : u < 1024) :
    synchronise t 1 u 1 cls = decide (t = u) ∧ synchronise t 2 u 2 cls = decide (t / 16 = u / 16) ∧
      synchronise t 3 u 3 cls = decide (t / 64 = u / 64) ∧
      synchronise t 4 u 4 cls = decide (u / 64 = t / 64 ∨ u / 64 = (t / 64 + 1) % 16 ∨ t / 64 = (u / 64 + 1) % 16) ∧
      synchronise t 5 u 5 cls = true ∧ synchronise t 6 u 6 cls = decide (cls < 2) ∧ synchronise t 7 u 7 cls = decide (cls = 2) ∧
      ∀ k, 8 ≤ k → k ≤ 11 → synchronise t k u k cls = true := by
  have core_onDies (v : Nat) (l : List Nat) : (Agent.core v).onDies l = decide (v / 64 ∈ l) := by
    rw [Bool.eq_iff_iff, decide_eq_true_iff]
    exact List.contains_iff_mem
  have core_inPackage (v : Nat) : (Agent.core v).inPackage = true := rfl
  refine ⟨?_, ?_, ?_, ?_, ?_, ?_, ?_, fun k h8 h11 => by interval_cases k <;> rfl⟩ <;>
    rw [Bool.eq_iff_iff] <;>
    simp only [synchronise, inScope, Agent.tile?, core_onDies, core_inPackage, tileDie, Bool.and_eq_true, beq_iff_eq,
      decide_eq_true_eq, Option.some.injEq, List.mem_cons, List.not_mem_nil, or_false, List.mem_range, true_and, and_self, iff_true] <;>
    omega

/-- Settles O19: PREF and FENCE run once nothing holds them, and each scope's parties are compared scope by scope. -/
theorem prefetchAndFence : Obligations.PrefetchAndFence :=
  ⟨fun _ _ h hw => ⟨fun _ hd hc => exec_pref h hw hd hc, exec_pref_none h hw⟩,
    fun _ _ cls _ ht hu => ⟨inScope_mono ht, synchronise_same cls ht hu, fun _ _ => Bool.and_comm _ _⟩,
    fun _ _ h => exec_fence h⟩

/-! ## Pushes of operand loads -/

theorem State.onCore_congr {s : State} {f g : Tile → Tile} (h : f s.core = g s.core) : s.onCore f = s.onCore g := by
  unfold State.onCore
  rw [h]

theorem Tile.push_unchecked {t : Tile} (h : t.checking = false) (e : Tcq) (rs : List (Nat × Nat × Bool)) (who : Nat) :
    t.push e rs who = t.push e [] who := by
  simp [Tile.push, h]

theorem exec_mxld {o : OpTNgdabf} {s : State} (h : Enabled (.mxld o) s)
    (ht : mxldTrap s (.mxld o) (s.core.sreg o.a).toNat (s.core.sreg o.b).toNat o.f = none) (hw : pushWaits s.core = false)
    (hc : s.core.checking = false) : exec (.mxld o) s = .next (finish (s.onCore (fun t =>
      let a := (s.core.sreg o.a).toNat
      let b := (s.core.sreg o.b).toNat
      let t' := if b % 65536 = 0 ∨ bit (b % 65536) (s.self % 16) then t.arm o.d o.f false a b else t
      t'.push (t'.entry (slotWordOf (.mxld o)) 0 a b 0) [] 8))) := by
  refine (issue_enabled (.mxld o) _ s h ht rfl rfl rfl hw).trans ?_
  have hown (b : Nat) : ownBit s.self (mxDesc b).mcast = true ↔ b % 65536 = 0 ∨ bit (b % 65536) (s.self % 16) = true := by
    simp [ownBit, mxDesc, bits]
  simp only [hown]
  refine congrArg (fun s' => Host.Outcome.next (finish s')) (State.onCore_congr ?_)
  refine (Tile.push_unchecked ?_ _ _ _).trans ?_
  · split <;> exact hc
  · split <;> rfl

/-- Settles O30: both forms arm their buffer and push; the first arms its own only where it is one of MCAST's tiles. -/
theorem operandLoads : Obligations.OperandLoads := by
  refine fun o r s => ⟨exec_mxld, fun h hc hw => ?_, fun h hc => issue_trap (.mxldR r) _ s h _ _ (if_pos hc)⟩
  refine (issue_enabled (.mxldR r) _ s h (if_neg (by omega)) rfl rfl rfl hw).trans ?_
  simp only [Nat.mod_eq_of_lt hc]
  rfl

end Sys2Proof.Machine
end

section
/-! SUPPORT. A request whose walk ends while no hop leads from its home to its tile: the answer waits, and the statement about the steps of a
request does not ask for a route there (R346, R461). -/

namespace Sys2Proof.Machine

/-- A load of tile 0 that walks at base die 1. -/
def strayWalk : Req := { Req.empty .ld with cls := 1, tgt := 1, st := .walking, mb := 1 }

/-- Die 0 with both of its hops DOWN, and that load. -/
def cutDie : State :=
  { State.reset with
    hub := { Hub.reset with links := [(0, 0), (15, 0)] },
    core := { Tile.reset with reqs := [strayWalk] },
    args := [0, 0] }

/-- No way round the bangle leads from base die 1 to die 0. -/
theorem cutDie_ringOk : ringOk cutDie 1 (tileDie 0) = false := by decide

/-- The answer of the walk waits for a route, though the leaf grants (R461). -/
theorem cutDie_waits : endWalk cutDie 0 0 1 strayWalk (.leaf 0 65536 true true) = cutDie := by
  unfold endWalk
  exact if_pos cutDie_ringOk

/-- Refutes O37: a leaf that grants translates its request only once a route leads from the home to the tile's die. On a die whose hops are
both DOWN the request stays as it is, where the clause of the walk's end has it translated. -/
theorem not_requestSteps : ¬Obligations.RequestSteps := by
  intro h
  obtain ⟨_, _, _, _, _, hleaf, _⟩ := h cutDie 0 0 0 strayWalk (by decide) rfl rfl rfl
  have heq := (hleaf 0 65536 true true).symm.trans cutDie_waits
  have hst := congrArg (fun s : State => s.core.reqs.map (·.st)) heq
  exact absurd hst (by decide)

end Sys2Proof.Machine
end

section
/-! SUPPORT. What the engines of a tile take and deliver: an entry accepted by a channel or the bead port, a fill that has arrived, a delivery
(R105, R261, R265, R275, R289). -/

namespace Sys2Proof.Machine

/-! ## Acceptance -/

section
variable {s : State} {e : Tcq}

/-- The step takes an entry that is first of its engine, where the engine has room for it. -/
theorem exec_engineAccept (ht : s.arg 0 < 1024) (he : (s.tile (s.arg 0)).tcq[s.arg 1]? = some e)
    (hfirst : ((s.tile (s.arg 0)).tcq.take (s.arg 1)).any (fun q => q.engine == e.engine) = false) (h2 : e.engine ≠ 2) :
    let x := s.tile (s.arg 0)
    let y := { x with tcq := ldel x.tcq (s.arg 1) }
    exec .engineAccept s = .next (
      if e.engine < 2 then
        if (x.chan e.ch).cmds.length < 4 then
          s.setTile (s.arg 0) (y.setChan e.ch { x.chan e.ch with cmds := (x.chan e.ch).cmds ++ [ChCmd.ofTcq e] })
        else s
      else if e.op = 41 then
        if x.beads.sends.length < 8 then
          s.setTile (s.arg 0) { y with beads := { x.beads with
            sends := x.beads.sends ++ [{ bead := e.beadRec, bar := e.b, hasBar := e.hasBar, stage := e.stage, stamp := e.stamp }] } }
        else s
      else
        s.setTile (s.arg 0) { y with beads := { x.beads with
          dones := x.beads.dones ++ [{ bead := e.beadRec, status := e.a % 256, waits := x.beads.sends.length, stage := e.stage,
                                       stamp := e.stamp }] } }) := by
  rw [show exec .engineAccept s = execEngineAccept s from rfl, execEngineAccept, tileStep_eq ht rfl]
  simp only [he, hfirst, Bool.false_or, beq_iff_eq, h2, if_false]

end

/-! ## Arrivals -/

/-- The last byte of a fill makes its buffer FULL (R261). -/
theorem exec_fillArrival {s : State} (ht : s.arg 0 < 1024) (hc : s.arg 1 < 4) (ha : ((s.tile (s.arg 0)).buf (s.arg 1)).arr = true) :
    let x := s.tile (s.arg 0)
    exec .fillArrival s = .next (s.setTile (s.arg 0)
      { x with osb := x.osb.setIfInBounds (s.arg 1) { x.buf (s.arg 1) with st := 2, arr := false } }) := by
  rw [show exec .fillArrival s = execFillArrival s from rfl, execFillArrival, tileStep_eq ht rfl]
  simp only [State.onTile, ha, if_true, Nat.mod_eq_of_lt hc]

section
variable {s : State} {d : Delivery}

/-- A delivery for a task that is gone leaves its slot (log A25). -/
theorem exec_multicastDelivery_drop (ht : s.arg 0 < 1024) (hc : s.arg 1 < 4) (hd : (s.tile (s.arg 0)).slots.getD (s.arg 1) none = some d)
    (hgone : holdsTask (s.tile (s.arg 0)) d.task = false) :
    let x := s.tile (s.arg 0)
    exec .multicastDelivery s = .next (s.setTile (s.arg 0) { x with slots := x.slots.setIfInBounds (s.arg 1) none }) := by
  rw [show exec .multicastDelivery s = execMulticastDelivery s from rfl, execMulticastDelivery, tileStep_eq ht rfl]
  simp only [State.onTile, Nat.mod_eq_of_lt hc, hd, hgone, Bool.not_false, if_true]

/-- A delivery passes to the buffer that was armed for its sender (R265). -/
theorem exec_multicastDelivery_pass (ht : s.arg 0 < 1024) (hc : s.arg 1 < 4) (hd : (s.tile (s.arg 0)).slots.getD (s.arg 1) none = some d)
    (hheld : holdsTask (s.tile (s.arg 0)) d.task = true) (hst : ((s.tile (s.arg 0)).buf (s.arg 1)).st = 1)
    (hrecv : ((s.tile (s.arg 0)).buf (s.arg 1)).recv = true) (hsrc : ((s.tile (s.arg 0)).buf (s.arg 1)).src % 16 = d.sender)
    (htask : fld (s.tile (s.arg 0)).spr.taskid 0 32 = d.task) (haway : (s.tile (s.arg 0)).task.away = false) :
    let x := s.tile (s.arg 0)
    exec .multicastDelivery s = .next (s.setTile (s.arg 0) { x with
      slots := x.slots.setIfInBounds (s.arg 1) none, osb := x.osb.setIfInBounds (s.arg 1) { d.buf with st := 2, arr := false } }) := by
  rw [show exec .multicastDelivery s = execMulticastDelivery s from rfl, execMulticastDelivery, tileStep_eq ht rfl]
  simp [State.onTile, Nat.mod_eq_of_lt hc, hd, hheld, hst, hrecv, hsrc, htask, haway]

end

end Sys2Proof.Machine
end

section
/-! SUPPORT. The head command of a channel: its record's checks, its run to an end, an error or a page fault, and its credits (R275 to R285). -/

namespace Sys2Proof.Machine

/-- A step on a channel runs its head command, where that has the opcode, has not ended and waits on no page fault. -/
theorem chanStep_head {s : State} {h : ChCmd} {op : Nat} (f : State → Nat → Nat → ChCmd → State) (ht : s.arg 0 < 1024) (hc : s.arg 1 < 8)
    (hh : ((s.tile (s.arg 0)).chan (s.arg 1)).head = some h) (hop : h.cmd.op = op) (he : h.ended = false) (hd : h.held = false) :
    chanStep s op f = .next (f s (s.arg 0) (s.arg 1) h) := by
  have hr : runnable s (s.arg 0) (s.arg 1) op = some h := by simp [runnable, hh, hop, he, hd]
  rw [chanStep, if_neg (by omega), tileStep_eq ht rfl, hr]

/-! ## Copies -/

/-- The state in which a channel's head command runs: a command that starts has its record read. -/
def cmdState (s : State) (t : Nat) (h : ChCmd) : State := if h.started then s else s.reads (scratchKey t (h.cmd.a % 4194304)) 64

/-- The record of a channel's head command: the one kept at its start, or the bytes that it names. -/
def cmdRecord (s : State) (t : Nat) (h : ChCmd) : Nat :=
  if h.started then h.record else readN (cmdState s t h) (scratchKey t (h.cmd.a % 4194304)) 64

/-- A copy that has come to position p, with what it has saved and its error code (R281). -/
def ChCmd.ranTo (h : ChCmd) (v : Nat) (l : List (Nat × Nat × Nat × Nat)) (p code : Nat) (fin : Bool) : ChCmd :=
  { h with record := v, saved := l, started := true, pos := p, owed := h.owed + ((cpyRec v).written p - (cpyRec v).written h.pos),
           ecode := code, ended := fin }

/-- The watermark of a CPYW that has come to position p moved (R197, R280). -/
def markTo (s : State) (t c : Nat) (h : ChCmd) (v p : Nat) : State :=
  if h.cmd.op = 25 then s.onTile t (fun y => y.setChan c (waterMark (y.chan c) h.cmd ((cpyRec v).written p))) else s

/-- What the run of a copy leaves. -/
def runOutcome (t c : Nat) (h : ChCmd) (v : Nat) (z : Piece) : State :=
  match z with
  | (.done p code, l, s) =>
    let s := markTo (setCmd s t c (h.ranTo v l p code true)) t c h v p
    if h.cmd.op = 25 ∧ code ≠ 0 then
      s.onTile t (fun y =>
        if (y.chan c).wm = h.cmd.beadRec / 2 ^ 32 ∧ (y.chan c).lo = h.cmd.beadRec % 2 ^ 32 then
          y.setChan c { y.chan c with lo := h.cmd.beadRec / 2 ^ 32 }
        else y)
    else s
  | (.fail p code, l, s) => markTo (setCmd s t c (h.ranTo v l p code true)) t c h v p
  | (.page p code m q, l, s) => markTo (holdCmd s t c m q (h.ranTo v l p code h.ended)) t c h v p
  | (.wait p code, l, s) => markTo (setCmd s t c (h.ranTo v l p code h.ended)) t c h v p

section
variable {s : State} {t : Nat} (c : Nat) {h : ChCmd}

/-- A CPYW record does not match its window (R280). -/
def windowBad (h : ChCmd) (r : CpyRec) : Bool :=
  h.cmd.op == 25 && cpywBad r (h.cmd.beadRec % 2 ^ 32) (h.cmd.beadRec / 2 ^ 32)

/-- A destination row of a copy meets an open window other than its own (R277, R282). -/
def meetsWindow (s : State) (t : Nat) (h : ChCmd) (r : CpyRec) : Bool :=
  cpyWindow (s.tile t) t (if h.cmd.op = 25 then some h.cmd.ch else none) r

theorem runCopy_poisoned (hs : h.started = false)
    (hp : (poisonAt (cmdState s t h) (scratchKey t (h.cmd.a % 4194304)) 64).isSome = true) :
    runCopy s t c h = setCmd (cmdState s t h) t c { h with record := 0, started := true, ended := true, ecode := 0x15 } := by
  rw [cmdState] at hp
  unfold runCopy
  exact if_pos (by simp [hs] at hp ⊢; exact hp)

variable (hp : poisonAt (cmdState s t h) (scratchKey t (h.cmd.a % 4194304)) 64 = none)
include hp

theorem runCopy_illFormed (hs : h.started = false) (hb : cpyBad h.cmd.op (cpyRec (cmdRecord s t h)) = true) :
    runCopy s t c h =
      setCmd (cmdState s t h) t c { h with record := cmdRecord s t h, started := true, ended := true, ecode := 0x10 } := by
  rw [cmdRecord] at hb
  rw [cmdState] at hp hb
  unfold runCopy
  exact (if_neg (by simp only [hp]; simp)).trans (if_pos (by rw [hb]; simp [hs]))

variable (hb : cpyBad h.cmd.op (cpyRec (cmdRecord s t h)) = false)
include hb

theorem runCopy_windowBad (hs : h.started = false) (hw : windowBad h (cpyRec (cmdRecord s t h)) = true) :
    runCopy s t c h =
      setCmd (cmdState s t h) t c { h with record := cmdRecord s t h, started := true, ended := true, ecode := 0x16 } := by
  rw [windowBad, cmdRecord] at hw
  rw [cmdRecord] at hb
  rw [cmdState] at hp hb hw
  unfold runCopy
  exact (if_neg (by simp only [hp]; simp)).trans ((if_neg (by rw [hb]; simp)).trans (if_pos (by rw [hs] at hw ⊢; exact hw)))

variable (hw : windowBad h (cpyRec (cmdRecord s t h)) = false)
include hw

theorem runCopy_meets (hs : h.started = false) (hm : meetsWindow (cmdState s t h) t h (cpyRec (cmdRecord s t h)) = true) :
    runCopy s t c h =
      setCmd (cmdState s t h) t c { h with record := cmdRecord s t h, started := true, ended := true, ecode := 0x17 } := by
  rw [meetsWindow, cmdRecord] at hm
  rw [windowBad, cmdRecord] at hw
  rw [cmdRecord] at hb
  rw [cmdState] at hp hb hw hm
  unfold runCopy
  exact (if_neg (by simp only [hp]; simp)).trans ((if_neg (by rw [hb]; simp)).trans ((if_neg (by rw [Bool.and_assoc, hw]; simp)).trans
    (if_pos (by rw [hm, hs]; rfl))))

end

/-- Nothing stands against the run of a command: it has started, or its record is well-formed and meets no window. -/
def CopyRuns (s : State) (t : Nat) (h : ChCmd) : Prop :=
  let r := cpyRec (cmdRecord s t h)
  h.started = true ∨ (poisonAt (cmdState s t h) (scratchKey t (h.cmd.a % 4194304)) 64 = none ∧ cpyBad h.cmd.op r = false ∧
    windowBad h r = false ∧ meetsWindow (cmdState s t h) t h r = false)

/-- A copy that nothing stands against runs as far as it goes. -/
theorem runCopy_runs {s : State} {t : Nat} {h : ChCmd} (c : Nat) (hgo : CopyRuns s t h) :
    runCopy s t c h = runOutcome t c h (cmdRecord s t h)
      (wholeRun (cmdState s t h) t h.cmd (cpyRec (cmdRecord s t h)) { h with record := cmdRecord s t h }) := by
  have checks {p b w m : Bool} (hor : h.started = true ∨ (p = false ∧ b = false ∧ w = false ∧ m = false)) :
      (!h.started && p) = false ∧ (!h.started && b) = false ∧ (!h.started && w) = false ∧ (!h.started && m) = false := by
    rcases hor with hs | ⟨rfl, rfl, rfl, rfl⟩
    · simp [hs]
    · simp
  obtain ⟨hp, hb, hw, hm⟩ := checks (hgo.imp_right fun ⟨hp, hb, hw, hm⟩ =>
    ⟨Option.isSome_eq_false_iff.mpr (Option.isNone_iff_eq_none.mpr hp), hb, hw, hm⟩)
  rcases hz : wholeRun (cmdState s t h) t h.cmd (cpyRec (cmdRecord s t h)) { h with record := cmdRecord s t h } with ⟨y, l, s1⟩
  rw [windowBad, ← Bool.and_assoc] at hw
  rw [meetsWindow] at hm
  rw [cmdRecord] at hb hw hm hz ⊢
  rw [cmdState] at hp hb hw hm hz ⊢
  unfold runCopy
  refine (if_neg (by rw [hp]; simp)).trans ((if_neg (by rw [hb]; simp)).trans ((if_neg (by rw [hw]; simp)).trans
    ((if_neg (by rw [hm]; simp)).trans ?_)))
  dsimp only
  rw [hz]
  cases y <;> rfl

section
variable {t c v p code : Nat} {h : ChCmd} {l : List (Nat × Nat × Nat × Nat)} {s : State}

/-- A copy that comes to its end moves its watermark there; only a CPYW that met poison does more (R280, R282). -/
theorem runOutcome_done (hc : code = 0 ∨ h.cmd.op ≠ 25) :
    runOutcome t c h v (.done p code, l, s) = markTo (setCmd s t c (h.ranTo v l p code true)) t c h v p :=
  if_neg fun ⟨hop, hcode⟩ => hc.elim hcode fun hne => hne hop

theorem runOutcome_page {m : Nat} {q : FReq} (he : h.ended = false) :
    runOutcome t c h v (.page p code m q, l, s) = markTo (holdCmd s t c m q (h.ranTo v l p code false)) t c h v p := by
  rw [runOutcome, he]

theorem runOutcome_wait (he : h.ended = false) :
    runOutcome t c h v (.wait p code, l, s) = markTo (setCmd s t c (h.ranTo v l p code false)) t c h v p := by
  rw [runOutcome, he]

end

end Sys2Proof.Machine
end

section
/-! SUPPORT. Gathers and credits of a channel (R281, R284, R285). -/

namespace Sys2Proof.Machine

/-! ## Gathers -/

section
variable {s : State} {h : ChCmd} (ht : s.arg 0 < 1024) (hc : s.arg 1 < 8) (hh : ((s.tile (s.arg 0)).chan (s.arg 1)).head = some h)
  (hop : h.cmd.op = 27) (he : h.ended = false) (hd : h.held = false)
include ht hc hh hop he hd

/-- A gather reads its record; one that is bad ends with its code, and another reads its index list. -/
theorem exec_gather_start (hs : h.started = false)
    (hp : poisonAt (cmdState s (s.arg 0) h) (scratchKey (s.arg 0) (h.cmd.a % 4194304)) 64 = none) :
    let s0 := cmdState s (s.arg 0) h
    let v := cmdRecord s (s.arg 0) h
    let g := gathRec v
    let k := scratchKey (s.arg 0) g.ixa
    let n := if gathBad h.cmd g = 0 ∧ g.idx = true then g.n.getD 0 0 else 0
    let s1 := if n = 0 then s0 else s0.reads k (4 * n)
    let bad := if s1.poison = [] then 0 else packFields 1 (fun i => b2n (poisonAt s1 (k + 4 * i) 4).isSome) n
    exec .gather s = .next (setCmd s1 (s.arg 0) (s.arg 1) { h with
      started := true, record := v + 2 ^ 512 * (readN s1 k (4 * n) + 2 ^ (32 * n) * bad), ended := gathBad h.cmd g != 0,
      ecode := gathBad h.cmd g }) := by
  have hs0 : cmdState s (s.arg 0) h = s.reads (scratchKey (s.arg 0) (h.cmd.a % 4194304)) 64 := by simp [cmdState, hs]
  have hv : cmdRecord s (s.arg 0) h = readN (cmdState s (s.arg 0) h) (scratchKey (s.arg 0) (h.cmd.a % 4194304)) 64 := by
    simp [cmdRecord, hs]
  rw [hv]
  rw [hs0] at hp ⊢
  rw [show exec .gather s = execGather s from rfl, execGather, chanStep_head _ ht hc hh hop he hd]
  refine congrArg Host.Outcome.next ?_
  exact (if_neg (by simp [hs])).trans (if_neg (by rw [hp]; simp))

/-- A gather with a bad record ends with its code and reads nothing more (R282). -/
theorem exec_gather_bad (hs : h.started = false)
    (hp : poisonAt (cmdState s (s.arg 0) h) (scratchKey (s.arg 0) (h.cmd.a % 4194304)) 64 = none)
    (hb : gathBad h.cmd (gathRec (cmdRecord s (s.arg 0) h)) ≠ 0) :
    exec .gather s = .next (setCmd (cmdState s (s.arg 0) h) (s.arg 0) (s.arg 1) { h with
      record := cmdRecord s (s.arg 0) h, started := true, ended := true,
      ecode := gathBad h.cmd (gathRec (cmdRecord s (s.arg 0) h)) }) := by
  have hend : (gathBad h.cmd (gathRec (cmdRecord s (s.arg 0) h)) != 0) = true := bne_iff_ne.mpr hb
  rw [exec_gather_start ht hc hh hop he hd hs hp]
  simp only [hb, hend, false_and, if_false, if_true, readN, memRead, packFields, Nat.mul_zero, List.range_zero, List.foldl_nil, ite_self,
    Nat.add_zero]

/-- A gather with a good record reads its index list (R284). -/
theorem exec_gather_good (hs : h.started = false)
    (hp : poisonAt (cmdState s (s.arg 0) h) (scratchKey (s.arg 0) (h.cmd.a % 4194304)) 64 = none) :
    let v := cmdRecord s (s.arg 0) h
    let g := gathRec v
    let k := scratchKey (s.arg 0) g.ixa
    let n := if g.idx then g.n.getD 0 0 else 0
    let s1 := if n = 0 then cmdState s (s.arg 0) h else (cmdState s (s.arg 0) h).reads k (4 * n)
    gathBad h.cmd g = 0 → s1.poison = [] → exec .gather s = .next (setCmd s1 (s.arg 0) (s.arg 1) { h with
      started := true, ended := false, ecode := 0, record := v + 2 ^ 512 * readN s1 k (4 * n) }) := by
  intro v g k n s1 hb hq
  have hn : (if gathBad h.cmd g = 0 ∧ g.idx = true then g.n.getD 0 0 else 0) = n := by simp [hb, n]
  have hstart := exec_gather_start ht hc hh hop he hd hs hp
  dsimp only at hstart
  rw [hstart, hn, hb, if_pos hq, Nat.mul_zero, Nat.add_zero]
  rfl

/-- The stride-gather units run a gather to the end of one packed line (R285, R330). -/
theorem exec_strideGatherRead_done (hs : h.started = true) {p code : Nat} {s1 : State}
    (hrun : gathRun (s.arg 0) h (gathRec (h.record % 2 ^ 512)) (Nat.max 1 (64 / (gathRec (h.record % 2 ^ 512)).esz)) s h.pos h.ecode =
      (.done p code, s1)) :
    let g := gathRec (h.record % 2 ^ 512)
    exec .strideGatherRead s = .next (setCmd s1 (s.arg 0) (s.arg 1)
      { h.ran p (h.pos * g.esz) (p * g.esz) code with ended := decide (g.count ≤ p) }) := by
  rw [show exec .strideGatherRead s = execStrideGatherRead s from rfl, execStrideGatherRead, chanStep_head _ ht hc hh hop he hd]
  refine congrArg Host.Outcome.next ((if_neg (by simp [hs])).trans ?_)
  dsimp only
  rw [hrun]

end

/-! ## Credits -/

theorem due_running {h : ChCmd} (he : h.ended = false) : h.due = h.owed := by simp [ChCmd.due, ChCmd.failed, he]

theorem due_complete {h : ChCmd} (hc : h.ecode = 0) : h.due = h.owed := by simp [ChCmd.due, ChCmd.failed, hc]

theorem due_failed {h : ChCmd} (he : h.ended = true) (hc : h.ecode ≠ 0) (hp : h.ecode ≠ 0x15) : h.due = h.total - (h.done - h.owed) := by
  simp [ChCmd.due, ChCmd.failed, he, hc, hp]

section
variable {s : State} {h : ChCmd} (ht : s.arg 0 < 1024) (hc : s.arg 1 < 8) (hh : ((s.tile (s.arg 0)).chan (s.arg 1)).head = some h)
  (hw : creditWaits s (s.arg 0) h.cmd = false)
include ht hc hh hw

/-- A credit once no update of the tile core stands before it (R187, R281, R306). -/
theorem exec_engineCredit :
    exec .engineCredit s = .next (
      if h.ended = true ∧ (h.ecode ≠ 0 ∨ Nat.min (s.arg 2) h.due = h.due) then
        endCmd (creditBar s (s.arg 0) h.cmd h.due h.ecode) (s.arg 0) (s.arg 1) h
      else if Nat.min (s.arg 2) h.due = 0 then s
      else setCmd (creditBar s (s.arg 0) h.cmd (Nat.min (s.arg 2) h.due) 0) (s.arg 0) (s.arg 1)
        { h with owed := h.owed - Nat.min (s.arg 2) h.due }) := by
  rw [show exec .engineCredit s = execEngineCredit s from rfl, execEngineCredit]
  dsimp only
  rw [if_neg (by omega), tileStep_eq ht rfl, hh]
  dsimp only
  rw [hw]
  rfl

/-- The last credit of a command ends it. -/
theorem exec_engineCredit_last (he : h.ended = true) (hl : h.ecode ≠ 0 ∨ h.due ≤ s.arg 2) :
    exec .engineCredit s = .next (endCmd (creditBar s (s.arg 0) h.cmd h.due h.ecode) (s.arg 0) (s.arg 1) h) := by
  rw [exec_engineCredit ht hc hh hw, if_pos ⟨he, hl.imp_right fun hle => Nat.min_eq_right hle⟩]

/-- Bytes performed are credited while the command goes on. -/
theorem exec_engineCredit_more (he : h.ended = false) (hn : 0 < Nat.min (s.arg 2) h.owed) :
    exec .engineCredit s = .next (setCmd (creditBar s (s.arg 0) h.cmd (Nat.min (s.arg 2) h.owed) 0) (s.arg 0) (s.arg 1)
      { h with owed := h.owed - Nat.min (s.arg 2) h.owed }) := by
  rw [exec_engineCredit ht hc hh hw, due_running he, if_neg (by simp [he]), if_neg (by omega)]

end

end Sys2Proof.Machine
end

section
/-! SUPPORT. One piece of a copy or fill, and one element of a gather, where no storage holds an error or poison (R277, R279, R285). -/

namespace Sys2Proof.Machine

/-! ## Bytes of a value read -/

theorem memGet_readN (s : State) (k : Nat) {n i : Nat} (hi : i < n) : bits (readN s k n) (8 * i) 8 = (memGet s.mem (k + i)).toNat := by
  unfold readN bits
  induction n generalizing k i with
  | zero => omega
  | succ n ih =>
    have hb : (memGet s.mem k).toNat < 256 := (memGet s.mem k).isLt
    cases i with
    | zero =>
      rw [memRead, Nat.mul_zero, Nat.pow_zero, Nat.div_one, show (2 : Nat) ^ 8 = 256 from rfl, Nat.add_mul_mod_self_left, Nat.mod_eq_of_lt hb,
        Nat.add_zero]
    | succ i =>
      rw [memRead, show 8 * (i + 1) = 8 + 8 * i by ring, Nat.pow_add, ← Nat.div_div_eq_div_mul, show (2 : Nat) ^ 8 = 256 from rfl,
        Nat.add_mul_div_left _ _ (by norm_num), Nat.div_eq_of_lt hb, Nat.zero_add]
      rw [show k + (i + 1) = k + 1 + i by ring]
      exact ih (k + 1) (by omega)

theorem bit_ones {n i : Nat} (hi : i < n) : bit (2 ^ n - 1) i = true := by
  rw [bit_eq_testBit, Nat.testBit_two_pow_sub_one]
  exact decide_eq_true hi

/-! ## Sound storage -/

/-- No storage holds an error, no unit is poisoned, and the host answers without a mark (R319, R328). -/
def State.Sound (s : State) : Prop := s.poison = [] ∧ s.codes.flaws = [] ∧ s.arg 2 ≠ 2

section
variable {s : State} (hs : s.Sound)
include hs

theorem poisMask_sound (k n : Nat) : poisMask s k n = 0 := by
  obtain ⟨hp, -, ha⟩ := hs
  rw [poisMask, if_neg fun h => ha h.1, if_pos hp]

theorem State.Sound.reads_mem (k n : Nat) : (s.reads k n).mem = s.mem := (s.reads_sound k n hs.2.1 (.inr hs.1)).1

theorem State.Sound.reads (k n : Nat) : (s.reads k n).Sound := by
  obtain ⟨hp, hf, ha⟩ := hs
  refine ⟨(s.reads_sound k n hf (.inr hp)).2.trans hp, ?_, ?_⟩
  · simp [State.reads, State.metas, State.checks, hf, hp]
  · simpa [State.arg] using ha

theorem State.Sound.passes_mem (k n : Nat) : (s.passes k n).mem = s.mem := by
  simp [State.passes, State.metas, State.checks, hs.1, hs.2.1]

theorem State.Sound.passes (k n : Nat) : (s.passes k n).Sound := by
  obtain ⟨hp, hf, ha⟩ := hs
  refine ⟨by simp [State.passes, State.metas, State.checks, hf, hp], by simp [State.passes, State.metas, State.checks, hf, hp], ?_⟩
  simpa [State.arg, (s.passes_units k n).2.2.2.2.2.2.2.1] using ha

/-- A whole write puts its bytes and no others. -/
theorem writeEnb_whole (k n data : Nat) :
    let s' := writeEnb s k n data (2 ^ n - 1) false
    (∀ i < n, (memGet s'.mem (k + i)).toNat = bits data (8 * i) 8) ∧ ∀ a, (a < k ∨ k + n ≤ a) → memGet s'.mem a = memGet s.mem a :=
  ⟨fun _ hi => writeEnb_enabled hs.2.1 hs.1 hi (bit_ones hi), fun _ ha => writeEnb_other hs.2.1 ha⟩

end

/-- A place of storage that is awake needs no storage that sleeps (R478). -/
theorem backed_awake {s : State} {k : Nat} (h : dozing s k = false) (n : Nat) : backed s k n = true := by simp [backed, h]

theorem backedWrite_awake {s : State} {k : Nat} (h : dozing s k = false) (s' : State) (n : Nat) : backedWrite s s' k n = true := by
  simp [backedWrite, h]

theorem dozing_reads (s : State) (k n a : Nat) : dozing (s.reads k n) a = dozing s a := by simp [dozing]

/-! ## Pieces of a copy -/

/-- What a piece of a copy is to write: of a fill the pattern, of a copy the bytes of its source. -/
def pieceSource (s : State) (t : Nat) (e : Tcq) (r : CpyRec) (pos n : Nat) : Got × State :=
  let none' : Got := { err := none, n := 0, v := 0, pois := 0, key := 0 }
  if e.op = 26 then ({ none' with n := n, v := fillData r.src (pos % r.rowb) n }, s) else readSegs t e [] (srcSegs r n pos n) s none'

/-- The destination of the piece at a position. -/
def pieceDst (r : CpyRec) (pos : Nat) : Nat := moved r.dst (r.dstr * (pos / r.rowb : Nat) + (pos % r.rowb : Nat))

/-- The bytes of the piece at a position. -/
def pieceLen (r : CpyRec) (pos : Nat) : Nat :=
  Nat.min (if r.dstr = r.rowb then r.rows * r.rowb - pos else r.rowb - pos % r.rowb) (64 - pieceDst r pos % 64)

/-- The piece at a destination written from what its source gave (R277, R328). -/
def pieceWrite (t : Nat) (e : Tcq) (da pos : Nat) (saved : List (Nat × Nat × Nat × Nat)) (g : Got) (s : State) : Piece :=
  let n := if g.err.isNone then g.n else g.n - Nat.min g.n ((da + g.n) % 4)
  match g.err, n with
  | some x, 0 => (x.stop pos, saved, s)
  | _, _ =>
    match engAccess s t e 1 da n true with
    | (.at dk, s) =>
      let pm := g.pois % 2 ^ n
      let save := e.op != 26 && mayOverlap g.key dk
      let s1 := if save then s.reads dk n else s
      let saved' := if save then saved ++ [(dk, n, readN s1 dk n, poisMask s1 dk n)] else saved
      let s2 := writeFar s1 dk n g.v ((2 ^ n - 1) ^^^ pm) false
      let s3 := if pm = 0 then s2 else writeFar s2 dk n g.v pm true
      if (!save || backed s dk n) && backedWrite s s3 dk n then (.done (pos + n) (if pm = 0 then 0 else 0x15), saved', s3)
      else (.wait pos 0, saved, s)
    | (x, s) => (x.stop pos, saved, s)

theorem copyPiece_eq (s : State) (t : Nat) (e : Tcq) (r : CpyRec) (pos : Nat) :
    copyPiece s t e r [] pos =
      pieceWrite t e (pieceDst r pos) pos [] (pieceSource s t e r pos (pieceLen r pos)).1 (pieceSource s t e r pos (pieceLen r pos)).2 :=
  rfl

theorem writeFar_good (s : State) (k n v enb : Nat) : writeFar s k n v enb false = writeEnb s k n v enb false := if_neg (by simp)

section
variable {s : State} {t : Nat} {e : Tcq} {da dk n : Nat}

/-- Bytes that are there and sound are written as a whole; what they overlay is saved first where the copy may still read it. -/
theorem pieceWrite_whole (pos v key : Nat) (hs : s.Sound) (hdoz : dozing s dk = false) (hdst : engAccess s t e 1 da n true = (.at dk, s)) :
    ∃ l s', s'.Sound ∧ s'.mem = s.mem ∧ (e.op = 26 → l = []) ∧
      pieceWrite t e da pos [] { err := none, n := n, v := v, pois := 0, key := key } s =
        (.done (pos + n) 0, l, writeEnb s' dk n v (2 ^ n - 1) false) := by
  unfold pieceWrite
  simp only [Option.isNone_none, if_true, hdst, Nat.zero_mod, Nat.xor_zero, writeFar_good, backed_awake hdoz, backedWrite_awake hdoz,
    Bool.or_true, Bool.and_true]
  cases hsave : e.op != 26 && mayOverlap key dk with
  | false => exact ⟨_, s, hs, rfl, fun _ => rfl, rfl⟩
  | true =>
    refine ⟨_, s.reads dk n, hs.reads dk n, hs.reads_mem dk n, fun h26 => ?_, rfl⟩
    simp [h26] at hsave

end

/-- The source of the piece at a position. -/
def pieceSrc (r : CpyRec) (pos : Nat) : Nat := moved r.src (r.sstr * (pos / r.rowb : Nat) + (pos % r.rowb : Nat))

/-- Bytes within a row and a 64-byte line of the source are one run. -/
theorem srcSegs_one {r : CpyRec} {pos n : Nat} (hn : 0 < n) (hrow : n ≤ r.rowb - pos % r.rowb) (hline : n ≤ 64 - pieceSrc r pos % 64) :
    srcSegs r n pos n = [(pieceSrc r pos, n)] := by
  have hrest (f p : Nat) : srcSegs r f p 0 = [] := by cases f <;> rfl
  obtain ⟨f, rfl⟩ : ∃ f, n = f + 1 := ⟨n - 1, by omega⟩
  have hm : Nat.min (f + 1) (Nat.min (r.rowb - pos % r.rowb) (64 - pieceSrc r pos % 64)) = f + 1 :=
    Nat.min_eq_left (Nat.le_min.mpr ⟨hrow, hline⟩)
  rw [pieceSrc] at hm ⊢
  rw [srcSegs, if_neg (by omega)]
  dsimp only
  rw [hm, Nat.sub_self, hrest]

section
variable {s : State} {t : Nat} {e : Tcq} {r : CpyRec} {pos k dk : Nat}

/-- A piece of a copy writes the bytes of its source, and no others (R277, R279). -/
theorem copyPiece_copies (hs : s.Sound) (hdoz : dozing s dk = false) (hop : e.op ≠ 26) (hn : 0 < pieceLen r pos)
    (hrow : pieceLen r pos ≤ r.rowb - pos % r.rowb) (hline : pieceLen r pos ≤ 64 - pieceSrc r pos % 64)
    (hsrc : engAccess s t e 1 (pieceSrc r pos) (pieceLen r pos) false = (.at k, s))
    (hdst : engAccess (s.reads k (pieceLen r pos)) t e 1 (pieceDst r pos) (pieceLen r pos) true = (.at dk, s.reads k (pieceLen r pos))) :
    ∃ l s', copyPiece s t e r [] pos = (.done (pos + pieceLen r pos) 0, l, s') ∧
      (∀ a, (a < dk ∨ dk + pieceLen r pos ≤ a) → memGet s'.mem a = memGet s.mem a) ∧
      ∀ i < pieceLen r pos, memGet s'.mem (dk + i) = memGet s.mem (k + i) := by
  have hread : pieceSource s t e r pos (pieceLen r pos) =
      ({ err := none, n := pieceLen r pos, v := readN (s.reads k (pieceLen r pos)) k (pieceLen r pos), pois := 0, key := k },
        s.reads k (pieceLen r pos)) := by
    rw [pieceSource, if_neg hop, srcSegs_one hn hrow hline, readSegs, hsrc]
    simp [readSegs, poisMask_sound (hs.reads k _), asBefore, savedVals, savedPois]
  obtain ⟨l, s2, hs2, hm2, -, hw⟩ := pieceWrite_whole pos (readN (s.reads k (pieceLen r pos)) k (pieceLen r pos)) k (hs.reads k _)
    ((dozing_reads s k _ dk).trans hdoz) hdst
  obtain ⟨hin, hout⟩ := writeEnb_whole hs2 dk (pieceLen r pos) (readN (s.reads k (pieceLen r pos)) k (pieceLen r pos))
  rw [hm2, hs.reads_mem] at hout
  refine ⟨l, _, by rw [copyPiece_eq, hread]; exact hw, hout, fun i hi => BitVec.eq_of_toNat_eq ?_⟩
  rw [hin i hi, memGet_readN _ _ hi, hs.reads_mem]

/-- A piece of a fill writes the bytes of its pattern, and no others (R279). -/
theorem copyPiece_fills (hs : s.Sound) (hdoz : dozing s dk = false) (hop : e.op = 26)
    (hdst : engAccess s t e 1 (pieceDst r pos) (pieceLen r pos) true = (.at dk, s)) :
    ∃ s', copyPiece s t e r [] pos = (.done (pos + pieceLen r pos) 0, [], s') ∧
      (∀ a, (a < dk ∨ dk + pieceLen r pos ≤ a) → memGet s'.mem a = memGet s.mem a) ∧
      ∀ i < pieceLen r pos, (memGet s'.mem (dk + i)).toNat = bits r.src (8 * ((pos % r.rowb + i) % 8)) 8 := by
  obtain ⟨l, s2, hs2, hm2, hl, hw⟩ := pieceWrite_whole pos (fillData r.src (pos % r.rowb) (pieceLen r pos)) 0 hs hdoz hdst
  obtain ⟨hin, hout⟩ := writeEnb_whole hs2 dk (pieceLen r pos) (fillData r.src (pos % r.rowb) (pieceLen r pos))
  rw [hl hop] at hw
  rw [hm2] at hout
  refine ⟨_, by rw [copyPiece_eq, pieceSource, if_pos hop]; exact hw, hout, fun i hi => ?_⟩
  rw [hin i hi, fillData, bits_packFields 8 _ hi, Nat.mod_eq_of_lt (bits_lt _ _ 8)]

end

/-! ## Elements of a gather -/

/-- An element of a gather is written as its source holds it (R285). -/
theorem gathElem_copies {s : State} {t e k : Nat} {h : ChCmd} {g : GathRec} {r : Word} (hs : s.Sound)
    (hgood : gathPoison h.record g e = false) (hal : gathSrc h.record g e % g.esz = 0) (hglob : sortLocal t (gathSrc h.record g e) = none)
    (hrg : h.cmd.rg.find? (rgMatch (gathSrc h.record g e)) = some r) (hcls : fld r 8 3 < 2)
    (hsrc : engAccess s t h.cmd 2 (gathSrc h.record g e) g.esz false = (.at k, s)) :
    let dk := scratchKey t (g.dst + e * g.esz)
    ∃ s', gathElem s t h g e = (.done (e + 1) 0, s') ∧ (∀ i < g.esz, memGet s'.mem (dk + i) = memGet s.mem (k + i)) ∧
      ∀ b, (b < dk ∨ dk + g.esz ≤ b) → memGet s'.mem b = memGet s.mem b := by
  intro dk
  have hp := hs.passes k g.esz
  obtain ⟨hin, hout⟩ := writeEnb_whole hp dk g.esz (readN (s.passes k g.esz) k g.esz)
  rw [hs.passes_mem] at hout
  refine ⟨writeEnb (s.passes k g.esz) dk g.esz (readN (s.passes k g.esz) k g.esz) (2 ^ g.esz - 1) false, ?_,
    fun i hi => BitVec.eq_of_toNat_eq ?_, hout⟩
  · have hcls' : ¬(isGlobal (gathSrc h.record g e) = true ∧ 2 ≤ fld r 8 3) := by omega
    rw [gathElem]
    simp only [hgood, hal, hglob, hrg, hsrc, if_neg hcls', poisMask_sound hp, Nat.xor_zero]
    rfl
  · rw [hin i hi, memGet_readN _ _ hi, hs.passes_mem]

end Sys2Proof.Machine
end

section
/-! SUPPORT. The operand loader takes its next entry (R23, R264, R265). -/

namespace Sys2Proof.Machine

theorem lfind_none {α : Type} {p : α → Bool} {l : List α} (h : l.any p = false) : lfind p l = none := by
  induction l with
  | nil => rfl
  | cons x l ih =>
    rw [List.any_cons, Bool.or_eq_false_iff] at h
    simp [lfind, h.1, ih h.2]

/-- With no buffer to refill, no delivery held and no fill in flight, the loader runs the first MXLD entry (R264). -/
theorem exec_mxldFill {s : State} {k : Nat} {e : Tcq} (ht : s.arg 0 < 1024) (hrefill : (s.tile (s.arg 0)).osb.toList.any (·.refill) = false)
    (hcasts : (s.tile (s.arg 0)).casts = []) (harr : (s.tile (s.arg 0)).osb.toList.any (·.arr) = false)
    (hk : lfind (fun e : Tcq => e.op == 16) (s.tile (s.arg 0)).tcq = some k) (he : (s.tile (s.arg 0)).tcq[k]? = some e) :
    exec .mxldFill s = .next (loadEntry s (s.arg 0) k e) := by
  rw [show exec .mxldFill s = execMxldFill s from rfl, execMxldFill, tileStep_eq ht rfl]
  simp only [lfind_none hrefill, hcasts, harr, hk, he]
  rfl

theorem readSource_tile (s : State) (t f a b u : Nat) : (readSource s t f a b).tile u = s.tile u := by
  have fold (holder : Nat) (l : List (Nat × Nat)) (s : State) :
      (l.foldl (fun s p => s.reads (scratchKey holder p.1) p.2) s).tile u = s.tile u := by
    induction l generalizing s with
    | nil => rfl
    | cons p l ih => exact (ih _).trans (by simp [State.tile])
  unfold readSource
  split
  · rfl
  · exact fold _ _ s

/-- A tile that holds no delivery makes none. -/
theorem sendCasts_none {s : State} {t : Nat} (h : (s.tile t).casts = []) : sendCasts s t = s.onTile t (fun y => { y with casts := [] }) := by
  simp [sendCasts, h]

theorem State.onTile_tile (s : State) (t : Nat) (f : Tile → Tile) : (s.onTile t f).tile t = f (s.tile t) := by
  unfold State.onTile State.setTile
  split
  · simp [State.tile, *]
  · next h => simp [State.tile, if_neg h]

section
variable {s : State} {t k holder off : Nat} {e : Tcq}

/-- An entry of the loader's own form leaves the queue, and its buffer is filled from its source (R262, R264). -/
theorem loadEntry_fills (hform : bit e.et 0 = false) (hsrc : mxSource t e.a = some (holder, off)) (hown : ownBit t (mxDesc e.b).mcast = true)
    (htargets : targets t (mxDesc e.b).mcast = []) (harm : stillArmed (s.tile t) t e = true)
    (hheld : sourceHeld (s.tile holder) (mxSpans off (bits e.word 0 2) (mxDesc e.b)) = false) :
    let f := bits e.word 0 2
    let y := (loadEntry s t k e).tile t
    y.tcq = ldel (s.tile t).tcq k ∧
      y.buf (bits e.word 14 2) = readBuf (readSource s t f e.a e.b) holder (e.a - off) off f e.a e.b := by
  have hfill : fillFrom (readSource s t (bits e.word 0 2) e.a e.b) t (bits e.word 0 2) e.a e.b =
      some (readBuf (readSource s t (bits e.word 0 2) e.a e.b) holder (e.a - off) off (bits e.word 0 2) e.a e.b) := by
    unfold fillFrom
    rw [hsrc]
    exact if_neg (by rw [readSource_tile, hheld]; simp)
  have hd : bits e.word 14 2 < 4 := bits_lt _ _ 2
  rw [loadEntry]
  simp only [hform, Bool.false_eq_true, if_false, hsrc, hfill, hown, harm, and_self, if_true, htargets, List.map_nil]
  rw [sendCasts_none (by rw [State.onTile_tile])]
  simp [State.onTile_tile, readSource_tile, Tile.buf, getD_setIfInBounds, Nat.mod_eq_of_lt hd, hd]

end

end Sys2Proof.Machine
end

section
/-! SUPPORT. The steps of a tile's engines put together (R105, R261 to R289). -/

namespace Sys2Proof.Machine

/-- The step of a copy, watermarked copy or fill at the head of channel operand 1 of tile operand 0. -/
theorem exec_copies {s s' : State} {h : ChCmd} (ht : s.arg 0 < 1024) (hc : s.arg 1 < 8)
    (hh : ((s.tile (s.arg 0)).chan (s.arg 1)).head = some h) (he : h.ended = false) (hd : h.held = false)
    (hrun : runCopy s (s.arg 0) (s.arg 1) h = s') :
    (h.cmd.op = 24 → exec .cpyCopy s = .next s') ∧ (h.cmd.op = 25 → exec .cpywCopy s = .next s') ∧
      (h.cmd.op = 26 → exec .fillWrite s = .next s') := by
  subst hrun
  exact ⟨fun hop => chanStep_head runCopy ht hc hh hop he hd, fun hop => chanStep_head runCopy ht hc hh hop he hd,
    fun hop => chanStep_head runCopy ht hc hh hop he hd⟩

theorem waterMark_own {ch : Chan} {e : Tcq} (w : Nat) (h : ownWindow ch e = true) :
    waterMark ch e w = { ch with wm := ch.lo + w / 64 * 64, act := decide (ch.lo + w / 64 * 64 ≠ ch.hi) } := by
  rw [waterMark, if_pos h]
  simp [bne, Bool.beq_eq_decide_eq]

theorem windowBad_iff {h : ChCmd} {r : CpyRec} :
    windowBad h r = true ↔ h.cmd.op = 25 ∧ cpywBad r (h.cmd.beadRec % 2 ^ 32) (h.cmd.beadRec / 2 ^ 32) = true := by
  simp [windowBad]

theorem windowBad_false_iff {h : ChCmd} {r : CpyRec} :
    windowBad h r = false ↔ ¬(h.cmd.op = 25 ∧ cpywBad r (h.cmd.beadRec % 2 ^ 32) (h.cmd.beadRec / 2 ^ 32) = true) := by
  rw [← windowBad_iff, Bool.not_eq_true]

/-- Settles O40: each step by the lemma about its engine. -/
theorem engineSteps : Obligations.EngineSteps := by
  intro s t c ht ha hc
  subst ha hc
  refine ⟨fun e he hfirst => ⟨fun h2 hroom => ?_, fun h3 h41 hroom => ?_, fun h3 h41 => ?_⟩, fun h hc8 hh => ⟨fun hend hheld =>
    ⟨?_, ?_, ?_, ?_, ?_, ?_, ?_⟩, fun hw => ⟨?_, ?_, ?_, ?_⟩⟩, fun ch e w hw => waterMark_own w hw, ?_, ?_, ?_, ?_, ?_⟩
  · rw [exec_engineAccept ht he hfirst (by omega), if_pos h2, if_pos hroom]
  · rw [exec_engineAccept ht he hfirst (by omega), if_neg (by omega), if_pos h41, if_pos hroom]
  · rw [exec_engineAccept ht he hfirst (by omega), if_neg (by omega), if_neg h41]
  · exact fun hs hp => exec_copies ht hc8 hh hend hheld (runCopy_poisoned _ hs hp)
  · exact fun hs hp hb => exec_copies ht hc8 hh hend hheld (runCopy_illFormed _ hp hs hb)
  · exact fun hs hp hb hw => exec_copies ht hc8 hh hend hheld (runCopy_windowBad _ hp hb hs (windowBad_iff.mpr hw))
  · exact fun hs hp hb hw hm => exec_copies ht hc8 hh hend hheld (runCopy_meets _ hp hb (windowBad_false_iff.mpr hw) hs hm)
  · intro hgo l s1
    have hgo' : CopyRuns s (s.arg 0) h := hgo.imp_right fun ⟨hp, hb, hw, hm⟩ => ⟨hp, hb, windowBad_false_iff.mpr hw, hm⟩
    refine ⟨fun p code hrun hcode => ?_, fun p code hrun => ?_, fun p code m q hrun => ?_, fun p code hrun => ?_⟩
    · exact exec_copies ht hc8 hh hend hheld ((runCopy_runs _ hgo').trans ((congrArg _ hrun).trans (runOutcome_done hcode)))
    · exact exec_copies ht hc8 hh hend hheld ((runCopy_runs _ hgo').trans (congrArg _ hrun))
    · exact exec_copies ht hc8 hh hend hheld ((runCopy_runs _ hgo').trans ((congrArg _ hrun).trans (runOutcome_page hend)))
    · exact exec_copies ht hc8 hh hend hheld ((runCopy_runs _ hgo').trans ((congrArg _ hrun).trans (runOutcome_wait hend)))
  · intro hop hs hp
    exact ⟨exec_gather_good ht hc8 hh hop hend hheld hs hp, exec_gather_bad ht hc8 hh hop hend hheld hs hp⟩
  · exact fun hop hs p code s1 hrun => exec_strideGatherRead_done ht hc8 hh hop hend hheld hs hrun
  · exact fun he hl => exec_engineCredit_last ht hc8 hh hw he hl
  · exact fun he hn => exec_engineCredit_more ht hc8 hh hw he hn
  · exact fun _ hc => due_complete hc
  · exact fun he hc hp => due_failed he hc hp
  · intro e r pos k dk hp hf h2 _ hdoz
    exact ⟨fun hop hn hrow hline hsrc hdst => copyPiece_copies ⟨hp, hf, h2⟩ hdoz hop hn hrow hline hsrc hdst,
      fun hop _ hdst => copyPiece_fills ⟨hp, hf, h2⟩ hdoz hop hdst⟩
  · exact fun h g e k r hp hf h2 hgood hal hglob hrg hcls hsrc => gathElem_copies ⟨hp, hf, h2⟩ hgood hal hglob hrg hcls hsrc
  · exact fun k e hrefill hcasts harr hk he => ⟨exec_mxldFill ht hrefill hcasts harr hk he,
      fun holder off hform hsrc hown htargets harm hheld => loadEntry_fills hform hsrc hown htargets harm hheld⟩
  · exact fun hc4 harr => exec_fillArrival ht hc4 harr
  · exact fun d hc4 hd => ⟨exec_multicastDelivery_drop ht hc4 hd, exec_multicastDelivery_pass ht hc4 hd⟩

end Sys2Proof.Machine
end

section
/-! SUPPORT. The scalar operations, selection, comparison, predicate logic and copies between register files (R142 to R148, R166, R167). -/

namespace Sys2Proof.Machine

/-! ## Register arithmetic -/

/-- Settles O1: each form lands what its function on naturals gives, which is the operation on words. -/
theorem scalarArithmetic : Obligations.ScalarArithmetic := by
  refine ⟨?_, ?_⟩
  · intro o s a
    refine ⟨fun h => ?_, fun h => scalarOut_enabled (.popc o) 1 o.d _ s h _ (congrArg _ (aluPopc_eq a))⟩
    obtain ⟨hle, hlt, hge⟩ := aluClz_bounds a
    exact ⟨aluClz a.toNat, hle, scalarOut_enabled (.clz o) 1 o.d _ s h _ rfl, hlt, hge⟩
  · intro o s a b n ends
    have binary (i : Instr) (k : Nat) {f : Nat → Nat → Nat} {v : Word} (hv : BitVec.ofNat 64 (f a.toNat b.toNat) = v) (h : Enabled i s) :
        scalarOut i k o.d (f a.toNat b.toNat) s = .next (finish (s.withS k o.d v)) := scalarOut_enabled i k o.d _ s h v hv
    exact ⟨binary _ 1 (aluAdd_eq a b), binary _ 1 (aluSub_eq a b), binary _ 1 (aluAnd_eq a b), binary _ 1 (aluOr_eq a b),
      binary _ 1 (aluXor_eq a b), binary _ 1 (aluAndn_eq a b), binary _ 1 (aluShl_eq a b.toNat), binary _ 1 (aluShr_eq a b.toNat),
      binary _ 1 (aluSra_eq a b.toNat), binary _ 3 (aluMul_eq a b), binary _ 3 (aluMulhI_eq a b), binary (.mulhN o) 3 (f := aluMulhN) rfl,
      binary _ 1 (aluMinI_eq a b), binary _ 1 (aluMinN_eq a b), binary _ 1 (aluMaxI_eq a b), binary _ 1 (aluMaxN_eq a b)⟩

/-! ## Selection, comparison and predicate logic -/

/-- The condition of a CND code on words (R147). -/
def wordCond (c : Fin 8) (x y : Word) : Bool :=
  match c.val with | 0 => x == y | 1 => x != y | 2 => x.slt y | 3 => y.sle x | 4 => x.ult y | _ => y.ule x

theorem cmpCond_eq (c : Fin 8) (x y : Word) : cmpCond c x.toNat y.toNat = wordCond c x y := by
  have heq : (x.toNat == y.toNat) = (x == y) := decide_eq_decide.2 BitVec.toNat_inj
  obtain ⟨c, hc⟩ := c
  match c with
  | 0 => exact heq
  | 1 => exact congrArg (!·) heq
  | 2 | 3 => simp only [cmpCond, wordCond, sext_toNat, BitVec.slt, BitVec.sle]
  | 4 | _ + 5 => simp only [cmpCond, wordCond, BitVec.ult, BitVec.ule]

/-- The immediate of CMPI as a word: signed under the codes 0 to 3, natural above (R147). -/
theorem cmpImm_eq (c : Fin 8) (i : Fin 128) :
    cmpImm c i = (if c.val < 4 then (BitVec.ofNat 7 i).signExtend 64 else BitVec.ofNat 64 i : Word).toNat := by
  unfold cmpImm
  split
  · exact sx64_toNat i 7 (by decide)
  · rw [BitVec.toNat_ofNat]
    omega

/-- An enabled predicate operation has its result under way. -/
theorem predOut_enabled {i : Instr} {s : State} (h : Enabled i s) (d : Nat) (v : Bool) : predOut i d v s = .next (finish (s.withQ d v)) :=
  issue_enabled i _ s h rfl rfl rfl rfl rfl

/-- Settles O4: SEL picks before it lands, CMP and CMPI compare as words, and the predicate operations land what their sources give. -/
theorem scalarSelectCompare : Obligations.ScalarSelectCompare := by
  refine ⟨fun o s h => ?_, ⟨fun o s h => ?_, fun o s h => ?_⟩, fun o p s => ?_⟩
  · refine scalarOut_enabled (.sel o) 1 o.d _ s h _ ?_
    rw [← apply_ite BitVec.toNat, BitVec.ofNat_toNat, BitVec.setWidth_eq]
    rfl
  · refine (predOut_enabled h o.q _).trans ?_
    rw [cmpCond_eq]
    rfl
  · refine (predOut_enabled h o.q _).trans ?_
    rw [cmpImm_eq, cmpCond_eq]
    rfl
  · exact ⟨fun h => predOut_enabled h _ _, fun h => predOut_enabled h _ _, fun h => predOut_enabled h _ _, fun h => predOut_enabled h _ _⟩

/-! ## Copies between register files -/

theorem lane_eq_extract (v : VWord) (i w : Nat) : BitVec.ofNat w (lane v i w) = v.extractLsb' (w * i) w := by
  refine BitVec.eq_of_getLsbD_eq fun j hj => ?_
  rw [BitVec.getLsbD_ofNat, testBit_lane, BitVec.getLsbD_extractLsb']
  simp

theorem ofNat_lane (v : VWord) (i w : Nat) : BitVec.ofNat 64 (lane v i w) = (v.extractLsb' (w * i) w).setWidth 64 := by
  refine BitVec.eq_of_toNat_eq ?_
  rw [← lane_eq_extract, BitVec.toNat_setWidth, BitVec.toNat_ofNat, BitVec.toNat_ofNat,
    Nat.mod_eq_of_lt (show lane v i w < 2 ^ w from bits_lt v.toNat (w * i) w)]

/-- Settles O5: a lane is a part of its register, extended with zeros or its sign. -/
theorem crossFileCopies : Obligations.CrossFileCopies := by
  intro o m s v ends
  have zeroExtended (i : Instr) (w : Nat) (h : Enabled i s) : scalarOut i 3 o.d (lane v o.i w) s =
      .next (finish (s.withS 3 o.d ((v.extractLsb' (w * o.i) w).setWidth 64))) := scalarOut_enabled i 3 o.d _ s h _ (ofNat_lane v o.i w)
  have signExtended (i : Instr) (w : Nat) (hw : 0 < w) (h : Enabled i s) : scalarOut i 3 o.d (sx64 (lane v o.i w) w) s =
      .next (finish (s.withS 3 o.d ((v.extractLsb' (w * o.i) w).signExtend 64))) :=
    scalarOut_enabled i 3 o.d _ s h _ (by rw [ofNat_sx64 _ _ hw, lane_eq_extract])
  exact ⟨zeroExtended _ 8, signExtended _ 8 (by decide), zeroExtended _ 16, signExtended _ 16 (by decide), zeroExtended _ 32,
    signExtended _ 32 (by decide),
    fun h => scalarOut_enabled (.xv2sN64 o) 3 o.d _ s h _ (lane_eq_extract v o.i 64),
    fun h => issue_enabled (.xq2m m) _ s h rfl rfl rfl rfl rfl⟩

end Sys2Proof.Machine
end

section
/-! SUPPORT. Transfers of control, counted and rotating loops, and the checks against the twin latches (R149 to R155, R165, R234). -/

namespace Sys2Proof.Machine

/-! ## Transfers -/

/-- A target that a transfer may have: the address of a bundle (R149). -/
abbrev BundleAddress (t : Int) : Prop := 0 ≤ t ∧ t < 2 ^ 56 ∧ t % 16 = 0

/-- A transfer that is taken to no bundle has a cause, any other none (R149). -/
theorem transfer_trap (taken : Bool) (t : Int) (also : State → State) :
    (transfer taken t also).trap = if taken = true ∧ ¬BundleAddress t then some (.illegal, wrap 64 t) else none := by
  refine if_congr ?_ rfl rfl
  rw [Bool.and_eq_true, Bool.or_eq_true, Bool.or_eq_true, decide_eq_true_eq, decide_eq_true_eq, bne_iff_ne]
  refine and_congr_right fun _ => ?_
  unfold BundleAddress
  omega

section
variable {i : Instr} {s : State} (h : Enabled i s)
include h

/-- An enabled transfer goes on where it is not taken, goes to its target where that is a bundle, and else traps (R149). -/
theorem issue_transfer (taken : Bool) (t : Int) (also : State → State) :
    issue i (transfer taken t also) s =
      if taken = false then .next (finish s)
      else if BundleAddress t then .next (finish ((also s).goto t.toNat))
      else trapOut s .illegal s.core.iss.slot (wrap 64 t) .trapIssue := by
  have htrap := transfer_trap taken t also
  cases taken with
  | false => exact issue_enabled i _ s h htrap rfl rfl rfl rfl
  | true =>
    split
    · contradiction
    split
    · next hb => exact issue_enabled i _ s h (htrap.trans (if_neg fun hn => hn.2 hb)) rfl rfl rfl rfl
    · next hb => exact issue_trap i _ s h _ _ (htrap.trans (if_pos ⟨rfl, hb⟩))

theorem issue_transfer_taken (t : Int) (also : State → State) :
    issue i (transfer true t also) s =
      if BundleAddress t then .next (finish ((also s).goto t.toNat))
      else trapOut s .illegal s.core.iss.slot (wrap 64 t) .trapIssue :=
  issue_transfer h true t also

end

/-- Settles O6: each is a transfer that is always taken, CALL with its link under way. -/
theorem plainTransfers : Obligations.PlainTransfers := by
  intro o x c s pc via
  have link : s.landS 1 c.d (s.pcNat + 16) = s.withS 1 c.d (pc + 16) := by
    rw [land_toNat, BitVec.ofNat_add]
    simp [pc, State.pcNat]
  refine ⟨fun h => issue_transfer_taken h _ id, fun h => issue_transfer_taken h _ id, fun h => issue_transfer_taken h _ id, fun h => ?_⟩
  rw [← link]
  exact issue_transfer_taken h _ _

/-! ## Counted and rotating loops -/

theorem bne_eq_decide_ne (a b : Word) : (a != b) = decide (a ≠ b) := by simp [bne, Bool.beq_eq_decide_eq]

/-- Settles O7: BRC and LOOP are transfers, taken on a predicate and on LC. -/
theorem countedBranches : Obligations.CountedBranches := by
  intro b o x s pc lc via
  refine ⟨fun h => issue_transfer h _ _ _, fun h => ?_, fun h => issue_enabled (.setlc x) _ s h rfl rfl rfl rfl rfl⟩
  rw [← bne_eq_decide_ne]
  exact issue_transfer h _ _ _

/-- The change of LC, wheel and q8 that LOOPR makes whether or not it branches (R154). -/
def State.loopPass (s : State) : State :=
  let more := s.core.spr.lc != 0
  let wheel := wheelNext s.core.spr.rotw
  ((s.eff (.lc (if more then s.core.spr.lc - 1 else 0))).eff (.rotw wheel)).land 1 (.pred (physQ wheel 8) more)

theorem State.loopPass_eq (s : State) :
    s.loopPass = ((s.eff (.lc (if s.core.spr.lc = 0 then 0 else s.core.spr.lc - 1))).eff (.rotw (wheelNext s.core.spr.rotw))).land 1
      (.pred (physQ (wheelNext s.core.spr.rotw) 8) (decide (s.core.spr.lc ≠ 0))) := by
  rw [State.loopPass, ← bne_eq_decide_ne]
  by_cases h : s.core.spr.lc = 0 <;> simp [h]

/-- LOOPR branches: LC is not 0, or a stage predicate below the last is 1 (R155). -/
def State.loopTaken (s : State) (o : OpSNgso) : Bool := s.core.spr.lc != 0 || (List.range o.s.val).any (fun k => s.core.pred (8 + k))

theorem State.loopTaken_iff (s : State) (o : OpSNgso) :
    s.loopTaken o = true ↔ s.core.spr.lc ≠ 0 ∨ ∃ k < o.s.val, s.core.pred (8 + k) = true := by
  simp [State.loopTaken]

theorem exec_loopr_passes {o : OpSNgso} {s : State} (h : Enabled (.loopr o) s)
    (hb : s.loopTaken o = true → BundleAddress (relTarget s o.o 17)) :
    exec (.loopr o) s = .next (finish (if s.loopTaken o then s.loopPass.goto (relTarget s o.o 17).toNat else s.loopPass)) :=
  issue_enabled (.loopr o) _ s h
    ((transfer_trap (s.loopTaken o) (relTarget s o.o 17) id).trans (if_neg fun hn => hn.2 (hb hn.1))) rfl rfl rfl rfl

theorem exec_loopr_traps {o : OpSNgso} {s : State} (h : Enabled (.loopr o) s) (ht : s.loopTaken o = true)
    (hb : ¬BundleAddress (relTarget s o.o 17)) :
    exec (.loopr o) s = trapOut s .illegal s.core.iss.slot (wrap 64 (relTarget s o.o 17)) .trapIssue :=
  issue_trap (.loopr o) _ s h _ _ ((transfer_trap (s.loopTaken o) (relTarget s o.o 17) id).trans (if_pos ⟨ht, hb⟩))

/-- Settles O8: the pass of the loop is made in either direction, and the branch is a transfer. -/
theorem rotatingLoop : Obligations.RotatingLoop := by
  intro o s h lc wheel t taken s'
  have hpass : s.loopPass = s' := s.loopPass_eq
  have htaken : s.loopTaken o = true ↔ taken := s.loopTaken_iff o
  refine ⟨fun hn => ?_, fun ht h0 h1 h2 => ?_, fun ht hb => exec_loopr_traps h (htaken.2 ht) hb⟩
  · rw [exec_loopr_passes h fun hc => absurd (htaken.1 hc) hn, if_neg (mt htaken.1 hn), hpass]
  · rw [exec_loopr_passes h fun _ => ⟨h0, h1, h2⟩, if_pos (htaken.2 ht), hpass]
    rfl

/-! ## Checks -/

/-- An enabled comparison with a twin latch traps where the two differ, and else runs (R115, R392). -/
theorem issue_compares {i : Instr} {op : Op} {s : State} {differ : Bool} (h : Enabled i s) (hx : op.twin = if differ then some 0 else none)
    (ht : op.trap = none) (hc : op.wchk = none) (hz : op.waitSb = false) (hq : op.wait = false) (hu : op.compared = id) :
    issue i op s = if differ then trapOut s .twin s.core.iss.slot 0 .trapTwin else .next (finish (op.run s)) := by
  cases differ with
  | false => exact issue_enabled i op s h ht hc hx hz hq
  | true =>
    rw [issue_decodes i op s h.1 h.2.1]
    simp [issueOn, h.2.2, ht, hc, hz, hx, hu]

/-- Settles O9: each compares its register, or its predicate, with the latch; BR.G is a transfer besides. -/
theorem twinChecks : Obligations.TwinChecks := by
  intro b o v s c t twin
  refine ⟨fun h h0 h1 h2 => ?_, fun h => ?_, fun h => ?_⟩
  · have htrap := (transfer_trap (c != (b.n.val == 1)) t id).trans (if_neg fun hn => hn.2 ⟨h0, h1, h2⟩)
    refine (issue_compares (i := .brG b) (differ := c != (s.core.regs.twinS != 0)) h rfl (by exact htrap) rfl rfl rfl rfl).trans ?_
    refine if_congr ?_ rfl (apply_ite (fun s' => Host.Outcome.next (finish s')) _ _ _)
    simp [bne, Bool.beq_eq_decide_eq]
  · refine (issue_compares (differ := s.core.sreg o.a != s.core.regs.twinS) h rfl rfl rfl rfl rfl rfl).trans ?_
    simp only [bne_iff_ne, ite_not]
    rfl
  · refine (issue_compares (differ := s.core.vreg v.a != s.core.regs.twinV) h rfl rfl rfl rfl rfl rfl).trans ?_
    simp only [bne_iff_ne, ite_not]
    rfl

end Sys2Proof.Machine
end

section
/-! SUPPORT. Channel windows and banks (R160, R196, R201, R202, R360). -/

namespace Sys2Proof.Machine

/-! ## The banks of draining tasks -/

theorem testBit_foldl_or {α : Type} (f : α → Nat) (l : List α) (b i : Nat) :
    (l.foldl (fun b d => b ||| f d) b).testBit i = (b.testBit i || l.any (fun d => (f d).testBit i)) := by
  induction l generalizing b with
  | nil => simp
  | cons d l ih => rw [List.foldl_cons, ih, Nat.testBit_or, List.any_cons, Bool.or_assoc]

theorem testBit_drainBanks (x : Tile) (t i : Nat) : (drainBanks x t).testBit i =
    x.task.drains.any (fun d => (if commandsDone x d then d.bown &&& retiredBanks x t else d.bown).testBit i) := by
  rw [drainBanks, testBit_foldl_or, Nat.zero_testBit, Bool.false_or]

/-- Draining tasks without a command or an update outstanding hold no bank. -/
theorem drainBanks_eq_zero {x : Tile} {t : Nat} (hdone : ∀ d ∈ x.task.drains, commandsDone x d = true) (hnone : retiredBanks x t = 0) :
    drainBanks x t = 0 := by
  refine Nat.eq_of_testBit_eq fun i => ?_
  rw [testBit_drainBanks, Nat.zero_testBit, List.any_eq_false]
  intro d hd
  simp [hdone d hd, hnone]

/-- A task with a command outstanding holds all of its banks. -/
theorem and_drainBanks {x : Tile} {t : Nat} {d : Drain} (hd : d ∈ x.task.drains) (hout : commandsDone x d = false) :
    d.bown &&& drainBanks x t = d.bown := by
  refine Nat.eq_of_testBit_eq fun i => ?_
  rw [Nat.testBit_and, testBit_drainBanks]
  cases hb : d.bown.testBit i with
  | false => rfl
  | true =>
    rw [Bool.true_and, List.any_eq_true]
    exact ⟨d, hd, by simp [hout, hb]⟩

/-! ## Windows -/

/-- The bounds that CHSET takes: on lines, in order, within the scratchpad (R196). -/
abbrev WindowFits (lo hi : Nat) : Prop := lo % 64 = 0 ∧ hi % 64 = 0 ∧ lo ≤ hi ∧ hi ≤ 3145728

theorem windowFits_iff (lo hi : Nat) :
    (lo % 64 != 0 || hi % 64 != 0 || decide (hi < lo) || decide (Config.scratchBytes < hi)) = true ↔ ¬WindowFits lo hi := by
  have hbytes : Config.scratchBytes = 3145728 := rfl
  simp only [Bool.or_eq_true, bne_iff_ne, decide_eq_true_eq, hbytes]
  omega

section
variable {o : OpTNgdab} {s : State} (h : Enabled (.chset o) s)
include h

theorem exec_chset_opens (hfits : WindowFits (s.core.sreg o.a).toNat (s.core.sreg o.b).toNat) (hidle : chanBusy s.core o.d = false) :
    exec (.chset o) s = .next (finish (s.onCore (fun t => t.setChan o.d
      { t.chan o.d with lo := (s.core.sreg o.a).toNat, hi := (s.core.sreg o.b).toNat, wm := (s.core.sreg o.a).toNat, act := false }))) :=
  issue_enabled (.chset o) _ s h (if_neg (mt (windowFits_iff _ _).1 (not_not.2 hfits))) rfl rfl rfl hidle

theorem exec_chset_traps (hfits : ¬WindowFits (s.core.sreg o.a).toNat (s.core.sreg o.b).toNat) :
    exec (.chset o) s = trapOut s .illegal s.core.iss.slot (slotWordOf (.chset o)) .trapIssue :=
  issue_trap (.chset o) _ s h _ _ (if_pos ((windowFits_iff _ _).2 hfits))

end

/-- Settles O34: a window opens or traps by its bounds, banks are taken where the claim and the draining tasks let them, and what draining
tasks hold is a union over them. -/
theorem windowsAndBanks : Obligations.WindowsAndBanks := by
  intro o b s t lo hi m off held fits
  refine ⟨fun h hfits hidle => exec_chset_opens h hfits hidle, fun h hbad => exec_chset_traps h hbad,
    drainBanks_eq_zero, fun d hd hout => and_drainBanks hd hout, fun h hoff => ?_, fun h hoff hfree => ?_, fun h => ?_⟩
  · exact issue_trap (.bankAcq b) _ s h _ _ (if_pos hoff)
  · exact issue_enabled (.bankAcq b) _ s h (if_neg (not_not.2 hoff)) rfl rfl rfl (bne_eq_false_iff_eq.2 hfree)
  · exact issue_enabled (.bankRel b) _ s h rfl rfl rfl rfl rfl

end Sys2Proof.Machine
end

section
/-! SUPPORT. ERET on an image that holds an error which no read has found yet: it traps as POISON, though nothing stood against it before (R162,
R319, R328, R407). -/

namespace Sys2Proof.Machine

theorem reaches_of_enabled {i : Instr} {s : State} (h : Enabled i s) : reaches i s = true := by
  obtain ⟨⟨hx, hl, hf, hg⟩, hr, -⟩ := h
  simp [reaches, hx, hl, hf, hg, hr]

theorem enabled_reads {i : Instr} {s : State} (h : Enabled i s) (k n : Nat) : Enabled i (s.reads k n) := by
  unfold Enabled Decodes at *
  rwa [State.reads_core, State.reads_hub]

/-- ERET from an image reads it whole before its own checks (R162, R407), so a cause found there is one that the read may have uncovered. -/
theorem exec_eret_trap {o : OpSNg} {s : State} (h : Enabled (.eret o) s) (hsup : s.core.sup = true) (himage : fld s.core.spr.tstat 1 1 = 0)
    {c : Cause} {v : Nat} (ht : eretTrap o (s.reads (saveArea s s.self) 16384) = some (c, v)) :
    exec (.eret o) s = trapOut (s.reads (saveArea s s.self) 16384) c s.core.iss.slot v .trapIssue := by
  have hread : (reaches (.eret o) s && s.core.sup && fld s.core.spr.tstat 1 1 == 0) = true := by
    simp [reaches_of_enabled h, hsup, himage]
  change execEret o s = _
  simp only [execEret, hread, if_true]
  rw [issue_trap (.eret o) _ _ (enabled_reads h _ _) c v ht, State.reads_core]

/-- A handler about to return to a task whose image stands at the start of tile 0's scratchpad, valid and otherwise zero; the image's first
word has an uncorrectable error that no read has found yet. -/
def hiddenError : State :=
  { State.reset with
    mem := [(7, 0x80)],
    codes := { Codes.reset with flaws := [.unit 0 .uncorrectable] },
    core := { Tile.reset with spr := { Spr.reset with mcsb := 64 }, task := { Task.reset with run := .running } } }

/-- An ERET without a guard. -/
def plainEret : OpSNg := { n := 0, g := 0 }

theorem hiddenError_enabled : Enabled (.eret plainEret) hiddenError := by decide

/-- As long as the error is not found, nothing stands against the ERET and it has nothing to wait for. -/
theorem hiddenError_clear : eretTrap plainEret hiddenError = none ∧ eretWaits hiddenError = false := by decide +kernel

/-- The read finds the error and marks the word. -/
theorem hiddenError_found : eretTrap plainEret (hiddenError.reads (saveArea hiddenError hiddenError.self) 16384) = some (.poison, 0) := by
  decide +kernel

theorem exec_eret_hiddenError : exec (.eret plainEret) hiddenError =
    trapOut (hiddenError.reads (saveArea hiddenError hiddenError.self) 16384) .poison hiddenError.core.iss.slot 0 .trapIssue :=
  exec_eret_trap hiddenError_enabled (by decide +kernel) (by decide +kernel) hiddenError_found

/-- An operation that ends does not end in a trap of its own. -/
theorem finish_out_ne (s : State) : (finish s).core.iss.out ≠ .trapIssue := by
  unfold finish
  split <;> exact Tag.noConfusion

/-- Refutes O13: the clause of ERET asks for causes and waits in the state before ERET reads its image, and the read may find an error there.
On an image whose first word has an uncorrectable error that no read has found, nothing stands against ERET, yet it traps as POISON; the clause
needs the codes of the image to be without errors, or its hypotheses to speak of the state after the read. -/
theorem not_systemOperations : ¬Obligations.SystemOperations := by
  intro h
  obtain ⟨_, _, hops⟩ := h
  obtain ⟨_, _, _, heret⟩ := hops plainEret hiddenError
  have heq := (heret hiddenError_enabled hiddenError_clear.1 hiddenError_clear.2).symm.trans exec_eret_hiddenError
  exact finish_out_ne _ (congrArg (·.core.iss.out) (Host.Outcome.next.inj heq))

end Sys2Proof.Machine
end

section
/-! SUPPORT. The words that atomics and barrier updates write (R176, R186, R187). -/

namespace Sys2Proof.Machine

/-! ## Atomics -/

theorem sext_lt_iff_slt (a b : Word) : sext a.toNat 64 < sext b.toNat 64 ↔ a.slt b = true := by
  rw [sext_toNat, sext_toNat, BitVec.slt_iff_toInt_lt]

/-- The signed choices, whose operands are compared as BitVec compares them (R176). -/
theorem amoNew_signed (m b c : Word) :
    amoNew 1 64 m.toNat b.toNat c.toNat = some (if b.slt m then b else m).toNat ∧
      amoNew 3 64 m.toNat b.toNat c.toNat = some (if m.slt b then b else m).toNat := by
  simp only [amoNew, sext_lt_iff_slt, apply_ite BitVec.toNat, and_self]

/-- The natural choices (R176). -/
theorem amoNew_natural (m b c : Word) :
    amoNew 2 64 m.toNat b.toNat c.toNat = some (if b < m then b else m).toNat ∧
      amoNew 4 64 m.toNat b.toNat c.toNat = some (if m < b then b else m).toNat := by
  have hmin : Nat.min m.toNat b.toNat = if b.toNat < m.toNat then b.toNat else m.toNat := (min_comm _ _).trans (min_def_lt _ _)
  have hmax : Nat.max m.toNat b.toNat = if m.toNat < b.toNat then b.toNat else m.toNat := max_def_lt _ _
  simp only [amoNew, hmin, hmax, BitVec.lt_def, apply_ite BitVec.toNat, and_self]

theorem amoNew_compare (m b c : Word) : amoNew 9 64 m.toNat b.toNat c.toNat = if m = c then some b.toNat else none := by
  simp only [amoNew, BitVec.toNat_inj]

/-! ## Barrier objects -/

section
variable {pa pb : Nat} (hpb : pb < 2 ^ 47)
include hpb

theorem bits_barrierArrivals (hpa : pa < 65536) : bits (pa * 2 ^ 48 + pb) 48 16 = pa := by
  rw [bits]
  omega

theorem sext_barrierBytes : sext (pa * 2 ^ 48 + pb) 48 = pb := by
  have hlow : (pa * 2 ^ 48 + pb) % 2 ^ 48 = pb := by omega
  rw [sext, hlow]
  exact if_pos hpb

end

section
variable {ini : Nat} (hini : ini < 65536) (ph : Bool)
include hini

/-- Word 1 of an object without an error: INIT, PH, and zeros above (R186). -/
theorem barrierStatus_fields :
    bits (ini + b2n ph * 65536) 0 16 = ini ∧ bits (ini + b2n ph * 65536) 16 1 = b2n ph ∧
      ∀ lo w, 17 ≤ lo → bits (ini + b2n ph * 65536) lo w = 0 := by
  have hph : b2n ph ≤ 1 := by cases ph <;> decide
  refine ⟨by rw [bits]; omega, by rw [bits]; omega, fun lo w hlo => ?_⟩
  have hle : 2 ^ 17 ≤ 2 ^ lo := Nat.pow_le_pow_right (by decide) hlo
  rw [bits, Nat.div_eq_of_lt (by omega), Nat.zero_mod]

theorem barRsv_clear : barRsv (ini + b2n ph * 65536) = false := by
  obtain ⟨-, -, hhigh⟩ := barrierStatus_fields hini ph
  simp [barRsv, hhigh 32 32 (by decide), hhigh 18 6 (by decide)]

/-- The first error of an object is noted with its code (R187). -/
theorem barFault_clear : barFault (ini + b2n ph * 65536) 1 = ini + b2n ph * 65536 + 2 ^ 17 + 2 ^ 24 := by
  obtain ⟨-, -, hhigh⟩ := barrierStatus_fields hini ph
  have herr := hhigh 17 1 (by decide)
  have hcode : bits (setBits (ini + b2n ph * 65536) 17 1 1) 24 8 = 0 := by
    rw [bits_setBits_other (by decide), hhigh 24 8 (by decide)]
  rw [barFault, bit, herr, setBits, hcode, setBits, herr]
  norm_num

theorem setBits_phase : setBits (ini + b2n ph * 65536) 16 1 (1 - b2n ph) = ini + b2n (!ph) * 65536 := by
  obtain ⟨-, hphase, -⟩ := barrierStatus_fields hini ph
  rw [setBits, hphase]
  cases ph <;> simp [b2n]

end

/-- An update within bounds of an object without an error: an arrival that no one is missing for is an error, a change that leaves
neither arrivals nor bytes outstanding flips the phase, and any other only counts (R187). -/
theorem barApply_clear {pa pb ini : Nat} (ph arrive : Bool) {add : Int} (hpa : pa < 65536) (hini : ini < 65536) (hpb : pb < 2 ^ 47)
    {pa' pb' : Nat} (hpa' : (if arrive then pa - 1 else pa) = pa') (hsum : (pb : Int) + add = pb') (hpb' : pb' < 2 ^ 47) :
    barApply (pa * 2 ^ 48 + pb) (ini + b2n ph * 65536) add arrive 0 =
      if arrive = true ∧ pa = 0 then (pa * 2 ^ 48 + pb, ini + b2n ph * 65536 + 2 ^ 17 + 2 ^ 24)
      else if (pa', pb') ≠ (pa, pb) ∧ pa' = 0 ∧ pb' = 0 then (ini * 2 ^ 48, ini + b2n (!ph) * 65536)
      else (pa' * 2 ^ 48 + pb', ini + b2n ph * 65536) := by
  obtain ⟨hinit, hphase, -⟩ := barrierStatus_fields hini ph
  have hok : (decide (-2 ^ 47 ≤ (pb' : Int)) && decide ((pb' : Int) < 2 ^ 47)) = true := by
    simp only [Bool.and_eq_true, decide_eq_true_eq]
    omega
  have hwrap : wrap 48 pb' = pb' := by
    rw [wrap]
    omega
  have hflips : ((pa' != pa || (pb' : Int) != pb) && pa' == 0 && (pb' : Int) == 0) = true ↔ (pa', pb') ≠ (pa, pb) ∧ pa' = 0 ∧ pb' = 0 := by
    simp only [Bool.and_eq_true, Bool.or_eq_true, bne_iff_ne, beq_iff_eq, ne_eq, Nat.cast_inj, Nat.cast_eq_zero, Prod.mk.injEq,
      not_and_or, and_assoc]
  simp only [barApply, barRsv_clear hini ph, bits_barrierArrivals hpb hpa, sext_barrierBytes hpb, hsum, hpa', barFault_clear hini ph,
    Bool.false_eq_true, if_false, if_true]
  simp only [hok, if_true, hflips, hwrap, hinit, hphase, setBits_phase hini ph, Bool.and_eq_true, beq_iff_eq]

/-- Settles O18: each atomic code is its operation on words, and an update of a barrier object is one of the three of R187. -/
theorem atomicWords : Obligations.AtomicWords := by
  refine ⟨fun m b c => ?_, fun pa pb ini ph arrive add hpa hini hpb hlow hhigh => ?_⟩
  · obtain ⟨hminI, hmaxI⟩ := amoNew_signed m b c
    obtain ⟨hminN, hmaxN⟩ := amoNew_natural m b c
    exact ⟨congrArg some (BitVec.toNat_add m b).symm, hminI, hminN, hmaxI, hmaxN, congrArg some (BitVec.toNat_and m b).symm,
      congrArg some (BitVec.toNat_or m b).symm, congrArg some (BitVec.toNat_xor m b).symm, rfl, amoNew_compare m b c⟩
  · intro w0 w1 pa' pb'
    have hsum : (pb : Int) + add = pb' := (Int.toNat_of_nonneg hlow).symm
    have hupd := barApply_clear ph arrive hpa hini hpb (rfl : _ = pa') hsum (by omega)
    refine ⟨fun ha h0 => hupd.trans (if_pos ⟨ha, h0⟩), fun hgo hne ha hb => ?_, fun hgo hout => ?_⟩ <;>
      rw [hupd, if_neg (by rcases hgo with h | h <;> simp [h])]
    · exact if_pos ⟨hne, ha, hb⟩
    · exact if_neg fun ⟨_, ha, hb⟩ => hout.elim (· ha) (· hb)

end Sys2Proof.Machine
end

section
/-! SUPPORT. Stores, atomics and barrier instructions at issue (R173, R174, R176 to R178, R189 to R192, R230). -/

namespace Sys2Proof.Machine

/-! ## What issue answers -/

/-- An enabled operation whose comparison fails, with nothing that goes before it, traps as TWIN (R115, R174). -/
theorem issue_twin {i : Instr} {op : Op} {s : State} {v : Nat} (h : Enabled i s) (ht : op.trap = none) (hc : op.wchk = none)
    (hz : op.waitSb = false) (hx : op.twin = some v) : issue i op s = trapOut (op.compared s) .twin s.core.iss.slot v .trapTwin := by
  rw [issue_decodes i op s h.1 h.2.1]
  simp [issueOn, h.2.2, ht, hc, hz, hx]

theorem poisS_eq (t : Tile) (n : Nat) : t.poisS n = (decide (n ≠ 0) && t.regs.pois.contains (physS t.spr.rotw n)) := by
  simp [Tile.poisS, bne, Bool.beq_eq_decide_eq]

/-! ## Stores -/

/-- The request of a granted store of a scalar register (R173). -/
def storeReq (s : State) (o : OpSNgdai) (size : Nat) (d : Dest) : Req :=
  { Req.empty .st with
    va := scalarEa s o.a o.i size, size := size, cls := d.cls, tgt := d.tgt, place := d.place,
    data := bits (s.core.sreg o.d).toNat 0 (8 * size), enb := allBytes size, pois := s.core.poisS o.d }

section
variable {i : Instr} {o : OpSNgdai} {size : Nat} {checked : Bool} {s : State} {d : Dest}
  (he : Enabled i s) (hg : Granted s i (scalarEa s o.a o.i size) size (allBytes size) false true d)
include he hg

theorem storeOp_granted (hx : checked = true → storeTwin s (bits (s.core.sreg o.d).toNat 0 (8 * size)) size = none) :
    storeOp i o size checked s = .next (finish (s.eff (.store (storeReq s o size d)))) := by
  simp only [storeOp, hg]
  refine issue_enabled i _ s he rfl rfl ?_ rfl rfl
  cases checked with
  | false => rfl
  | true => exact hx rfl

theorem storeOp_granted_twin {v : Nat} (hx : storeTwin s (bits (s.core.sreg o.d).toNat 0 (8 * size)) size = some v) :
    storeOp i o size true s = trapOut s.adderUsed .twin s.core.iss.slot v .trapTwin := by
  simp only [storeOp, hg]
  exact issue_twin he rfl rfl rfl hx

end

theorem storeTwin_eq (s : State) (v size : Nat) : storeTwin s v size =
    if v ≠ bits s.core.regs.twinS.toNat 0 (8 * size) then some 0 else if Flaw.adder s.self ∈ s.codes.flaws then some 1 else none := by
  simp only [storeTwin, bne_iff_ne, List.contains_iff_mem]

/-- A granted checked store compares its data with the latch first, then the port's two adders (R174). -/
theorem storeOp_granted_checked {i : Instr} {o : OpSNgdai} {size : Nat} {s : State} {d : Dest} (he : Enabled i s)
    (hg : Granted s i (scalarEa s o.a o.i size) size (allBytes size) false true d) :
    storeOp i o size true s =
      if bits (s.core.sreg o.d).toNat 0 (8 * size) ≠ bits s.core.regs.twinS.toNat 0 (8 * size) then
        trapOut s.adderUsed .twin s.core.iss.slot 0 .trapTwin
      else if Flaw.adder s.self ∈ s.codes.flaws then trapOut s.adderUsed .twin s.core.iss.slot 1 .trapTwin
      else .next (finish (s.eff (.store (storeReq s o size d)))) := by
  have hx := storeTwin_eq s (bits (s.core.sreg o.d).toNat 0 (8 * size)) size
  split_ifs at hx ⊢ with hdata hadder
  · exact storeOp_granted_twin he hg hx
  · exact storeOp_granted_twin he hg hx
  · exact storeOp_granted he hg fun _ => hx

theorem bits_low (x w : Nat) : bits x 0 w = x % 2 ^ w := by rw [bits, pow_zero, Nat.div_one]

theorem exec_vst_granted {o : OpVGdai} {s : State} {d : Dest} (he : Enabled (.vst o) s)
    (hg : Granted s (.vst o) (vectorEa s o.a o.i o.h o.e) 128 (allBytes 128) false true d) :
    exec (.vst o) s = .next (finish (s.eff (.store { Req.empty .st with
      va := vectorEa s o.a o.i o.h o.e, size := 128, cls := d.cls, tgt := d.tgt, place := d.place,
      data := (s.core.vreg o.d).toNat, enb := allBytes 128, pois := s.core.poisV o.d }))) := by
  change execVst o s = _
  simp only [execVst, hg]
  exact issue_enabled (.vst o) _ s he rfl rfl rfl rfl rfl

theorem exec_vstM_granted {o : OpVGdaim} {s : State} {d : Dest} (he : Enabled (.vstM o) s)
    (hg : Granted s (.vstM o) (vectorEa s o.a o.i o.h o.e) 128 (maskBytes (s.core.mask o.m)) false true d) :
    exec (.vstM o) s = .next (finish (s.eff (.store { Req.empty .st with
      va := vectorEa s o.a o.i o.h o.e, size := 128, cls := d.cls, tgt := d.tgt, place := d.place,
      data := (s.core.vreg o.d).toNat, enb := maskBytes (s.core.mask o.m), pois := s.core.poisV o.d }))) := by
  change execVstM o s = _
  simp only [execVstM, hg]
  exact issue_enabled (.vstM o) _ s he rfl rfl rfl rfl rfl

/-- Settles O16: a granted store sends its request, a checked one after its comparisons. -/
theorem stores : Obligations.Stores := by
  intro o v m s d req ps pv low a scalar s' checked
  have hreq (size : Nat) : storeReq s o size d = req (a size) size (low (s.core.sreg o.d) size) (2 ^ size - 1) ps := by
    rw [storeReq, scalarEa_eq, bits_low, poisS_eq]
    rfl
  have plain (i : Instr) (size : Nat) (hexec : exec i s = storeOp i o size false s) : scalar i size := by
    intro he hg
    rw [hexec, ← hreq]
    exact storeOp_granted he (by rwa [scalarEa_eq]) nofun
  have guarded (i : Instr) (size : Nat) (hexec : exec i s = storeOp i o size true s) : checked i size := by
    intro he hg
    rw [hexec, ← hreq, storeOp_granted_checked he (by rwa [scalarEa_eq]), bits_low, bits_low]
    rfl
  exact ⟨plain _ 1 rfl, plain _ 2 rfl, plain _ 4 rfl, plain _ 8 rfl, guarded _ 1 rfl, guarded _ 2 rfl, guarded _ 4 rfl, guarded _ 8 rfl,
    exec_vst_granted, exec_vstM_granted⟩

/-! ## Atomics -/

/-- A granted atomic sends its request once an entry is free and its release is done (R176 to R178). -/
theorem amoOp_granted {i : Instr} {o : OpSSdabw} {code size : Nat} {s : State} {d : Dest} (hsize : (if o.w.val = 0 then 4 else 8) = size)
    (he : Enabled i s) (hg : Granted s i (s.core.sreg o.a).toNat size (allBytes size) true true d) (h3 : d.cls ≠ 3) (h4 : d.cls ≠ 4)
    (hfree : (s.core.reqs.filter (fun q => q.kind == .amo)).length < 8)
    (hrel : o.s.val = 0 ∨ releaseWaits s.self s.core o.s = false) :
    amoOp i o code s = .next (finish ((if o.s.val = 0 then s else s.join).eff (.req
      { Req.empty .amo with
        va := (s.core.sreg o.a).toNat, size := size, cls := d.cls, tgt := d.tgt, place := d.place, dst := physS s.core.spr.rotw o.d,
        op := code, sco := o.s, sx := (code == 1 || code == 3) && o.w.val == 0, data := bits (s.core.sreg o.b).toNat 0 (8 * size),
        cmp := bits (s.core.sreg o.d).toNat 0 (8 * size), pois := s.core.poisS o.b || (code == 9 && s.core.poisS o.d) }))) := by
  simp only [amoOp, hsize, hg]
  refine issue_enabled i _ s he (if_neg (not_or.2 ⟨h3, h4⟩)) rfl rfl rfl ?_
  rcases hrel with hrel | hrel <;> simp [hfree, hrel]

/-- Settles O17: each atomic is the shared operation under its code. -/
theorem atomics : Obligations.Atomics := by
  intro o s d t size a pois ends
  have sends (i : Instr) (code : Nat) (sx : Bool) (hsx : (code == 1 || code == 3) = sx) (hexec : exec i s = amoOp i o code s) : ends i code sx := by
    intro he hg h3 h4 hfree hrel
    rw [hexec, amoOp_granted rfl he hg h3 h4 hfree hrel, hsx, poisS_eq, poisS_eq, bits_low, bits_low]
  exact ⟨sends _ 0 _ rfl rfl, sends _ 1 _ rfl rfl, sends _ 2 _ rfl rfl, sends _ 3 _ rfl rfl, sends _ 4 _ rfl rfl, sends _ 5 _ rfl rfl,
    sends _ 6 _ rfl rfl, sends _ 7 _ rfl rfl, sends _ 8 _ rfl rfl, sends _ 9 _ rfl rfl⟩

/-! ## Barrier instructions -/

theorem barUpdOp_sends {i : Instr} {o : OpTNgab} {code : Nat} {own rel : Bool} {s : State} {d : Dest} (he : Enabled i s)
    (hd : barDest s (slotWordOf i) (s.core.sreg o.a).toNat own = .ok d) (hamo : s.core.scopedAmo = false)
    (hrel : (rel && releaseWaits s.self s.core 3) = false) :
    barUpdOp i o code own rel s = .next (finish (s.eff (.req { Req.empty .barUpd with
      va := (s.core.sreg o.a).toNat, size := 16, op := code, data := (s.core.sreg o.b).toNat, place := d.place }))) := by
  simp only [barUpdOp, hd]
  exact issue_enabled i _ s he rfl rfl rfl rfl (by rw [hamo, hrel]; rfl)

theorem exec_barTest {o : OpTNgdab} {s : State} {d : Dest} (he : Enabled (.barTest o) s)
    (hd : barDest s (slotWordOf (.barTest o)) (s.core.sreg o.a).toNat true = .ok d) (hfree : barBlocked s.core d = false)
    (hroom : s.core.loadsFull = false) :
    exec (.barTest o) s = .next (finish (s.eff (.load { Req.empty .barTest with
      va := (s.core.sreg o.a).toNat, size := 16, dst := physS s.core.spr.rotw o.d, pw := (s.core.sreg o.b).toNat % 2, place := d.place }))) := by
  change execBarTest o s = _
  simp only [execBarTest, hd, bits_low]
  exact issue_enabled (.barTest o) _ s he rfl rfl rfl rfl (by rw [hfree, hroom]; rfl)

section
variable {o : OpTNgab} {s : State} {d : Dest} (he : Enabled (.barWait o) s)
  (hd : barDest s (slotWordOf (.barWait o)) (s.core.sreg o.a).toNat true = .ok d) (hfree : barBlocked s.core d = false)
include he hd hfree

/-- BAR.WAIT reads its object before anything else, and traps at the first poisoned byte that it finds (R319, R328). -/
theorem exec_barWait_poisoned {k : Nat} (hp : poisonAt (s.reads d.place 16) d.place 16 = some k) :
    exec (.barWait o) s = trapOut (s.reads d.place 16) .poison s.core.iss.slot ((s.core.sreg o.a).toNat + k) .trapIssue := by
  change execBarWait o s = _
  simp only [execBarWait, hd, hfree, reaches_of_enabled he, Bool.not_false, Bool.and_self, if_true, hp]
  rw [issue_trap (.barWait o) _ _ (enabled_reads he _ _) _ _ rfl, State.reads_core]

/-- Of an object without poison, ERR decides first and PH then (R191, R194). -/
theorem exec_barWait_sound (hp : poisonAt (s.reads d.place 16) d.place 16 = none) :
    exec (.barWait o) s =
      if barErr (s.reads d.place 16) d.place then
        trapOut (s.reads d.place 16) .barrier s.core.iss.slot (barTval (s.reads d.place 16) d.place (s.core.sreg o.a).toNat) .trapIssue
      else if barPh (s.reads d.place 16) d.place = (s.core.sreg o.b).toNat % 2 then stallOut (s.reads d.place 16) (.barWait o) .stall
      else .next (finish ((s.reads d.place 16).onCore Tile.dropL1)) := by
  have he' : Enabled (.barWait o) (s.reads d.place 16) := enabled_reads he _ _
  change execBarWait o s = _
  simp only [execBarWait, hd, hfree, reaches_of_enabled he, Bool.not_false, Bool.and_self, if_true, hp, bits_low, pow_one,
    State.reads_core, Bool.false_eq_true, if_false, Bool.false_or]
  split_ifs with herr hph
  · rw [issue_trap (.barWait o) _ _ he' _ _ rfl, State.reads_core]
  · exact issue_wait (.barWait o) _ _ he' rfl rfl rfl rfl (by simp [hph])
  · exact issue_enabled (.barWait o) _ _ he' rfl rfl rfl rfl (by simp [hph])

end

/-- Settles O33: three instructions send an update, BAR.TEST a request, and BAR.WAIT goes by what it reads. -/
theorem barriers : Obligations.Barriers := by
  intro o r s d t a upd
  refine ⟨fun he hd hamo _ => barUpdOp_sends he hd hamo rfl, fun he hd hamo _ => barUpdOp_sends he hd hamo rfl,
    fun he hd hamo hrel => barUpdOp_sends he hd hamo hrel, fun he hd hfree => ?_, fun he hd hfree hroom => exec_barTest he hd hfree hroom⟩
  intro s'
  cases hp : poisonAt s' d.place 16 with
  | some k => exact exec_barWait_poisoned he hd hfree hp
  | none => exact exec_barWait_sound he hd hfree hp

end Sys2Proof.Machine
end

section
/-! SUPPORT. Float and integer lanes: rounded results, saturation, shifts and choices (R205 to R207, R210, R215). -/

namespace Sys2Proof.Machine

/-! ## What issue answers -/

section
variable {i : Instr} {s : State} {k d w : Nat} {r r' : Nat → Nat}

/-- A vector result of an enabled operation lands in the lanes that the lane guard enables (R205, R206). -/
theorem vecOut_enabled (h : Enabled i s) :
    vecOut i k d w r s = .next (finish (s.landV k d (pairsOf w ((guardOf i).mask s.core)) (ofLanes w r))) :=
  issue_enabled i _ s h rfl rfl rfl rfl rfl

/-- A vector result in which each lane's value is written another way. -/
theorem vecOut_enabled_congr (h : Enabled i s) (hr : ∀ j, r j = r' j) :
    vecOut i k d w r s = .next (finish (s.landV k d (pairsOf w ((guardOf i).mask s.core)) (ofLanes w r'))) := by
  rw [vecOut_enabled h, funext hr]

/-- A float result of an enabled operation is rounded once, lane by lane, under the FMT of its bundle (R205, R207). -/
theorem floatOut_enabled {f : Nat} {v : Nat → FVal} (h : Enabled i s) :
    floatOut i k d f v s = .next (finish (s.landV k d (pairsOf (fltW f) ((guardOf i).mask s.core))
      (ofLanes (fltW f) (fun j => roundW (fltW f) (rmOf s.core.spr.fmt) (satOf s.core.spr.fmt) (v j))))) :=
  vecOut_enabled h

end

/-! ## Float lanes -/

/-- Settles O20: each operation is a float result; they differ in the exact function of their lanes and in its latency. -/
theorem vectorFloat : Obligations.VectorFloat := by
  refine ⟨fun o p s => ?_, fun p s => ?_⟩
  · and_intros <;> exact floatOut_enabled
  · and_intros <;> exact floatOut_enabled

/-! ## Integer lanes -/

theorem lane_lt (v : VWord) (i w : Nat) : lane v i w < 2 ^ w := bits_lt _ _ _

/-- The comparison behind the integer choices, of lanes in range: as naturals or as signed integers (R93, R210). -/
theorem iCond_lt (natural : Bool) {w a b : Nat} (ha : a < 2 ^ w) (hb : b < 2 ^ w) :
    iCond 2 natural w a b = if natural then decide (a < b) else decide (sext a w < sext b w) := by
  cases natural
  · rfl
  · simp only [iCond, if_true, Nat.mod_eq_of_lt ha, Nat.mod_eq_of_lt hb, Nat.cast_lt]

/-- Settles O22: each operation is a vector result with the lane function of R210; a choice goes by a comparison of lanes in range. -/
theorem vectorInteger : Obligations.VectorInteger := by
  intro o p s w a b u c e less lands sat
  have hless (x y : VWord) (j : Nat) : iCond 2 (decide (4 ≤ p.f.val)) u (lane x j u) (lane y j u) = less (lane x j u) (lane y j u) := by
    rw [iCond_lt _ (lane_lt x j u) (lane_lt y j u)]
    simp only [decide_eq_true_eq, less]
  refine ⟨vecOut_enabled, vecOut_enabled, vecOut_enabled, vecOut_enabled, vecOut_enabled, vecOut_enabled, vecOut_enabled, vecOut_enabled,
    vecOut_enabled, fun h => vecOut_enabled_congr h fun j => ?_, fun h => vecOut_enabled_congr h fun j => ?_⟩
  all_goals exact if_congr (Bool.eq_iff_iff.1 (hless _ _ j)) rfl rfl

end Sys2Proof.Machine
end

section
/-! SUPPORT. Comparisons, selection, moves, copies and permutes of vectors (R208, R209, R217 to R219, R232, R233). -/

namespace Sys2Proof.Machine

/-! ## Comparisons, selection and moves -/

/-- The lane results of an enabled comparison land in the mask bits of its enabled lanes (R208). -/
theorem maskOut_enabled {i : Instr} {d w : Nat} {c : Nat → Bool} {s : State} (h : Enabled i s) :
    maskOut i d w c s = .next (finish (s.landM 2 d (maskEnable w ((guardOf i).mask s.core)) (maskValue w c))) :=
  issue_enabled i _ s h rfl rfl rfl rfl rfl

/-- The immediate of VLI: 21 bits with a header, else 13 (R93, R232). -/
theorem vliImm_eq (v : OpVGdwi) :
    vliImm v = if v.h.val = 1 then (BitVec.ofNat 21 (8192 * v.e.val + v.i.val)).toInt else (BitVec.ofNat 13 v.i).toInt := by
  rw [vliImm, sext_small _ 21 (by norm_num), sext_small _ 13 (by norm_num), Nat.mul_comm]

/-- The mask bits that XM2Q looks at: one for each lane, and 64 for the 128 lanes of a byte each (R20, R233). -/
theorem xm2q_lanes (f : Nat) : (if intW f = 8 then 64 else lanesOf (intW f)) = Nat.min 64 (1024 / intW f) := by
  have hf : f % 4 < 4 := Nat.mod_lt _ (by norm_num)
  rw [lanesOf, intW]
  interval_cases f % 4 <;> rfl

/-- XM2Q lands whether any mask bit within the lane count is set (R233). -/
theorem exec_xm2q {p : OpVGdaf2} {s : State} (h : Enabled (.xm2q p) s) : exec (.xm2q p) s = .next (finish (s.landQ 2 p.d
    (decide ((s.core.mask p.a).toNat % 2 ^ (Nat.min 64 (1024 / intW p.f)) ≠ 0)))) := by
  rw [← xm2q_lanes, ← bits_low, decide_not, ← beq_eq_decide]
  exact issue_enabled _ _ s h rfl rfl rfl rfl rfl

/-- Settles O23: comparisons are mask results, selection and fills are vector results, and XM2Q looks at the mask bits of the lane count. -/
theorem vectorSelect : Obligations.VectorSelect := by
  intro o l p v s mask
  refine ⟨maskOut_enabled, maskOut_enabled, fun h => vecOut_enabled_congr h fun j => ?_, fun h => issue_enabled _ _ s h rfl rfl rfl rfl rfl,
    fun h => vecOut_enabled_congr h fun _ => congrArg (wrap _) (vliImm_eq v), vecOut_enabled, exec_xm2q⟩
  exact (apply_ite (fun n => lane (s.core.vreg n) j (selW (extMod l.e))) _ _ _).symm

/-! ## Permutes -/

/-- Settles O24: each permute is a vector result that picks its lanes as stated, and VTRN lands its octet as it stands. -/
theorem vectorPermutes : Obligations.VectorPermutes := by
  intro o u t s w n a b p x c by' lands
  exact ⟨vecOut_enabled, vecOut_enabled, vecOut_enabled, vecOut_enabled, vecOut_enabled, fun h => issue_enabled _ _ s h rfl rfl rfl rfl rfl⟩

end Sys2Proof.Machine
end

section
/-! SUPPORT. Conversions, packed formats, pulse preparation, and the random bits that they take (R211 to R214, R226, R227). -/

namespace Sys2Proof.Machine

/-! ## Random bits -/

/-- An operation that finds what random bits it takes in the queue runs (R45, R291). -/
theorem issue_draws {i : Instr} {op : Op} {s : State} (sr : Bool) (h : Enabled i s) (hbits : sr = true → 0 < s.core.rng.count)
    (ht : op.trap = if sr then rngTrap s.core i else none) (hq : op.wait = (sr && s.core.rng.count == 0)) (hc : op.wchk = none)
    (hx : op.twin = none) (hz : op.waitSb = false) : issue i op s = .next (finish (op.run s)) := by
  cases sr
  · exact issue_enabled i op s h ht hc hx hz hq
  · have hpos : s.core.rng.count ≠ 0 := (hbits rfl).ne'
    exact issue_enabled i op s h (ht.trans ((if_pos rfl).trans (if_neg fun ⟨h0, _⟩ => hpos h0))) hc hx hz (hq.trans (beq_eq_false_iff_ne.2 hpos))

/-- An operation that takes random bits traps where the queue is empty and the generator stands still (R291). -/
theorem issue_drained {i : Instr} {op : Op} {s : State} (ht : op.trap = rngTrap s.core i) (h : Enabled i s)
    (hcount : s.core.rng.count = 0) (hrun : s.core.rng.run = false) :
    issue i op s = trapOut s .illegal s.core.iss.slot (slotWordOf i) .trapIssue :=
  issue_trap i op s h .illegal _ (ht.trans (if_pos ⟨hcount, hrun⟩))

/-! ## Conversions -/

/-- The signed format codes are 2 to 4 (R211). -/
theorem cvtSigned_eq (c : Nat) : cvtSigned c = decide (2 ≤ c ∧ c ≤ 4) := by
  rw [cvtSigned, Bool.decide_and]
  exact congrArg _ (decide_eq_decide.2 Nat.lt_succ_iff)

theorem cvtSigned_of_integer {c : Nat} (hc : ¬c < 2) : cvtSigned c = decide (c ≤ 4) := by
  rw [cvtSigned_eq, decide_eq_decide, and_iff_right (Nat.le_of_not_lt hc)]

/-- Settles O25: the model's functions of codes and elements are those of the statement, and what random bits an operation takes decides
whether it runs. -/
theorem vectorConversions : Obligations.VectorConversions := by
  intro o r p m q s t rm sat head field wide elem cvt takes
  have hwide : wide = cvtWidth := rfl
  have hfield (n : Nat) : field n = srMode t.rngHead n := rfl
  have helem (mode : Rm) (f d x : Nat) : elem mode f d x = cvtElem mode sat f d x := by
    simp only [elem, hwide, cvtElem, cvtFloat, cvtSigned_eq f, decide_eq_true_eq]
    by_cases hd : d < 2
    · simp only [hd, if_true]
    · simp only [hd, if_false, cvtSigned_of_integer hd, satInt, decide_eq_true_eq]
  have hcvt (a f d k : Nat) (mode : Nat → Rm) : cvt a f d k mode = cvtLanes t a f d k mode := by
    simp only [cvt, helem]
    rfl
  refine ⟨fun h => ?_, fun h hbits => ?_, issue_drained rfl, fun h => ?_, ⟨fun h hbits => ?_, fun hsr => issue_drained (if_pos hsr)⟩,
    ⟨fun h hbits => ?_, fun hsr => issue_drained (if_pos (beq_iff_eq.2 hsr))⟩, fun h => ?_⟩
  · -- VCVT
    have hmode : (fun _ : Nat => if o.f.val = 1 then Rm.rne else if o.f.val = 2 then .rtz else rm) =
        fun _ => match o.f.val with | 1 => .rne | 2 => .rtz | _ => rm := by
      rcases o.f.val with - | - | - | n <;> rfl
    simp only [hcvt, hmode]
    exact issue_enabled _ _ s h rfl rfl rfl rfl rfl
  · -- VCVT.SR
    rw [hcvt, hfield]
    exact issue_draws true h (fun _ => hbits) rfl rfl rfl rfl rfl
  · -- VUNPK.MX
    refine (issue_enabled _ _ s h rfl rfl rfl rfl rfl).trans ?_
    simp only [decide_eq_true_eq]
    rfl
  · -- VPACK.MX
    have hscale (j : Nat) : (if (extMod m.e % 2 == 1) = true then some (lane (s.core.vreg m.b) (126 + j) 8) else none) =
        if extMod m.e % 2 = 1 then some (lane (s.core.vreg m.b) (126 + j) 8) else none := if_congr beq_iff_eq rfl rfl
    refine (issue_draws _ h hbits rfl rfl rfl rfl rfl).trans ?_
    by_cases hf : 4 ≤ m.f.val
    · simp only [hf, decide_true, if_true, hscale, OfNat.one_ne_ofNat, if_false, Nat.reduceMul]
      rfl
    · simp only [hf, decide_false, Bool.false_eq_true, if_false, hscale, if_true, Nat.reduceMul]
      rfl
  · -- VPPROB
    refine (issue_draws _ h (fun hsr => hbits (beq_iff_eq.1 hsr)) rfl rfl rfl rfl rfl).trans ?_
    by_cases hsr : extMod q.e = 0
    · simp only [hsr, beq_self_eq_true, if_true]
      rfl
    · simp only [hsr, beq_false_of_ne hsr, Bool.false_eq_true, if_false]
      rfl
  · -- VQ8
    rw [show enPart (if m.f.val = 0 then 512 else 256) _ = _ from apply_ite (enPart · (extMod m.e)) _ _ _]
    exact issue_enabled _ _ s h rfl rfl rfl rfl rfl

end Sys2Proof.Machine
end

section
/-! SUPPORT. The statistics buffer (R220 to R223; logs 22, 54 and 70). -/

namespace Sys2Proof.Machine

/-- An entry within the buffer, a block on its boundary and at supervisor level: nothing stands against the operation (R220, R221). -/
theorem statTrap_none {i : Instr} {t : Tile} {b : Nat} {blk : Bool} (he : statEntry t b < 4096)
    (hblk : blk = true → statEntry t b % 8 = 0 ∧ t.sup = true) : statTrap i t b blk = none := by
  have hb : ¬4096 ≤ statEntry t b := Nat.not_le.2 he
  cases blk
  · simp [statTrap, hb]
  · obtain ⟨h8, hsup⟩ := hblk rfl
    simp [statTrap, hb, h8, hsup]

/-- An entry beyond the buffer is ILLEGAL before anything else (R220; log 54). -/
theorem statTrap_beyond {i : Instr} {t : Tile} {b : Nat} {blk : Bool} (he : 4096 ≤ statEntry t b) :
    statTrap i t b blk = some (.illegal, slotWordOf i) := if_pos (.inl he)

/-- Bits 0 to 30 of an entry are its count without the sign (R222). -/
theorem bits_count (x : Nat) : bits x 0 31 = bits x 0 32 % 2 ^ 31 := by
  rw [bits_low, bits_low]
  exact (Nat.mod_mod_of_dvd x (by norm_num)).symm

/-- Settles O26: an entry beyond the buffer traps, and else the operation runs; the updates of R222 and the results of R223 are the model's,
with the count's sign put aside as a remainder. -/
theorem statistics : Obligations.Statistics := by
  intro o r m n s t fmt e old code rf w en words u lanes tree sum w0 w1 w2 moments logSum fits beyond
  have hfit {i : Instr} {k : Fin 64} {blk : Bool} {run : State → State} (h : Enabled i s) : fits k blk →
      issue i { trap := statTrap i t k blk, run := run } s = .next (finish (run s)) :=
    fun ⟨hin, hblk⟩ => issue_enabled i _ s h (statTrap_none hin hblk) rfl rfl rfl rfl
  have hbeyond {i : Instr} {op : Op} {k : Fin 64} {blk : Bool} (ht : op.trap = statTrap i t k blk) (h : Enabled i s) (hk : 4096 ≤ e k) :
      issue i op s = trapOut s .illegal t.iss.slot (slotWordOf i) .trapIssue :=
    issue_trap i op s h .illegal _ (ht.trans (statTrap_beyond hk))
  refine ⟨fun h hf => (hfit h hf).trans ?_, fun h hf => (hfit h hf).trans ?_, fun h hf => (hfit h hf).trans ?_, fun h hf => (hfit h hf).trans ?_,
    fun h hf => hfit h hf, hbeyond rfl, hbeyond rfl, hbeyond rfl, hbeyond rfl, hbeyond rfl⟩
  · -- VSTAT.W
    simp only [beq_iff_eq]
    rfl
  · -- VSTAT.R
    simp only [Bool.or_eq_true, beq_iff_eq]
    rfl
  · -- VMOM
    have hnew : (if extMod m.e = 0 then momentsNew fmt u (t.stat (e m.b)) lanes else logSumNew fmt u (t.stat (e m.b)) lanes) =
        if extMod m.e = 0 then moments else logSum := rfl
    refine congrArg (fun s => Host.Outcome.next (finish s)) (if_congr Iff.rfl rfl (State.onCore_congr ?_))
    exact congrArg (t.setStat (e m.b)) hnew
  · -- VNORM
    simp only [bits_count]
    rfl

end Sys2Proof.Machine
end

section
/-! SUPPORT. The push of a facet command and its notes in checking mode (R237, R238, R409). -/

namespace Sys2Proof.Machine

/-- A facet command with nothing against it is pushed. -/
theorem facetOpOf_enabled {i : Instr} {u : FacetUse} {s : State} (op k et a b : Nat) (h : Enabled i s) (ht : facetTrap s i u = none)
    (hw : facetWaits s.core u.f = false) : facetOpOf i u op k et a b s = .next (finish (s.onCore (fun t => t.pushFacet u op k et a b))) :=
  issue_enabled i _ s h ht rfl rfl rfl hw

/-- A commit without effects leaves the notes of checking mode alone. -/
theorem finish_notes {s : State} (hl : s.core.iss.last = true) (he : s.core.iss.effs = []) : (finish s).core.notes = s.core.notes :=
  congrArg (·.core.notes) (finish_landings_eq hl he)

/-- In checking mode a push adds one note for each range of bytes of its operands (R409). -/
theorem pushFacet_notes {t : Tile} (u : FacetUse) (op k et a b : Nat) (h : t.checking = true) :
    (t.pushFacet u op k et a b).notes = t.notes ++ notesOf u.ranges (16 + u.f) t.stamp := if_pos h

/-- A task in checking mode that owns facet 0, which is ready; its scalar registers are 0. -/
def checkedFacet : State :=
  { State.reset with
    hub := { Hub.reset with featacc := Config.featcap },
    core := { Tile.reset.setFacet 0 { Facet.reset with ready := true } with spr := { Spr.reset with wchk := 1, taskid := 2 ^ 32 } } }

/-- XUPD.a of facet 0, both pulse vectors at 0, one slot. -/
def checkedUpdate : OpTNgfab := { n := 0, g := 0, f := 0, a := 0, b := 0, e := 1 }

/-- What that operation uses in the model: two pulse vectors, of each of whose chunks of 128 bytes 72 are read (R237). -/
def pulseUse : FacetUse := { f := 0, rs := [(0, 2048, false), (0, 2048, false)], pulse := true }

/-- Once that bundle has committed, there are as many notes as its use has ranges. -/
theorem checkedFacet_notes (u : FacetUse) :
    (finish (checkedFacet.onCore (fun t => t.pushFacet u 3 0 1 0 0))).core.notes.length = u.ranges.length := by
  rw [finish_notes rfl rfl, State.onCore_core, pushFacet_notes u 3 0 1 0 0 (by decide)]
  exact List.length_map _

/-- Refutes O28: in checking mode the update notes 72 bytes of each chunk of its two pulse vectors, 32 ranges (R237, R409); the statement's
use of XUPD does not mark its operands as pulse vectors, so that it notes two ranges, of 2,048 bytes each. -/
theorem not_facetPushes : ¬Obligations.FacetPushes := by
  intro h
  obtain ⟨_, _, hupdate, _⟩ := h ⟨0, 0, 0, 0, 0, 0, 0⟩ checkedUpdate ⟨0, 0, 0, 0, 0⟩ ⟨0, 0, 0, 0⟩ ⟨0, 0, 0, 0, 0⟩ checkedFacet
  have henabled : Enabled (.xupdA checkedUpdate) checkedFacet := by decide
  have hplain := hupdate henabled (by decide) (by decide)
  have hpulse : exec (.xupdA checkedUpdate) checkedFacet = _ :=
    facetOpOf_enabled (u := pulseUse) 3 0 1 0 0 henabled (by decide) (by decide)
  have heq := Host.Outcome.next.inj (hpulse.symm.trans hplain)
  have hlen := (checkedFacet_notes _).symm.trans ((congrArg (·.core.notes.length) heq).trans (checkedFacet_notes _))
  exact absurd hlen (by decide)

end Sys2Proof.Machine
end

section
/-! SUPPORT. The checks of a facet instruction and its reads (R236, R240, R249 to R251). -/

namespace Sys2Proof.Machine

/-- An operand that a facet instruction refuses is ILLEGAL before anything else (R236). -/
theorem facetTrap_bad {s : State} (i : Instr) {u : FacetUse} (hb : u.bad = true) : facetTrap s i u = some (.illegal, slotWordOf i) := if_pos hb

section
variable {s : State} (i : Instr) {u : FacetUse} (hb : u.bad = false)
include hb

/-- A facet that the task does not own (R236). -/
theorem facetTrap_unowned (ho : bit s.core.spr.taskid.toNat (32 + u.f) = false) : facetTrap s i u = some (.facet, u.f) := by
  simp [facetTrap, hb, ho]

variable (ho : bit s.core.spr.taskid.toNat (32 + u.f) = true)
include ho

/-- A facet that is not ready, where the instruction wants it ready (R236). -/
theorem facetTrap_unready (hr : u.ready = true) (hy : (s.core.facet u.f).ready = false) : facetTrap s i u = some (.facet, u.f + 256) := by
  simp [facetTrap, hb, ho, hr, hy]

/-- A facet in error, where the instruction wants none (R236, R240). -/
theorem facetTrap_error (hr : u.ready = false ∨ (s.core.facet u.f).ready = true) (hn : u.noErr = true) (hy : (s.core.facet u.f).err = true) :
    facetTrap s i u = some (.facet, u.f + 512) := by
  have hready : (u.ready && !(s.core.facet u.f).ready) = false := by
    rcases hr with hr | hr <;> simp [hr]
  simp [facetTrap, hb, ho, hready, hn, hy]

end

/-- A facet command that returns a value is pushed and its destination is pending (R238). -/
theorem facetGet_enabled {i : Instr} {u : FacetUse} {s : State} (op k dst : Nat) (h : Enabled i s) (ht : facetTrap s i u = none)
    (hw : facetWaits s.core u.f = false) :
    facetGet i u op k dst s = .next (finish ((s.onCore (fun t => t.pushFacet u op k 0 0 0)).eff (.req
      { Req.empty .xget with op := op, dst := dst, sco := u.f, seq := s.core.stamp }))) :=
  issue_enabled i _ s h ht rfl rfl rfl hw

/-- XWAIT of an idle facet without an error has no effect (R251). -/
theorem execXwait_idle {o : OpTNgf} {s : State} (h : Enabled (.xwait o) s) (hb : (s.core.facet o.f).busy = false)
    (ht : facetTrap s (.xwait o) { f := o.f } = none) : execXwait o s = .next (finish s) :=
  issue_enabled _ _ s h ((if_neg (ne_true_of_eq_false hb)).trans ht) rfl rfl rfl hb

/-- XWAIT waits while the facet is busy, in error or not (R251; log 57). -/
theorem execXwait_busy {o : OpTNgf} {s : State} (h : Enabled (.xwait o) s) (hb : (s.core.facet o.f).busy = true)
    (ht : facetTrap s (.xwait o) { f := o.f, noErr := false } = none) : execXwait o s = stallOut s (.xwait o) .stall :=
  issue_wait _ _ s h ((if_pos hb).trans ht) rfl rfl rfl hb

/-- Settles O29: the reads push or deliver where nothing stands against them, and the checks come in the order of facetTrap. -/
theorem facetReads_holds : Obligations.FacetReads := by
  refine ⟨fun o p w s => ⟨?_, ?_, ?_, ?_, ?_⟩, fun s i x => ⟨?_, ?_, ?_, ?_⟩⟩
  · exact facetGet_enabled _ _ _
  · exact facetGet_enabled _ _ _
  · exact fun h ht => issue_enabled _ _ s h ht rfl rfl rfl rfl
  · exact execXwait_idle
  · exact execXwait_busy
  · exact facetTrap_bad i
  · exact facetTrap_unowned i
  · exact facetTrap_unready i
  · exact facetTrap_error i

end Sys2Proof.Machine
end

section
/-! SUPPORT. Sparse tables and rows of cells (R237, R247; log 10). -/

namespace Sys2Proof.Machine

/-! ## Rows -/

/-- The numbers below m n, row by row. -/
theorem range_mul (m n : Nat) : List.range (m * n) = (List.range m).flatMap (fun i => (List.range n).map (n * i + ·)) := by
  induction m with
  | zero => simp
  | succ m ih => rw [Nat.succ_mul, List.range_add, ih, List.range_succ, List.flatMap_append, List.flatMap_singleton, Nat.mul_comm m n]

theorem row_div {n j : Nat} (i : Nat) (hj : j < n) : (n * i + j) / n = i := by
  rw [Nat.mul_add_div (by omega), Nat.div_eq_of_lt hj, Nat.add_zero]

theorem row_mod {n j : Nat} (i : Nat) (hj : j < n) : (n * i + j) % n = j := by
  rw [Nat.mul_add_mod, Nat.mod_eq_of_lt hj]

/-- Rows of n values each, as one list. -/
theorem flatMap_rows {α : Type} (m n : Nat) (g : Nat → Nat → α) :
    (List.range m).flatMap (fun i => (List.range n).map (g i)) = (List.range (m * n)).map (fun k => g (k / n) (k % n)) := by
  rw [range_mul, List.map_flatMap]
  refine List.flatMap_congr fun i _ => ?_
  rw [List.map_map]
  exact List.map_congr_left fun j hj => by
    have hj := List.mem_range.1 hj
    simp [row_div i hj, row_mod i hj]

theorem sum_map_range (f : Nat → Int) (n : Nat) : ((List.range n).map f).sum = ∑ i ∈ Finset.range n, f i := rfl

/-- The sum over rows of n numbers each. -/
theorem sum_rows (m n : Nat) (g : Nat → Int) : ∑ k ∈ Finset.range (m * n), g k = ∑ i ∈ Finset.range m, ∑ j ∈ Finset.range n, g (n * i + j) := by
  induction m with
  | zero => simp
  | succ m ih => rw [Nat.succ_mul, Finset.sum_range_add, ih, Finset.sum_range_succ, Nat.mul_comm m n]

/-! ## Tables -/

/-- A table of the values of f, those at their default left out, read at a key. -/
theorem mget_filterMap {α : Type} [DecidableEq α] (d : α) (f : Nat → α) (l : List Nat) (k : Nat) :
    mget d (l.filterMap (fun i => if f i = d then none else some (i, f i))) k = if k ∈ l then f k else d := by
  induction l with
  | nil => rfl
  | cons i l ih =>
    by_cases hk : k = i
    · subst hk
      by_cases hd : f k = d <;> simp [mget, hd, ih]
    · have hne : i ≠ k := Ne.symm hk
      by_cases hd : f i = d <;> simp [mget, hd, ih, hk, hne]

theorem sparse_filterMap (l : List Int) (k : Nat) :
    sparse l k = (List.range l.length).filterMap (fun i => if l.getD i 0 = 0 then none else some (k + i, l.getD i 0)) := by
  induction l generalizing k with
  | nil => rfl
  | cons v l ih =>
    rw [sparse, ih, List.length_cons, List.range_succ_eq_map, List.filterMap_cons, List.filterMap_map]
    simp only [List.getD_cons_zero, Function.comp_def, List.getD_cons_succ, Nat.add_zero, Nat.succ_eq_add_one, Nat.add_comm, Nat.add_left_comm]
    split <;> rfl

/-- The sparse table of a list is that of its entries. -/
theorem sparse_eq_tableOf (l : List Int) : sparse l 0 = tableOf l.length (fun k => l.getD k 0) := by
  simp only [sparse_filterMap, Nat.zero_add]
  rfl

theorem tableOf_congr {n : Nat} {f g : Nat → Int} (h : ∀ k < n, f k = g k) : tableOf n f = tableOf n g :=
  List.filterMap_congr fun k hk => by simp only [h k (List.mem_range.1 hk)]

theorem sparse_map_range (n : Nat) (f : Nat → Int) : sparse ((List.range n).map f) 0 = tableOf n f := by
  rw [sparse_eq_tableOf, List.length_map, List.length_range]
  exact tableOf_congr fun k hk => getD_map_range f 0 hk

/-- A list's entry, read from its sparse table. -/
theorem mget_sparse (l : List Int) (k : Nat) : mget 0 (sparse l 0) k = l.getD k 0 := by
  rw [sparse_eq_tableOf]
  refine (mget_filterMap 0 (fun k => l.getD k 0) _ k).trans ?_
  split
  · rfl
  · next h => simp [List.mem_range.not.1 h]

/-- The entries whose keys are kept. -/
theorem filter_tableOf (n : Nat) (f : Nat → Int) (keep : Nat → Bool) :
    (tableOf n f).filter (fun p => keep p.1) = tableOf n (fun k => if keep k then f k else 0) := by
  rw [tableOf, tableOf, List.filter_filterMap]
  refine List.filterMap_congr fun k _ => ?_
  by_cases hf : f k = 0 <;> by_cases hk : keep k = true <;> simp [hf, hk]

/-- A sum over the entries of a sparse table, where an entry 0 adds nothing. -/
theorem foldl_sparse (F : Nat → Int → Int) (hF : ∀ k, F k 0 = 0) (l : List Int) (a : Int) :
    (sparse l 0).foldl (fun acc p => acc + F p.1 p.2) a = a + ((List.range l.length).map (fun k => F k (l.getD k 0))).sum := by
  rw [sparse_eq_tableOf, tableOf]
  induction List.range l.length generalizing a with
  | nil => simp
  | cons k ks ih =>
    rw [List.filterMap_cons, List.map_cons, List.sum_cons, ← add_assoc]
    by_cases h : l.getD k 0 = 0
    · simp only [h, if_true, hF, ih, add_zero]
    · simp only [h, if_false, List.foldl_cons, ih]

theorem dense_later {m : List (Nat × Int)} {k : Nat} (n : Nat) (h : ∀ p ∈ m, k < p.1) : dense m k (n + 1) = 0 :: dense m (k + 1) n := by
  cases m with
  | nil => cases n <;> simp [dense]
  | cons p m => simp [dense, (h p (by simp)).ne']

theorem sparse_keys {l : List Int} {k : Nat} : ∀ p ∈ sparse l k, k ≤ p.1 := by
  intro p hp
  rw [sparse_filterMap, List.mem_filterMap] at hp
  obtain ⟨i, -, hi⟩ := hp
  split at hi
  · cases hi
  · cases hi
    exact Nat.le_add_right k i

/-- A list comes back from its sparse table. -/
theorem dense_sparse (l : List Int) (k : Nat) : dense (sparse l k) k l.length = l := by
  induction l generalizing k with
  | nil => rfl
  | cons v l ih =>
    rw [sparse]
    split
    · next hv => rw [List.length_cons, dense_later _ fun p hp => sparse_keys p hp, ih, hv]
    · simp [dense, ih]

theorem dense_tableOf (n : Nat) (f : Nat → Int) : dense (tableOf n f) 0 n = (List.range n).map f := by
  have h := dense_sparse ((List.range n).map f) 0
  rwa [sparse_map_range, List.length_map, List.length_range] at h

end Sys2Proof.Machine
end

section
/-! SUPPORT. Pulse trains, their coincidences and what an update moves (R252 to R256; log 10). -/

namespace Sys2Proof.Machine

/-! ## Trains -/

/-- A slot of a line's pulse train (R252). -/
theorem bit_fireMask (key pctr h n p : Nat) {bl k : Nat} (hk : k < bl) : bit (fireMask key pctr bl h n p) k = fires key pctr k h n p := by
  unfold fireMask
  split
  · next hp => rw [fires, hp, decide_eq_false (Nat.not_lt_zero _), bit_eq_testBit, Nat.zero_testBit]
  · exact bit_packFields _ hk

theorem fireMask_lt (key pctr bl h n p : Nat) : fireMask key pctr bl h n p < 2 ^ bl := by
  unfold fireMask
  split
  · exact Nat.two_pow_pos bl
  · exact (packFields_lt 1 _ bl).trans_eq (by rw [one_mul])

/-! ## Coincidences -/

/-- The signed count of a row and a column line under a polarity: their common slots (R253). -/
def lineCount (pol : Bool) (row col : Nat × Bool) : Int :=
  let n := popc 64 (row.1 &&& col.1)
  if (row.2 != col.2) != pol then -(n : Int) else n

theorem lineCount_eq_zero {pol : Bool} {row col : Nat × Bool} : lineCount pol row col = 0 ↔ popc 64 (row.1 &&& col.1) = 0 := by
  simp only [lineCount]
  generalize popc 64 _ = n
  split <;> simp

theorem lineCount_zero_left (pol : Bool) {row : Nat × Bool} (col : Nat × Bool) (h : row.1 = 0) : lineCount pol row col = 0 := by
  rw [lineCount_eq_zero, h, Nat.zero_and]
  rfl

theorem lineCount_zero_right (pol : Bool) (row : Nat × Bool) {col : Nat × Bool} (h : col.1 = 0) : lineCount pol row col = 0 := by
  rw [lineCount_eq_zero, h, Nat.and_zero]
  rfl

/-- The lines that fire of those numbered below a limit. -/
def firing (line : Nat → Nat × Bool) (lim : Nat) : Lines :=
  (List.range lim).filterMap (fun n => if (line n).1 = 0 then none else some (n, line n))

/-- The cells (i, j) below a limit with a nonzero count, row by row. -/
def countTable (lim : Nat) (en : Nat → Nat → Int) : List (Nat × Nat × Int) :=
  (List.range lim).flatMap (fun i => (List.range lim).filterMap (fun j => if en i j = 0 then none else some (i, j, en i j)))

/-- The counts of the rows that fire: a row without a pulse has none. -/
theorem counts_firing (pol : Bool) (row : Nat → Nat × Bool) (lim : Nat) (cols : Lines) :
    counts pol (firing row lim) cols = (List.range lim).flatMap (fun i =>
      cols.filterMap (fun c => if lineCount pol (row i) c.2 = 0 then none else some (i, c.1, lineCount pol (row i) c.2))) := by
  unfold counts firing
  induction List.range lim with
  | nil => rfl
  | cons i l ih =>
    rw [List.filterMap_cons, List.flatMap_cons, ← ih]
    by_cases h : (row i).1 = 0
    · have hnone : cols.filterMap (fun c => if lineCount pol (row i) c.2 = 0 then none else some (i, c.1, lineCount pol (row i) c.2)) = [] :=
        List.filterMap_eq_nil_iff.2 fun c _ => if_pos (lineCount_zero_left pol c.2 h)
      simp only [h, if_true, hnone, List.nil_append]
    · simp only [h, if_false, List.map_cons, List.flatten_cons, lineCount_eq_zero]
      rfl

/-- The counts of the lines of both edges. -/
theorem counts_lines (pol : Bool) (row col : Nat → Nat × Bool) (lim : Nat) :
    counts pol (firing row lim) (firing col lim) = countTable lim (fun i j => lineCount pol (row i) (col j)) := by
  rw [counts_firing, countTable]
  refine List.flatMap_congr fun i _ => ?_
  rw [firing, List.filterMap_filterMap]
  refine List.filterMap_congr fun j _ => ?_
  by_cases h : (col j).1 = 0
  · simp [h, lineCount_zero_right pol (row i) h]
  · simp [h]

/-- The row of a table that has one column. -/
theorem filterMap_column (i c : Nat) (e : Int) {l : List Nat} (hl : l.Nodup) :
    l.filterMap (fun j => if (if j = c then e else 0) = 0 then none else some (i, j, if j = c then e else 0)) =
      if c ∈ l ∧ e ≠ 0 then [(i, c, e)] else [] := by
  induction l with
  | nil => simp
  | cons j l ih =>
    obtain ⟨hj, hl⟩ := List.nodup_cons.1 hl
    rw [List.filterMap_cons, ih hl]
    by_cases hc : j = c
    · subst hc
      by_cases he : e = 0 <;> simp [he, hj]
    · have hc' : c ≠ j := Ne.symm hc
      simp [hc, hc']

/-- The counts of one column, of those below the limit (R256). -/
theorem counts_column (pol : Bool) (row : Nat → Nat × Bool) (lim c : Nat) (col : Nat × Bool) :
    (counts pol (firing row lim) [(c, col)]).filter (fun p => decide (p.1 < lim) && decide (p.2.1 < lim)) =
      countTable lim (fun i j => if j = c then lineCount pol (row i) col else 0) := by
  rw [counts_firing, List.filter_flatMap, countTable]
  refine List.flatMap_congr fun i hi => ?_
  rw [filterMap_column i c _ List.nodup_range]
  by_cases he : lineCount pol (row i) col = 0 <;> by_cases hc : c < lim <;> simp [he, hc, List.mem_range.1 hi]

theorem mem_countTable {lim : Nat} {en : Nat → Nat → Int} {p : Nat × Nat × Int} :
    p ∈ countTable lim en ↔ p.1 < lim ∧ p.2.1 < lim ∧ p.2.2 = en p.1 p.2.1 ∧ p.2.2 ≠ 0 := by
  obtain ⟨i, j, e⟩ := p
  simp only [countTable, List.mem_flatMap, List.mem_filterMap, List.mem_range]
  constructor
  · rintro ⟨i', hi, j', hj, h⟩
    split at h
    · cases h
    · next hne =>
      cases h
      exact ⟨hi, hj, rfl, hne⟩
  · rintro ⟨hi, hj, he, hne⟩
    exact ⟨i, hi, j, hj, by rw [if_neg (he ▸ hne)]; exact congrArg (fun e => some (i, j, e)) he.symm⟩

/-! ## Reference cells -/

/-- The counts of the reference block by the numbers of its cells. -/
theorem countTable_keys (en : Nat → Nat → Int) :
    (countTable 64 en).map (fun c => (64 * c.1 + c.2.1, c.2.2)) = tableOf 4096 (fun k => en (k / 64) (k % 64)) := by
  rw [countTable, tableOf, show (4096 : Nat) = 64 * 64 from rfl, range_mul, List.map_flatMap, List.filterMap_flatMap]
  refine List.flatMap_congr fun i _ => ?_
  rw [List.map_filterMap, List.filterMap_map]
  refine List.filterMap_congr fun j hj => ?_
  have hj := List.mem_range.1 hj
  simp only [Function.comp_apply, row_div i hj, row_mod i hj]
  split <;> rfl

/-- A reference cell moves by its count and is saturated (R253). -/
theorem refUpdate_countTable {old : List Int} (h : old.length = 4096) (en : Nat → Nat → Int) :
    refUpdate (sparse old 0) (countTable 64 en) =
      sparse ((List.range 4096).map (fun k => max (-128) (min 127 (old.getD k 0 + en (k / 64) (k % 64))))) 0 := by
  have hold : dense (sparse old 0) 0 4096 = (List.range 4096).map (fun k => old.getD k 0) := by
    rw [sparse_eq_tableOf, h, dense_tableOf]
  rw [refUpdate, hold, countTable_keys, dense_tableOf, List.zip_map', List.map_map]
  rfl

/-- An update of a reference array whose counts within the block are en (R253). -/
theorem applyPulses_ref {x : Facet} (hr : x.isRef = true) (t f : Nat) (isC : Bool) {cs : List (Nat × Nat × Int)} {en : Nat → Nat → Int}
    (hcs : cs.filter (fun c => decide (c.1 < 64) && decide (c.2.1 < 64)) = countTable 64 en) (free : Nat) {old : List Int}
    (hl : old.length = 4096) (hold : (if isC then x.rwc else x.rwa) = sparse old 0) :
    let new := sparse ((List.range 4096).map (fun k => max (-128) (min 127 (old.getD k 0 + en (k / 64) (k % 64))))) 0
    (applyPulses t f x isC cs free).1 = if isC then { x with rwc := new } else { x with rwa := new } := by
  intro new
  have hnew : refUpdate (if isC then x.rwc else x.rwa) (countTable 64 en) = new := by rw [hold, refUpdate_countTable hl]
  rw [applyPulses, if_pos hr]
  simp only [hcs, ← hnew]
  cases isC <;> rfl

theorem filter_countTable (en : Nat → Nat → Int) :
    (countTable 64 en).filter (fun c => decide (c.1 < 64) && decide (c.2.1 < 64)) = countTable 64 en :=
  List.filter_eq_self.2 fun c hc => by
    obtain ⟨hi, hj, -⟩ := mem_countTable.1 hc
    simp [hi, hj]

/-! ## Analogue cells -/

/-- What pulses with a signed count may do to a cell: nothing where the count is 0; else a cell within -1 to +1 stays so and moves in the
count's direction or not at all (R254). -/
def Moves (e g g' : Int) : Prop := (e = 0 → g' = g) ∧ (g.natAbs ≤ 2 ^ 40 → g'.natAbs ≤ 2 ^ 40 ∧ (0 < e → g ≤ g') ∧ (e < 0 → g' ≤ g))

theorem Moves.refl (e g : Int) : Moves e g g := ⟨fun _ => rfl, fun h => ⟨h, fun _ => le_rfl, fun _ => le_rfl⟩⟩

theorem Moves.trans {e g g' g'' : Int} (h : Moves e g g') (h' : Moves e g' g'') : Moves e g g'' := by
  refine ⟨fun he => (h'.1 he).trans (h.1 he), fun hg => ?_⟩
  obtain ⟨hg', hup, hdown⟩ := h.2 hg
  obtain ⟨hg'', hup', hdown'⟩ := h'.2 hg'
  exact ⟨hg'', fun he => (hup he).trans (hup' he), fun he => (hdown' he).trans (hdown he)⟩

/-- A step of some size in the count's direction, kept within -1 to +1 (R254). -/
theorem moves_clampG {e d : Int} (g : Int) (he : e ≠ 0) (hd : 0 ≤ d) : Moves e g (clampG (if e < 0 then g - d else g + d)) := by
  refine ⟨fun h => absurd h he, fun hg => ?_⟩
  unfold clampG unity
  split <;> omega

theorem pulseSize_nonneg (free n : Nat) : 0 ≤ pulseSize free n :=
  List.sum_nonneg fun x hx => by
    obtain ⟨i, -, rfl⟩ := List.mem_map.1 hx
    exact Int.natCast_nonneg _

/-- The entry that is first with a key, after one is put in. -/
theorem find?_mset (m : List (Nat × Int)) (i k : Nat) (v : Int) :
    (mset m i v).find? (fun p => p.1 == k) = if i = k then some (i, v) else m.find? (fun p => p.1 == k) := by
  induction m with
  | nil => by_cases h : i = k <;> simp [mset, h]
  | cons p m ih =>
    obtain ⟨j, w⟩ := p
    unfold mset
    grind

/-- The facet with its list of moved cells of array A or C replaced. -/
def Facet.withCells (x : Facet) (isC : Bool) (l : List (Nat × Int)) : Facet := if isC then { x with c := l } else { x with a := l }

/-- A cell after another or the same is set. -/
theorem cellOf_mset (t f : Nat) (x : Facet) (isC : Bool) (l : List (Nat × Int)) {i j i' j' : Nat} (hj : j < 1024) (hj' : j' < 1024) (v : Int) :
    cellOf t f (x.withCells isC (mset l (1024 * i' + j') v)) isC i j =
      if i' = i ∧ j' = j then v else cellOf t f (x.withCells isC l) isC i j := by
  have hkey : 1024 * i' + j' = 1024 * i + j ↔ i' = i ∧ j' = j := by omega
  by_cases h : i' = i ∧ j' = j
  · cases isC <;> simp [cellOf, Facet.withCells, cellA, cellC, find?_mset, h]
  · cases isC <;> simp [cellOf, Facet.withCells, cellA, cellC, find?_mset, hkey, h]

/-- Each cell after the pulses of an update has moved as its count says (R253, R254). -/
theorem pulseCells_moves (t f : Nat) (x : Facet) (isC : Bool) {cs : List (Nat × Nat × Int)} (free : Nat) {i j : Nat} {e : Int} (hj : j < 1024)
    (hcs : ∀ c ∈ cs, c.2.1 < 1024 ∧ c.2.2 ≠ 0 ∧ (c.1 = i → c.2.1 = j → c.2.2 = e)) :
    Moves e (cellOf t f x isC i j) (cellOf t f (x.withCells isC (pulseCells t f x isC cs free).1) isC i j) := by
  have hx : x = x.withCells isC (if isC then x.c else x.a) := by cases isC <;> rfl
  conv => arg 2; rw [hx]
  unfold pulseCells
  generalize (if isC then x.c else x.a) = l
  induction cs generalizing l free with
  | nil => exact Moves.refl _ _
  | cons c cs ih =>
    obtain ⟨hcol, hne, hen⟩ := hcs c (by simp)
    refine Moves.trans ?_ (ih _ (fun c hc => hcs c (by simp [hc])) _)
    rw [cellOf_mset t f x isC l hj hcol]
    split
    · next hcell =>
      obtain ⟨rfl, rfl⟩ := hcell
      cases hen rfl rfl
      exact moves_clampG _ hne (pulseSize_nonneg _ _)
    · exact Moves.refl _ _

end Sys2Proof.Machine
end

section
/-! SUPPORT. Products: exact sums in reference mode, bounded reads and the converter in normal mode (R245 to R248; log 11). -/

namespace Sys2Proof.Machine

/-! ## Reference mode -/

/-- The sum of line o over the reference block (R247). -/
theorem convRef_sparse {l : List Int} (hl : l.length = 4096) (tr : Bool) (x : List Int) {o : Nat} (ho : o < 64) :
    convRef (sparse l 0) tr x o =
      ((List.range 64).map (fun i => x.getD i 0 * l.getD (if tr then 64 * o + i else 64 * i + o) 0)).sum := by
  let term (k : Nat) (v : Int) : Int :=
    if (if tr then k / 64 else k % 64) = o then x.getD (if tr then k % 64 else k / 64) 0 * v else 0
  have hterm (acc : Int) (p : Nat × Int) :
      (if tr then (if p.1 / 64 = o then acc + x.getD (p.1 % 64) 0 * p.2 else acc)
        else (if p.1 % 64 = o then acc + x.getD (p.1 / 64) 0 * p.2 else acc)) = acc + term p.1 p.2 := by
    dsimp only [term]
    cases tr <;> simp only [Bool.false_eq_true, if_true, if_false] <;> split <;> simp
  rw [convRef, if_neg (by omega)]
  simp only [hterm]
  rw [foldl_sparse term (fun k => by simp [term]), zero_add, hl, sum_map_range, sum_map_range,
    show (4096 : Nat) = 64 * 64 from rfl, sum_rows]
  have hcell {i j : Nat} (hj : j ∈ Finset.range 64) : term (64 * i + j) (l.getD (64 * i + j) 0) =
      if (if tr then i else j) = o then x.getD (if tr then j else i) 0 * l.getD (64 * i + j) 0 else 0 := by
    have hj := Finset.mem_range.1 hj
    simp only [term, row_div i hj, row_mod i hj]
  rw [Finset.sum_congr rfl fun i _ => Finset.sum_congr rfl fun j hj => hcell hj]
  have ho := Finset.mem_range.2 ho
  cases tr
  · refine Finset.sum_congr rfl fun i _ => ?_
    simp only [Bool.false_eq_true, if_false, Finset.sum_ite_eq', ho, if_true]
  · rw [Finset.sum_comm]
    refine Finset.sum_congr rfl fun j _ => ?_
    simp only [if_true, Finset.sum_ite_eq', ho]

/-- The line of a product in reference mode from the sums of both arrays; its symmetry term is 0 (R245, R247). -/
theorem Product.line_ref (p : Product) {x : Facet} (hr : x.isRef = true) {o : Nat} (ho : o < 64) {ua uc : Int}
    (ha : convRef x.rwa p.tr p.x o = ua) (hc : convRef x.rwc p.tr p.x o = uc) :
    p.line x o =
      let term (on : Bool) (gain : Nat) (u : Int) : FVal := if on then rn (fmul (fval gain) (ofInt u)) else .fin false 0 0
      let z := rn (fsub (rn (fadd (term (p.sel != 1) (x.cfg 96 32) ua) (term (p.sel != 0) (x.cfg 128 32) uc))) (.fin false 0 0))
      roundBf .rne false (rn (fmul (rn (fmul p.xs (fval (x.cfg 64 32)))) z)) := by
  have hsym (ga : FVal) : p.symTerm x ga o = .fin false 0 0 := if_pos (.inr hr)
  rw [Product.line, if_neg (by omega)]
  simp only [hsym, Product.conv, hr, if_true, ha, hc, bne_iff_ne, ne_eq, ite_not, Bool.false_eq_true, if_false]

theorem Product.line_beyond (p : Product) {x : Facet} (hr : x.isRef = true) {o : Nat} (ho : 64 ≤ o) : p.line x o = 0 := if_pos ⟨hr, ho⟩

/-- What a product leaves in the FOB (R245). -/
theorem mget_fob (p : Product) (x : Facet) {o : Nat} (ho : o < 1024) : mget 0 (p.fob x) o = p.line x o :=
  (mget_filterMap 0 (p.line x) (List.range 1024) o).trans (if_pos (List.mem_range.2 ho))

/-! ## Normal mode -/

theorem errIn_le (b : Nat) (e : Int) : (errIn b e).natAbs ≤ b := by
  have h0 := Int.emod_nonneg (e + b) (by omega : (2 * (b : Int) + 1) ≠ 0)
  have h1 := Int.emod_lt_of_pos (e + b) (by omega : 0 < 2 * (b : Int) + 1)
  rw [errIn]
  omega

/-- RNE gives an integer within one half (R61). -/
theorem rint_rne_near (m : Int) (k : Int) : |(rint .rne (.fin (decide (m < 0)) m.natAbs k) : ℚ) - m * 2 ^ k| ≤ 1 / 2 := by
  obtain ⟨h, -⟩ := roundNat_rne m.natAbs k
  rcases lt_or_ge m 0 with hm | hm
  · have habs : (m.natAbs : ℚ) = -m := by rw [Nat.cast_natAbs, abs_of_neg hm, Int.cast_neg]
    rw [habs] at h
    rw [rint, decide_eq_true hm, if_pos rfl, ← abs_neg]
    convert h using 2
    push_cast
    ring
  · have habs : (m.natAbs : ℚ) = m := by rw [Nat.cast_natAbs, abs_of_nonneg hm]
    rw [habs] at h
    rw [rint, decide_eq_false (not_lt.2 hm), if_neg Bool.false_ne_true]
    exact_mod_cast h

/-- The converter gives a multiple of its step, the nearest to the current with its error, clipped (R246). -/
theorem convAdc_near (v e : Int) (d : Nat) :
    ∃ n : Int, |(n : ℚ) - (v + e) / 2 ^ 40 / (2 ^ d : Int)| ≤ 1 / 2 ∧ convAdc v e d = 2 ^ d * max (-128) (min 127 n) := by
  refine ⟨_, ?_, rfl⟩
  convert rint_rne_near (v + e) (-40 - (d : Int)) using 3
  rw [zpow_sub₀ two_ne_zero, zpow_neg, zpow_natCast]
  push_cast
  rw [div_div, div_eq_mul_inv, mul_inv]
  norm_cast

/-- The ideal line current as a sum over all inputs (R246). -/
theorem lineSum_sparse (t f : Nat) (x : Facet) (isC tr : Bool) (l : List Int) (o : Nat) :
    lineSum t f x isC tr (sparse l 0) o =
      ((List.range l.length).map (fun k => l.getD k 0 * (if tr then cellOf t f x isC o k else cellOf t f x isC k o))).sum := by
  rw [lineSum, foldl_sparse (fun k v => v * if tr then cellOf t f x isC o k else cellOf t f x isC k o) (fun k => Int.zero_mul _), zero_add]

/-- A converted line in normal mode (R246 to R248). -/
theorem Product.conv_near (p : Product) {x : Facet} (hr : x.isRef = false) (isC : Bool) (o : Nat) :
    let v : ℚ := ((List.range p.x.length).map (fun k =>
      p.x.getD k 0 * (if p.tr then cellOf p.t p.f x isC o k else cellOf p.t p.f x isC k o))).sum
    let step : Int := 2 ^ (10 - x.cfg 8 4)
    ∃ e n : Int, e.natAbs ≤ p.err ∧ |(n : ℚ) - (v + e) / 2 ^ 40 / step| ≤ 1 / 2 ∧ p.conv x isC o = step * max (-128) (min 127 n) := by
  intro v step
  have hv : v = (lineSum p.t p.f x isC p.tr (sparse p.x 0) o : Int) := congrArg Int.cast (lineSum_sparse _ _ _ _ _ _ _).symm
  obtain ⟨n, hn, hconv⟩ := convAdc_near (lineSum p.t p.f x isC p.tr (sparse p.x 0) o)
    (errIn p.err (Config.freeInt (p.free + 2 * o + b2n isC))) (10 - x.cfg 8 4)
  refine ⟨_, n, errIn_le _ _, hv ▸ hn, ?_⟩
  rw [Product.conv, hr, if_neg Bool.false_ne_true, hconv]

end Sys2Proof.Machine
end

section
/-! SUPPORT. Columns after a reset (R257; log 10). -/

namespace Sys2Proof.Machine

/-! ## Reference mode -/

/-- A column of the reference array becomes 0; beyond the block nothing changes (R257). -/
theorem resetColumn_ref {x : Facet} (hr : x.isRef = true) (near : Bool) (col e : Nat) {la : List Int} (hl : la.length = 4096)
    (hla : x.rwa = sparse la 0) :
    resetColumn x false near col e = { x with rwa := sparse ((List.range 4096).map (fun k => if k % 64 = col then 0 else la.getD k 0)) 0 } := by
  have hrwa : x.rwa = tableOf 4096 (fun k => la.getD k 0) := by rw [hla, sparse_eq_tableOf, hl]
  rw [resetColumn, if_pos hr, sparse_map_range, if_neg Bool.false_ne_true]
  split
  · next hcol =>
    have hsame : tableOf 4096 (fun k => if k % 64 = col then 0 else la.getD k 0) = x.rwa := by
      rw [hrwa]
      exact tableOf_congr fun k _ => if_neg (by omega)
    rw [hsame]
  · rw [hrwa, filter_tableOf _ _ (fun k => k % 64 != col)]
    simp only [bne_iff_ne, ne_eq, ite_not]

theorem resetColumn_all_ref {x : Facet} (hr : x.isRef = true) (near : Bool) (col e : Nat) : resetColumn x true near col e = { x with rwa := [] } := by
  rw [resetColumn, if_pos hr, if_pos rfl]

/-! ## Normal mode -/

theorem mget_mset_ne {α : Type} (d : α) (m : List (Nat × α)) {i k : Nat} (v : α) (h : i ≠ k) : mget d (mset m i v) k = mget d m k := by
  induction m with
  | nil => simp [mset, mget, h]
  | cons p m ih => grind [mset, mget]

/-- A reset forgets the moved cells of its column and of no other. -/
theorem find?_resetColumn (m : List (Nat × Int)) {j : Nat} (hj : j < 1024) (i col : Nat) :
    (m.filter (fun p => p.1 % 1024 != col)).find? (fun p => p.1 == 1024 * i + j) =
      if j = col then none else m.find? (fun p => p.1 == 1024 * i + j) := by
  have hmod {k : Nat} (hk : k = 1024 * i + j) : k % 1024 = j := by omega
  rw [List.find?_filter]
  split
  · next hcol => exact List.find?_eq_none.2 fun p _ hp => by simp at hp; exact hp.1 ((hmod hp.2).trans hcol)
  · next hcol =>
    refine congrArg (fun q => m.find? q) (funext fun p => ?_)
    rw [Bool.eq_iff_iff, decide_eq_true_eq, bne_iff_ne, beq_iff_eq]
    exact and_iff_right_of_imp fun hp => by rwa [hmod hp]

/-- A reset that can converge, in normal mode (R257). -/
theorem resetColumn_normal {x : Facet} (hr : x.isRef = false) {col : Nat} (hc : x.reachable col = true) (e : Nat) :
    resetColumn x false true col e = { x with
      a := x.a.filter (fun p => p.1 % 1024 != col), cols := mset x.cols col (e, some (x.symG col), false) } := by
  rw [resetColumn, if_neg (ne_true_of_eq_false hr)]
  simp [hc]

/-- A value within 2^-6 of another that a cell can come near enough to (R254, R257). -/
theorem nearG_le {c : Int} (hc : c.natAbs ≤ 1099511627776 + 17179869184) (free : Int) : (nearG c free - c).natAbs ≤ 2 ^ 34 := by
  unfold nearG clampG unity
  omega

/-- At most n of the numbers below m stand in a list of n. -/
theorem countP_mem_le (m : Nat) (l : List Nat) : (List.range m).countP (fun i => decide (i ∈ l)) ≤ l.length := by
  rw [List.countP_eq_length_filter]
  exact ((List.nodup_range.filter _).subperm fun i hi => by simpa using (List.mem_filter.1 hi).2).length_le

section
variable {x : Facet} (hr : x.isRef = false) {col : Nat} (hcol : col < 1024) (hc : x.reachable col = true) (t f e : Nat)
include hr hc

/-- The other columns stay as they were. -/
theorem cellOf_resetColumn_other {i j : Nat} (hj : j < 1024) (hne : j ≠ col) :
    cellOf t f (resetColumn x false true col e) false i j = cellOf t f x false i j := by
  rw [resetColumn_normal hr hc]
  simp only [cellOf, cellA, Bool.false_eq_true, if_false, find?_resetColumn x.a hj, hne, mget_mset_ne _ _ _ (Ne.symm hne)]

include hcol

/-- All but ten cells of the column come within 2^-6 of its symmetry value. -/
theorem cellOf_resetColumn_far :
    (List.range 1024).countP (fun i => decide (2 ^ 34 < (cellOf t f (resetColumn x false true col e) false i col - x.symG col).natAbs)) ≤ 10 := by
  let row (k : Nat) : Nat := (Config.freeCell (cellSrc t f 0 e) (1048576 + 1024 * k + col)).natAbs % 1024
  refine (List.countP_mono_left fun i _ hfar => ?_).trans ((countP_mem_le 1024 ((List.range 10).map row)).trans_eq (by simp))
  by_contra hi
  have hany : (List.range 10).any (fun k => row k == i) = false := by
    simpa [List.any_eq_false] using hi
  have hcell : cellOf t f (resetColumn x false true col e) false i col =
      nearG (x.symG col) (Config.freeCell (cellSrc t f 0 e) (1024 * i + col)) := by
    rw [resetColumn_normal hr hc]
    simp only [cellOf, cellA, Bool.false_eq_true, if_false, find?_resetColumn x.a hcol, if_true, mget_mset_same, Bool.not_false, Bool.true_and]
    rw [if_neg (ne_true_of_eq_false hany)]
  rw [hcell, decide_eq_true_eq] at hfar
  exact absurd hfar (not_lt.2 (nearG_le (of_decide_eq_true hc) _))

end

end Sys2Proof.Machine
end

section
/-! SUPPORT. The command at the head of a facet's queue runs to its end (R238, R245 to R260; log 23). -/

namespace Sys2Proof.Machine

/-! ## The step and its operands -/

theorem facetStep_head {op : Nat} {body : State → Nat → Nat → FCmd → Facet → State} {s : State} {t f : Nat} {c : FCmd} (ht : t < 1024)
    (hf : f < 8) (ha : s.arg 0 = t) (hb : s.arg 1 = f) (hh : facetHead ((s.tile t).facet f) op = some c) :
    facetStep op body s = .next (body s t f c ((s.tile t).facet f)) := by
  rw [facetStep, ha, hb, if_neg (by omega), if_neg (by omega)]
  simp only [hh]

theorem facetReads_arg (s : State) (t : Nat) (l : List (Nat × Nat)) (i : Nat) : (facetReads s t l).arg i = s.arg i := by
  unfold facetReads
  induction l generalizing s with
  | nil => rfl
  | cons p l ih => rw [List.foldl_cons, ih, State.arg, State.arg, State.reads_args]

theorem failing_false {s : State} (h : s.arg 2 = 0) : s.failing = false := by rw [State.failing, h]; rfl

theorem failing_withFree (s : State) (n : Nat) : { s with free := n }.failing = s.failing := rfl

theorem facetRead_clean {s : State} {t a n : Nat} (h : poisonAt s (scratchKey t a) n = none) :
    facetRead s t a n = some (readN s (scratchKey t a) n) := by
  rw [facetRead, h]
  rfl

theorem facetPair_clean {s : State} {t a b : Nat} (h : ∀ p ∈ pulseChunks a ++ pulseChunks b, poisonAt s (scratchKey t p.1) p.2 = none) :
    facetPair s t a b = some (readN s (scratchKey t a) 2048, readN s (scratchKey t b) 2048) :=
  if_neg (by
    rw [Bool.not_eq_true, List.any_eq_false]
    intro p hp
    rw [h p hp]
    exact Bool.false_ne_true)

/-- The reads of a command find no poison (R241). -/
def CleanReads (s : State) (t : Nat) (l : List (Nat × Nat)) : Prop := ∀ p ∈ l, poisonAt (facetReads s t l) (scratchKey t p.1) p.2 = none

/-- A single operand without poison, read. -/
theorem facetRead_reads {s : State} {t a n : Nat} (h : CleanReads s t [(a, n)]) :
    facetRead (facetReads s t [(a, n)]) t a n = some (readN (facetReads s t [(a, n)]) (scratchKey t a) n) :=
  facetRead_clean (h _ (List.mem_singleton_self _))

/-- Two pulse vectors without poison, read. -/
theorem facetPair_reads {s : State} {t a b : Nat} (h : CleanReads s t (pulseChunks a ++ pulseChunks b)) :
    facetPair (facetReads s t (pulseChunks a ++ pulseChunks b)) t a b =
      some (readN (facetReads s t (pulseChunks a ++ pulseChunks b)) (scratchKey t a) 2048,
        readN (facetReads s t (pulseChunks a ++ pulseChunks b)) (scratchKey t b) 2048) := facetPair_clean h

theorem facetReads_failing {s : State} (t : Nat) (l : List (Nat × Nat)) (h : s.arg 2 = 0) : (facetReads s t l).failing = false :=
  failing_false ((facetReads_arg s t l 2).trans h)

/-! ## Commands that read the scratchpad

Each is unfolded as a function, and the state after its reads is a variable: else the kernel, which compares the two sides of an equation
between values, evaluates the read. -/

theorem runProduct_def : @runProduct = delta% @runProduct := by delta runProduct; rfl
theorem runXupd_def : @runXupd = delta% @runXupd := by delta runXupd; rfl
theorem runXupdD_def : @runXupdD = delta% @runXupdD := by delta runXupdD; rfl
theorem runXsymLd_def : @runXsymLd = delta% @runXsymLd := by delta runXsymLd; rfl
theorem runXcfg_def : @runXcfg = delta% @runXcfg := by delta runXcfg; rfl

section
variable {s s' : State} {t f : Nat} {c : FCmd} {x : Facet} {v r q : Nat}

theorem runProduct_reads (tr : Bool) (hs : facetReads s t [(c.a, 1024)] = s') (hv : facetRead s' t c.a 1024 = some v)
    (hfail : s'.failing = false) : runProduct tr s t f c x =
      let l := int8s v 1024
      let p : Product := { t := t, f := f, tr := tr, x := l, sel := readSel x c.k, xs := fvalBf c.b,
                           err := if x.isRef then 0 else readBound l (x.age s'.hub.gtc), free := s'.free }
      facetDone { s' with free := s'.free + 2048 } t f c { x with fob := p.fob x } := by
  rw [runProduct_def]
  beta_reduce
  rw [hs]
  simp only [hv, hfail, Bool.false_eq_true, if_false]

theorem runXupd_reads (hs : facetReads s t (pulseChunks c.a ++ pulseChunks c.b) = s') (hv : facetPair s' t c.a c.b = some (r, q))
    (hfail : s'.failing = false) : runXupd s t f c x =
      let l := updateLines x f (c.et % 64) r q
      let y := applyPulses t f x (c.k == 1) (counts (x.cfg 4 1 == 1) l.1 l.2) (s'.free + 1)
      facetDone { s' with free := y.2 } t f c y.1.count := by
  rw [runXupd_def]
  beta_reduce
  rw [hs]
  simp only [hv, failing_withFree, hfail, Bool.false_eq_true, if_false]

theorem runXupdD_reads (hs : facetReads s t (pulseChunks c.a ++ pulseChunks (bits c.b 0 22)) = s')
    (hv : facetPair s' t c.a (bits c.b 0 22) = some (r, q)) (hfail : s'.failing = false) : runXupdD s t f c x =
      facetDone (writeN s' (scratchKey t (bits c.b 22 22)) 4096
        (ofBytes (x.dryBlock f (c.et % 64) (bits c.b 44 4) (bits c.b 48 4) r q))) t f c x := by
  rw [runXupdD_def]
  beta_reduce
  rw [hs]
  simp only [hv, hfail, Bool.false_eq_true, if_false]

theorem runXsymLd_reads (hs : facetReads s t [(c.a, 2048)] = s') (hv : facetRead s' t c.a 2048 = some v) :
    runXsymLd s t f c x = facetDone s' t f c { x with sym := tableOf 1024 (fun j => sext (bits v (16 * j) 16) 16) } := by
  rw [runXsymLd_def]
  beta_reduce
  rw [hs]
  simp only [hv]

theorem runXcfg_reads (hk : c.k = 0) (hs : facetReads s t [(c.a, 32)] = s') (hv : facetRead s' t c.a 32 = some v) (hgood : fcfgBad v = false) :
    runXcfg s t f c x = facetDone s' t f c { x with fcfg := BitVec.ofNat 256 v } := by
  rw [runXcfg_def]
  simp only [hk, hs, hv, hgood, Bool.false_eq_true, if_false]

theorem runXcfg_readsA (hk : c.k = 2) (hs : facetReads s t [(c.a, 4096)] = s') (hv : facetRead s' t c.a 4096 = some v) :
    runXcfg s t f c x = facetDone s' t f c { x with rwa := sparse (int8s v 4096) 0 } := by
  rw [runXcfg_def]
  simp only [hk, hs, hv]

theorem runXcfg_readsC (hk : c.k = 4) (hs : facetReads s t [(c.a, 4096)] = s') (hv : facetRead s' t c.a 4096 = some v) :
    runXcfg s t f c x = facetDone s' t f c { x with rwc := sparse (int8s v 4096) 0 } := by
  rw [runXcfg_def]
  simp only [hk, hs, hv]

end

/-! ## Other commands -/

section
variable {s : State} {t f : Nat} {c : FCmd} {x : Facet}

/-- The array C of a facet after the pulses of XFER, with the next free number (R256). -/
def xferPulses (s : State) (t f : Nat) (c : FCmd) (x : Facet) : Facet × Nat :=
  applyPulses t f x true (xferCounts t f x (c.a % 1024) (c.et % 64) (readBound [127] (x.age s.hub.gtc)) s.free) (s.free + 1025)

theorem runXfer_plain (h2 : s.arg 2 = 0) (hk : c.k = 0) :
    runXfer s t f c x = facetDone { s with free := (xferPulses s t f c x).2 + 1 } t f c (xferPulses s t f c x).1.count := by
  simp [runXfer, xferPulses, failing_false h2, hk]

theorem runXfer_reset (h2 : s.arg 2 = 0) (hk : c.k = 1) (hr : x.cannotReset false (c.a % 1024) = false) :
    runXfer s t f c x = facetDone { s with free := (xferPulses s t f c x).2 + 1 } t f c
      (resetColumn (xferPulses s t f c x).1.count false true (c.a % 1024) (xferPulses s t f c x).2) := by
  simp [runXfer, xferPulses, failing_false h2, hk, hr, h2]

theorem runXrst_reached (h2 : s.arg 2 = 0) (hr : x.cannotReset (c.k == 1) (c.a % 1024) = false) :
    runXrst s t f c x = facetDone { s with free := s.free + 1 } t f c
      { resetColumn x (c.k == 1) true (c.a % 1024) s.free with err := false, ecode := 0 } := by
  simp [runXrst, failing_false h2, hr, h2]

theorem runXrst_unreached (h2 : s.arg 2 = 0) (hr : x.cannotReset (c.k == 1) (c.a % 1024) = true) :
    runXrst s t f c x = facetFail { s with free := s.free + 1 } t f 3 (resetColumn x (c.k == 1) true (c.a % 1024) s.free) := by
  simp [runXrst, failing_false h2, hr, h2]

theorem runXsymCal_ref (h2 : s.arg 2 = 0) (hr : x.isRef = true) :
    runXsymCal s t f c x = facetDone s t f c { x with sym := [], err := false, ecode := 0 } := by
  simp [runXsymCal, hr, h2]

theorem runXsymCal_normal (h2 : s.arg 2 = 0) (hr : x.isRef = false) :
    runXsymCal s t f c x = facetDone { s with free := s.free + 1 } t f c { x.settle t f s.free s.hub.gtc with err := false, ecode := 0 } := by
  simp [runXsymCal, failing_false h2, hr, h2]

/-- The forms of XCFG that store an image (R259). -/
theorem runXcfg_stores (hk : c.k = 1 ∨ c.k = 3 ∨ c.k = 5) : runXcfg s t f c x =
    let put (n v : Nat) : State := facetDone (writeN s (scratchKey t c.a) n v) t f c x
    if c.k = 1 then put 32 x.fcfg.toNat else put 4096 (blockImage (if c.k = 3 then x.rwa else x.rwc)) := by
  rw [runXcfg_def]
  rcases hk with hk | hk | hk <;> simp [hk]

theorem runXmode_legal (hk : c.k < 2) :
    runXmode s t f c x = facetDone s t f c { x with fcfg := BitVec.ofNat 256 (setBits x.fcfg.toNat 3 1 c.k) } := if_neg (by omega)

/-! ## What the pulses of a command do -/

/-- The signed counts of an update of the facet (R253). -/
def Facet.updateCount (x : Facet) (f bl r q i j : Nat) : Int := lineCount (x.cfg 4 1 == 1) (x.line f bl 0 r i) (x.line f bl 1 q j)

theorem counts_updateLines (x : Facet) (f bl r q : Nat) :
    counts (x.cfg 4 1 == 1) (updateLines x f bl r q).1 (updateLines x f bl r q).2 =
      countTable (if x.isRef then 64 else 1024) (x.updateCount f bl r q) :=
  counts_lines _ (x.line f bl 0 r) (x.line f bl 1 q) _

/-- An entry of the block that XUPD.D stores (R255). -/
theorem dryBlock_getD (x : Facet) (f bl rb cb r q : Nat) {i j : Nat} (hi : i < 64) (hj : j < 64) :
    (x.dryBlock f bl rb cb r q).getD (64 * i + j) 0 = wrap 8 (x.updateCount f bl r q (64 * rb + i) (64 * cb + j)) := by
  have hblock : x.dryBlock f bl rb cb r q =
      (List.range (64 * 64)).map (fun k => wrap 8 (x.updateCount f bl r q (64 * rb + k / 64) (64 * cb + k % 64))) := by
    rw [← flatMap_rows 64 64 (fun i j => wrap 8 (x.updateCount f bl r q (64 * rb + i) (64 * cb + j))), Facet.dryBlock, ← List.flatMap_def]
    refine List.flatMap_congr fun i _ => ?_
    rw [List.map_map]
    rfl
  rw [hblock, getD_map_range _ _ (by omega), row_div i hj, row_mod i hj]

/-- An update in normal mode moves each cell as its count says (R253, R254). -/
theorem applyPulses_update {x : Facet} (hr : x.isRef = false) (t f bl r q : Nat) (isC : Bool) (free : Nat) {i j : Nat} (hj : j < 1024) :
    let l := updateLines x f bl r q
    Moves (x.updateCount f bl r q i j) (cellOf t f x isC i j)
      (cellOf t f (applyPulses t f x isC (counts (x.cfg 4 1 == 1) l.1 l.2) free).1 isC i j) := by
  intro l
  have hy : (applyPulses t f x isC (counts (x.cfg 4 1 == 1) l.1 l.2) free).1 =
      x.withCells isC (pulseCells t f x isC (countTable 1024 (x.updateCount f bl r q)) free).1 := by
    rw [counts_updateLines, hr, applyPulses, if_neg (ne_true_of_eq_false hr)]
    rfl
  rw [hy]
  refine pulseCells_moves t f x isC free hj fun p hp => ?_
  obtain ⟨-, hcol, he, hne⟩ := mem_countTable.1 hp
  exact ⟨hcol, hne, fun h1 h2 => by rw [he, h1, h2]⟩

/-- A row line of XFER: the pulses of its value's code, with the value's sign (R256). -/
def Facet.xferLine (x : Facet) (f bl i : Nat) (a : FVal) : Nat × Bool :=
  (fireMask (x.key f) x.pctr.toNat bl 0 i (xferCode (fval (x.cfg 160 32)) a), signOf a)

/-- The lines of XFER in reference mode: the rows of the block, and the column, which fires in every slot (R256). -/
theorem xferCounts_ref {x : Facet} (hr : x.isRef = true) (t f col bl err free : Nat) :
    xferCounts t f x col bl err free =
      counts (x.cfg 4 1 == 1) (firing (fun i => x.xferLine f bl i (xferValue t f x col err free i)) 64) [(col, 2 ^ bl - 1, false)] := by
  rw [xferCounts, hr]
  rfl

/-- The column line leaves a row line's slots as they are. -/
theorem lineCount_full (pol : Bool) (x : Facet) (f bl i : Nat) (a : FVal) :
    lineCount pol (x.xferLine f bl i a) (2 ^ bl - 1, false) =
      let n := popc 64 (x.xferLine f bl i a).1
      if signOf a != pol then -(n : Int) else n := by
  have hm : (x.xferLine f bl i a).1 < 2 ^ bl := fireMask_lt _ _ _ _ _ _
  simp only [lineCount, Nat.and_two_pow_sub_one_eq_mod, Nat.mod_eq_of_lt hm, Bool.bne_false]
  rfl

/-- The value of a row of XFER in reference mode (R256). -/
theorem xferValue_ref {x : Facet} (hr : x.isRef = true) (t f err free : Nat) {i col : Nat} (hi : i < 64) (hc : col < 64) {la : List Int}
    (ha : x.rwa = sparse la 0) :
    xferValue t f x col err free i = rn (fmul (fval (x.cfg 96 32)) (ofInt (la.getD (64 * i + col) 0))) := by
  rw [xferValue, if_pos hr, if_pos ⟨hi, hc⟩, ha, mget_sparse]

/-- XFER in reference mode moves the cells of its column of C by their rows' counts (R256). -/
theorem applyPulses_xfer_ref {x : Facet} (hr : x.isRef = true) (t f col bl err free : Nat) {la lc : List Int} (hlc : lc.length = 4096)
    (ha : x.rwa = sparse la 0) (hc : x.rwc = sparse lc 0) :
    let a (i : Nat) : FVal := rn (fmul (fval (x.cfg 96 32)) (ofInt (la.getD (64 * i + col) 0)))
    let en (i : Nat) : Int :=
      let n := popc 64 (x.xferLine f bl i (a i)).1
      if signOf (a i) != (x.cfg 4 1 == 1) then -(n : Int) else n
    (applyPulses t f x true (xferCounts t f x col bl err free) (free + 1025)).1 = { x with
      rwc := sparse ((List.range 4096).map (fun k => max (-128) (min 127 (lc.getD k 0 + if k % 64 = col then en (k / 64) else 0)))) 0 } := by
  intro a en
  have hcounts := counts_column (x.cfg 4 1 == 1) (fun i => x.xferLine f bl i (xferValue t f x col err free i)) 64 col (2 ^ bl - 1, false)
  rw [← xferCounts_ref hr] at hcounts
  refine (applyPulses_ref hr t f true hcounts (free + 1025) hlc hc).trans ?_
  rw [if_pos rfl, sparse_map_range, sparse_map_range]
  refine congrArg (fun m => { x with rwc := m }) (tableOf_congr fun k hk => ?_)
  split
  · next hcol => rw [xferValue_ref hr t f err free (by omega) (by omega) ha, lineCount_full]
  · rfl

end

end Sys2Proof.Machine
end

section
/-! SUPPORT. The steps of a facet (R238, R245 to R260, R474, R476). -/

namespace Sys2Proof.Machine

/-- A facet calibrates at start once its die is ready and those of the groups before its own are (R474, R476). -/
theorem exec_facetStartupCalibration {s : State} {t f : Nat} (ht : t < 1024) (hf : f < 8) (ha : s.arg 0 = t) (hb : s.arg 1 = f)
    (h2 : s.arg 2 = 0) (hdie : bit (rdyWord s (tileDie t)) 0 = true) (hr : ((s.tile t).facet f).ready = false)
    (hgroup : facetsReady s (tileDie t) ((8 * (t % 64) + f) / 64 * 64) = true) :
    exec .facetStartupCalibration s = .next
      { s.onTile t (fun y => y.setFacet f (((s.tile t).facet f).calibrated t f s.free s.hub.gtc false)) with free := s.free + 2 } := by
  rw [show exec .facetStartupCalibration s = execFacetStartupCalibration s from rfl, execFacetStartupCalibration, ha, hb, h2,
    if_neg (by omega), if_neg (by omega), if_pos (by rw [hdie, hr, hgroup]; rfl)]
  rfl

/-- Settles O41: each command by the lemma on its run, its arithmetic by the lemmas on products, pulses and columns. -/
theorem facetSteps : Obligations.FacetSteps := by
  intro s t f c ht hf harg0 harg1 x ends done reads read clean store one two dry product pulsed block moved
  have hrun {i : Instr} {op : Nat} {body : State → Nat → Nat → FCmd → Facet → State} {s' : State}
      (hexec : ∀ s, exec i s = facetStep op body s) (hbody : s.arg 2 = 0 → body s t f c x = s') : ends i op s' := fun hhead h2 => by
    rw [hexec, facetStep_head ht hf harg0 harg1 hhead, hbody h2]
  have hread {n : Nat} (hclean : clean (one n)) : facetRead (reads (one n)) t c.a n = some (read (one n) c.a n) := facetRead_reads hclean
  refine ⟨?_, ?_, ?_, ?_, ?_, ?_, ?_, ?_, ?_, ?_, ?_, ?_, ?_, ?_, ?_, ?_, ?_, ?_, ?_, ?_, ?_, ?_, ?_, ?_, ?_, ?_, ?_, ?_, ?_⟩
  · -- XMVM and XMVT
    exact fun hclean => ⟨hrun (fun _ => rfl) fun h2 => runProduct_reads false rfl (hread hclean) (facetReads_failing t _ h2),
      hrun (fun _ => rfl) fun h2 => runProduct_reads true rfl (hread hclean) (facetReads_failing t _ h2)⟩
  · -- XUPD
    exact fun hclean => hrun (fun _ => rfl) fun h2 => runXupd_reads rfl (facetPair_reads hclean) (facetReads_failing t _ h2)
  · -- The block of XUPD.D
    exact fun bl rb cb r q i j hi hj => dryBlock_getD x f bl rb cb r q hi hj
  · -- Pulse trains
    exact fun key pctr bl h n p k hk => bit_fireMask key pctr h n p hk
  · -- Reference products
    intro p la lc o hr hla hlc ha hc ho u term z
    rw [mget_fob p x ho]
    split
    · next hbeyond => exact p.line_beyond hr hbeyond
    · next hin =>
      have ho : o < 64 := not_le.1 hin
      exact p.line_ref hr ho (by rw [ha, convRef_sparse hla p.tr p.x ho]) (by rw [hc, convRef_sparse hlc p.tr p.x ho])
  · -- Converted lines in normal mode
    exact fun p isC o hr => p.conv_near hr isC o
  · -- Updates
    intro bl r q free isC hbl l y en
    refine ⟨fun old hr hl hold => ?_, fun hr i hi j hj => ?_⟩
    · refine applyPulses_ref hr t f isC ?_ free hl hold
      rw [counts_updateLines, hr]
      exact filter_countTable _
    · exact applyPulses_update hr t f bl r q isC free hj
  · -- XFER in reference mode
    exact fun col bl err free la lc hr hbl hla hlc ha hc => applyPulses_xfer_ref hr t f col bl err free hlc ha hc
  · -- XRST in reference mode
    exact fun col e near la hr hl hla => ⟨resetColumn_ref hr near col e hl hla, resetColumn_all_ref hr near col e⟩
  · -- XRST in normal mode
    exact fun col e hr hcol hreach => ⟨cellOf_resetColumn_far hr hcol hreach t f e,
      fun i _ j hj hne => cellOf_resetColumn_other hr hreach t f e hj hne⟩
  · -- XUPD.D
    exact fun hclean => hrun (fun _ => rfl) fun h2 => runXupdD_reads rfl (facetPair_reads hclean) (facetReads_failing t _ h2)
  · -- XFER
    exact fun hk => hrun (fun _ => rfl) fun h2 => runXfer_plain h2 hk
  · -- XFER.r
    exact fun hk hr => hrun (fun _ => rfl) fun h2 => runXfer_reset h2 hk hr
  · -- XRST
    exact fun hr => hrun (fun _ => rfl) fun h2 => runXrst_reached h2 hr
  · -- XRST that cannot converge
    exact fun hr => hrun (fun _ => rfl) fun h2 => runXrst_unreached h2 hr
  · -- XSYM.CAL in reference mode
    exact fun hr => hrun (fun _ => rfl) fun h2 => runXsymCal_ref h2 hr
  · -- XSYM.CAL in normal mode
    exact fun hr => hrun (fun _ => rfl) fun h2 => runXsymCal_normal h2 hr
  · -- XSYM.LD
    exact fun hclean => hrun (fun _ => rfl) fun _ => runXsymLd_reads rfl (hread hclean)
  · -- XSYM.ST
    exact hrun (fun _ => rfl) fun _ => rfl
  · -- XGET
    exact hrun (body := fun s t f c x => facetDone (facetDeliver s t c (x.chunk c.k)) t f c x) (fun _ => rfl) fun _ => rfl
  · -- XCFG.w
    exact fun hk hclean hgood => hrun (fun _ => rfl) fun _ => runXcfg_reads hk rfl (hread hclean) hgood
  · -- XCFG.r
    exact fun hk => hrun (fun _ => rfl) fun _ => (runXcfg_stores (.inl hk)).trans (if_pos hk)
  · -- XCFG.wa
    exact fun hk hclean => hrun (fun _ => rfl) fun _ => runXcfg_readsA hk rfl (hread hclean)
  · -- XCFG.ra
    exact fun hk => hrun (fun _ => rfl) fun _ => (runXcfg_stores (.inr (.inl hk))).trans (by rw [if_neg (by omega), if_pos hk])
  · -- XCFG.wc
    exact fun hk hclean => hrun (fun _ => rfl) fun _ => runXcfg_readsC hk rfl (hread hclean)
  · -- XCFG.rc
    exact fun hk => hrun (fun _ => rfl) fun _ => (runXcfg_stores (.inr (.inr hk))).trans (by rw [if_neg (by omega), if_neg (by omega)])
  · -- XMODE
    exact fun hk => hrun (fun _ => rfl) fun _ => runXmode_legal hk
  · -- XSTAT.pc
    exact hrun (body := fun s t f c x => facetDone (facetDeliver s t c x.pctr.toNat) t f c x) (fun _ => rfl) fun _ => rfl
  · -- Calibration at start
    exact fun hdie hr hgroup h2 => exec_facetStartupCalibration ht hf harg0 harg1 h2 hdie hr hgroup

end Sys2Proof.Machine
end

section
/-! SUPPORT. The bead instructions at issue (R286 to R290, R328; log 67). -/

namespace Sys2Proof.Machine

theorem beadTrap_staged {s : State} (h : fld s.core.spr.stage 15 1 = 1) (i : Instr) : beadTrap s i false = none := if_neg (by simp [h])

theorem beadTrap_unstaged {s : State} (h : fld s.core.spr.stage 15 1 ≠ 1) (i : Instr) (bad : Bool) :
    beadTrap s i bad = some (.illegal, slotWordOf i) := by
  have hbit : fld s.core.spr.stage 15 1 < 2 ^ 1 := bits_lt _ _ _
  exact if_pos (.inl (by omega))

theorem exec_beadRecv {o : OpTNg} {s : State} (h : Enabled (.beadRecv o) s) (hst : fld s.core.spr.stage 15 1 = 1)
    (hcur : s.core.beads.cur = none) (hmail : s.core.beads.mailbox ≠ []) :
    exec (.beadRecv o) s = .next (finish (s.onCore (fun t =>
      { t.dropL1 with beads := { t.beads with cur := t.beads.mailbox.head?, mailbox := t.beads.mailbox.drop 1 } }))) :=
  issue_enabled (.beadRecv o) _ s h (by rw [hcur]; exact beadTrap_staged hst _) rfl rfl rfl (beq_false_of_ne hmail)

theorem exec_beadSend {o : OpTNgab} {s : State} (h : Enabled (.beadSend o) s) (hst : fld s.core.spr.stage 15 1 = 1)
    (hpush : pushWaits s.core = false) (hrel : releaseWaits s.self s.core 10 = false)
    (hrec : recordTrap s (slotWordOf (.beadSend o)) (s.core.sreg o.a).toNat
      (if o.b.val = 0 then none else some ((s.core.sreg o.b).toNat / 16 * 16))
      (o.b.val != 0 && bits (s.core.sreg o.b).toNat 1 3 != 0) = none) :
    exec (.beadSend o) s = .next (finish ((recordRead s (s.core.sreg o.a).toNat).onCore (fun t =>
      t.push (t.entry (slotWordOf (.beadSend o)) 0 (s.core.sreg o.a).toNat (s.core.sreg o.b).toNat
        (recordAt (recordRead s (s.core.sreg o.a).toNat) (s.core.sreg o.a).toNat)) [] 9))) :=
  issue_enabled (.beadSend o) _ s h (by rw [beadTrap_staged hst]; exact hrec) rfl rfl rfl (by rw [hpush, hrel]; rfl)

theorem exec_beadDone {o : OpTNga} {s : State} (h : Enabled (.beadDone o) s) (hst : fld s.core.spr.stage 15 1 = 1)
    (hcur : s.core.beads.cur.isSome) (hcode : (s.core.sreg o.a).toNat < 256) (hpush : pushWaits s.core = false) :
    exec (.beadDone o) s = .next (finish (s.onCore (fun t =>
      { t.push (t.entry (slotWordOf (.beadDone o)) 0 (s.core.sreg o.a).toNat 0 (t.beads.cur.getD 0)) [] 9 with
        beads := { t.beads with cur := none } }))) := by
  have hgood : (decide (256 ≤ (s.core.sreg o.a).toNat) || s.core.beads.cur.isNone) = false := by
    rw [decide_eq_false (by omega), Option.isNone_eq_false_iff.2 hcur]
    rfl
  exact issue_enabled (.beadDone o) _ s h (by rw [hgood]; exact beadTrap_staged hst _) rfl rfl rfl hpush

/-- BEAD.HDR reads its word at issue: a poisoned one fails, any other is there at once (R288, R328). -/
theorem performLocal_beadHdr (s : State) (dst k : Nat) :
    let b := s.core.beads.cur.getD 0
    performLocal s { Req.empty .beadHdr with size := 8, dst := dst, pw := k } =
      { Req.empty .beadHdr with
        st := if bit b (512 + k) then .poisoned else .done, size := 8, dst := dst, pw := k,
        data := if bit b (512 + k) then 8 * k else bits b (64 * k) 64 } := by
  intro b
  change (if bit b (512 + k) then _ else _) = _
  split <;> rfl

theorem exec_beadHdr {o : OpTNgdb2} {s : State} (h : Enabled (.beadHdr o) s) (hst : fld s.core.spr.stage 15 1 = 1)
    (hcur : s.core.beads.cur.isSome) (hroom : s.core.loadsFull = false) :
    exec (.beadHdr o) s = .next (finish (s.eff (.load (performLocal s
      { Req.empty .beadHdr with size := 8, dst := physS s.core.spr.rotw o.d, pw := o.b })))) :=
  issue_enabled (.beadHdr o) _ s h (by rw [Option.isNone_eq_false_iff.2 hcur]; exact beadTrap_staged hst _) rfl rfl rfl hroom

/-- Settles O35: each bead instruction of a task with a stage runs once nothing holds it, and BEAD.RECV without one traps. -/
theorem beadInstructions : Obligations.BeadInstructions := by
  intro g o d h s
  refine ⟨exec_beadRecv, fun he hst => issue_trap (.beadRecv g) _ s he _ _ (beadTrap_unstaged hst _ _), exec_beadSend, exec_beadDone,
    fun he hst hcur hroom => ?_⟩
  rw [exec_beadHdr he hst hcur hroom, performLocal_beadHdr]

end Sys2Proof.Machine
end

section
/-! SUPPORT. The push of a copy or gather command, and the bytes of the own scratchpad that it notes in checking mode (R273 to R284, R409). -/

namespace Sys2Proof.Machine

/-! ## Pushes -/

@[simp] theorem recordRead_core (s : State) (a : Nat) : (recordRead s a).core = s.core := by
  unfold recordRead
  split <;> simp

@[simp] theorem recordRead_self (s : State) (a : Nat) : (recordRead s a).self = s.self := by
  unfold recordRead
  split <;> simp

/-- A push adds its entry and, in checking mode, the notes of its ranges that hold a byte (R105, R409). -/
theorem Tile.push_eq (t : Tile) (e : Tcq) (rs : List (Nat × Nat × Bool)) (who : Nat) :
    t.push e (if t.checking then rs else []) who =
      { t with tcq := t.tcq ++ [e], stamp := t.stamp + 1,
               notes := t.notes ++ if t.checking then notesOf (rs.filter (fun r => r.2.1 != 0)) who t.stamp else [] } := by
  unfold Tile.push
  split <;> simp

section
variable {i : Instr} {o : OpTNgdab} {s : State} (h : Enabled i s)
  (hrec : recordTrap s (slotWordOf i) (s.core.sreg o.a).toNat (if o.b.val = 0 then none else some (s.core.sreg o.b).toNat) false = none)
include h hrec

/-- A copy or gather command with nothing against it is pushed; it changes no more of its tile than the state of its channel. -/
theorem copyOp_pushes (hpush : pushWaits s.core = false) (op : Nat) (g : Tile → Vector Chan 8) :
    let a := (s.core.sreg o.a).toNat
    let s' := if s.core.checking then recordRead s a else s
    copyOp i o op none false (fun t => { t with chans := g t }) s = .next (finish (s'.onCore (fun t =>
      { t with
        chans := g t, stamp := t.stamp + 1,
        tcq := t.tcq ++ [t.entry (slotWordOf i) 0 a (s.core.sreg o.b).toNat
          (if op = 25 then (s.core.chan o.d).lo + (s.core.chan o.d).hi * 2 ^ 32 else 0)],
        notes := t.notes ++ if s.core.checking then
            notesOf ((cmdRanges s.self op a (recordAt s' a)).filter (fun r => r.2.1 != 0)) o.d s.core.stamp
          else [] }))) := by
  intro a s'
  have hcore : s'.core = s.core := by unfold s'; split <;> simp
  have hself : s'.self = s.self := by unfold s'; split <;> simp
  refine (issue_enabled i _ s h (by rw [hrec]; rfl) rfl rfl rfl (by rw [hpush]; rfl)).trans (congrArg (fun u => Host.Outcome.next (finish u)) ?_)
  dsimp only
  refine State.onCore_congr ?_
  rw [hcore, hself]
  exact Tile.push_eq { s.core with chans := g s.core } _ _ _

/-- A copy or gather command with a cause beside those of its record traps with it. -/
theorem copyOp_traps (op : Nat) (pre : Tile → Tile) (wait : Bool) (c : Cause) (v : Nat) :
    copyOp i o op (some (c, v)) wait pre s = trapOut s c s.core.iss.slot v .trapIssue :=
  issue_trap i _ s h c v (by rw [hrec]; rfl)

theorem copyOp_waits (op : Nat) (pre : Tile → Tile) : copyOp i o op none true pre s = stallOut s i .stall :=
  issue_wait i _ s h (by rw [hrec]; rfl) rfl rfl rfl rfl

end

/-- CPYW is the push of a copy whose channel must be free and its window open and empty (R280). -/
theorem exec_cpyw (o : OpTNgdab) (s : State) :
    exec (.cpyw o) s = copyOp (.cpyw o) o 25
      (if chanBusy s.core o.d = false ∧ ((s.core.chan o.d).hi ≤ (s.core.chan o.d).lo ∨ (s.core.chan o.d).wm ≠ (s.core.chan o.d).lo) then
        some (.illegal, slotWordOf (.cpyw o)) else none)
      (chanBusy s.core o.d) (fun t => t.setChan o.d { t.chan o.d with act := true }) s := by
  change execCpyw o s = _
  simp [execCpyw]

/-! ## Ranges -/

theorem ownOffset_eq_some {self c x : Nat} :
    ownOffset self c = some x ↔ x < 3145728 ∧ (c = x ∨ c = 0x10000000 + self % 16 * 0x400000 + x) := by
  unfold ownOffset sortLocal
  simp only [show Config.scratchBytes = 3145728 from rfl, scratchKey]
  split_ifs with hlin hswz hwin <;> simp <;> omega

/-- A list of ranges holds a byte, read or written. -/
def Covers (l : List (Nat × Nat × Bool)) (wr : Bool) (x : Nat) : Prop := ∃ q ∈ l, q.2.2 = wr ∧ q.1 ≤ x ∧ x < q.1 + q.2.1

theorem covers_nil (wr : Bool) (x : Nat) : ¬Covers [] wr x := by simp [Covers]

theorem covers_cons {lo n : Nat} {w wr : Bool} {l : List (Nat × Nat × Bool)} {x : Nat} :
    Covers ((lo, n, w) :: l) wr x ↔ (w = wr ∧ lo ≤ x ∧ x < lo + n) ∨ Covers l wr x := by simp [Covers]

theorem covers_append {l m : List (Nat × Nat × Bool)} {wr : Bool} {x : Nat} : Covers (l ++ m) wr x ↔ Covers l wr x ∨ Covers m wr x := by
  simp [Covers, or_and_right, exists_or]

theorem covers_flatMap {f : Nat → List (Nat × Nat × Bool)} {n : Nat} {wr : Bool} {x : Nat} :
    Covers ((List.range n).flatMap f) wr x ↔ ∃ k < n, Covers (f k) wr x := by
  simp only [Covers, List.mem_flatMap, List.mem_range]
  exact ⟨fun ⟨q, ⟨k, hk, hq⟩, hx⟩ => ⟨k, hk, q, hq, hx⟩, fun ⟨k, hk, q, hq, hx⟩ => ⟨q, ⟨k, hk, hq⟩, hx⟩⟩

/-- The part of n bytes from an address that lies in a view of the own scratchpad at b. -/
def ownPart (a n : Nat) (wr : Bool) (b : Nat) : Option (Nat × Nat × Bool) :=
  let lo := Nat.max a b
  let hi := Nat.min (a + n) (b + Config.scratchBytes)
  if lo < hi then some (lo - b, hi - lo, wr) else none

theorem ownParts_eq (self a n : Nat) (wr : Bool) : ownParts self a n wr =
    let w := 0x10000000 + self % 16 * 0x400000
    [0, w, 2 ^ 64, 2 ^ 64 + w].filterMap (ownPart a n wr) := rfl

theorem ownPart_holds {a n b x : Nat} {w wr : Bool} :
    (∃ q, ownPart a n w b = some q ∧ q.2.2 = wr ∧ q.1 ≤ x ∧ x < q.1 + q.2.1) ↔
      w = wr ∧ x < 3145728 ∧ a ≤ b + x ∧ b + x < a + n := by
  simp only [ownPart, Option.ite_none_right_eq_some, Option.some.injEq, show Config.scratchBytes = 3145728 from rfl, Nat.max_def, Nat.min_def]
  constructor
  · rintro ⟨q, ⟨hlt, rfl⟩, hw, hlo, hhi⟩
    dsimp only at hw hlo hhi
    refine ⟨hw, ?_⟩
    split_ifs at hlt hlo hhi <;> omega
  · rintro ⟨hw, hx, hlo, hhi⟩
    refine ⟨_, ⟨?_, rfl⟩, hw, ?_⟩
    · split_ifs <;> omega
    · dsimp only
      split_ifs <;> omega

/-- The parts of n bytes from an address hold the own bytes that those addresses name (R50, R168). -/
theorem covers_ownParts {self a n x : Nat} {w wr : Bool} (ha : a < 2 ^ 64) (hn : n ≤ 2 ^ 64) :
    Covers (ownParts self a n w) wr x ↔ w = wr ∧ ∃ j < n, ownOffset self ((a + j) % 2 ^ 64) = some x := by
  simp only [Covers, ownParts_eq, List.mem_filterMap, ownOffset_eq_some]
  constructor
  · rintro ⟨q, ⟨b, hb, hq⟩, hcov⟩
    obtain ⟨hw, hx, hlo, hhi⟩ := ownPart_holds.1 ⟨q, hq, hcov⟩
    refine ⟨hw, b + x - a, by omega, hx, ?_⟩
    simp only [List.mem_cons, List.not_mem_nil, or_false] at hb
    omega
  · rintro ⟨hw, j, hj, hx, hc⟩
    obtain ⟨q, hq, hcov⟩ := (ownPart_holds (a := a) (n := n) (b := a + j - x)).2 ⟨hw, hx, by omega, by omega⟩
    refine ⟨q, ⟨a + j - x, ?_, hq⟩, hcov⟩
    simp only [List.mem_cons, List.not_mem_nil, or_false]
    omega

/-- Rows of bytes hold the own bytes that their addresses name, laid one after the other or not (R50, R168, R278). -/
theorem covers_rowRanges {self base rows n x : Nat} {stride : Int} {w wr : Bool} (hb : base < 2 ^ 64) (hr : rows < 2 ^ 32) (hn : n < 2 ^ 32) :
    Covers (rowRanges self base rows n stride w) wr x ↔
      w = wr ∧ ∃ k < rows, ∃ j < n, ownOffset self ((((base : Int) + stride * k + j) % 2 ^ 64).toNat) = some x := by
  unfold rowRanges
  split_ifs with hs
  · have hlen : rows * n ≤ 2 ^ 64 := by nlinarith
    have haddr (k j : Nat) : (((base : Int) + stride * k + j) % 2 ^ 64).toNat = (base + (n * k + j)) % 2 ^ 64 := by
      subst hs
      norm_cast
      rw [Nat.add_assoc]
    simp only [covers_ownParts hb hlen, haddr]
    refine and_congr_right fun _ => ⟨fun ⟨j, hj, ho⟩ => ?_, fun ⟨k, hk, j, hj, ho⟩ => ⟨n * k + j, ?_, ho⟩⟩
    · have hpos : 0 < n := Nat.pos_of_mul_pos_left (by omega : 0 < rows * n)
      exact ⟨j / n, Nat.div_lt_of_lt_mul (by rwa [Nat.mul_comm]), j % n, Nat.mod_lt _ hpos, by rwa [Nat.div_add_mod]⟩
    · nlinarith
  · have haddr (k j : Nat) : (((base : Int) + stride * k + j) % 2 ^ 64).toNat = (moved base (stride * k) + j) % 2 ^ 64 := by
      simp only [moved, wrap]
      omega
    have hlt (k : Nat) : moved base (stride * k) < 2 ^ 64 := by
      simp only [moved, wrap]
      omega
    simp only [covers_flatMap, covers_ownParts (hlt _) (by omega : n ≤ 2 ^ 64), haddr]
    exact ⟨fun ⟨k, hk, hw, h⟩ => ⟨hw, k, hk, h⟩, fun ⟨hw, k, hk, h⟩ => ⟨k, hk, hw, h⟩⟩

/-- The own bytes that a copy or fill reads and writes: its record, its rows, and the residual table of its transform (R273 to R279, R409). -/
theorem covers_cpyRanges (self op a v x : Nat) (wr : Bool) :
    let r := cpyRec v
    let row (base : Nat) (stride : Int) (n : Nat) : Prop :=
      ∃ k < r.rows, ∃ j < n, ownOffset self ((((base : Int) + stride * k + j) % 2 ^ 64).toNat) = some x
    Covers (cpyRanges self op a v) wr x ↔
      (if wr = true then row r.dst r.dstr r.drow else (a % 4194304 ≤ x ∧ x < a % 4194304 + 64) ∨ (op ≠ 26 ∧ row r.src r.sstr r.rowb)) ∨
      (r.xform = 1 ∧ r.res ≤ x ∧ x < r.res + r.rows * r.rowb) := by
  intro r row
  have hrow : r.rowb < 2 ^ 32 := bits_lt _ _ _
  have hdrow : r.drow < 2 ^ 32 := by unfold CpyRec.drow; split <;> omega
  have hsrc : Covers (if op = 26 then [] else rowRanges self r.src r.rows r.rowb r.sstr false) wr x ↔
      op ≠ 26 ∧ false = wr ∧ row r.src r.sstr r.rowb := by
    split_ifs with h
    · simp [covers_nil, h]
    · simp only [h, ne_eq, not_false_eq_true, true_and]
      exact covers_rowRanges (bits_lt _ _ _) (bits_lt _ _ _) hrow
  have hdst : Covers (rowRanges self r.dst r.rows r.drow r.dstr true) wr x ↔ true = wr ∧ row r.dst r.dstr r.drow :=
    covers_rowRanges (bits_lt _ _ _) (bits_lt _ _ _) hdrow
  have hres : Covers (if r.xform = 1 then [(r.res, r.rows * r.rowb, false), (r.res, r.rows * r.rowb, true)] else []) wr x ↔
      r.xform = 1 ∧ r.res ≤ x ∧ x < r.res + r.rows * r.rowb := by
    split_ifs with h <;> cases wr <;> simp [covers_cons, covers_nil, h]
  change Covers (_ :: (_ ++ _ ++ _)) wr x ↔ _
  rw [covers_cons, covers_append, covers_append, hsrc, hdst, hres]
  cases wr <;> simp [or_assoc]

/-- Settles O32: the four instructions are one push, whose notes hold the own bytes of the record and of its rows. -/
theorem copyPushes : Obligations.CopyPushes := by
  refine ⟨fun o s => ?_, fun self op a v x wr _ hop _ => ⟨?_, rfl⟩⟩
  · intro t a b c free s' notes pushed ends
    have hplain (i : Instr) (op : Nat) (h25 : op ≠ 25) (hexec : exec i s = copyOp i o op none false id s) : ends i op := by
      rintro ⟨he, hpush, hrec⟩
      have h := copyOp_pushes he hrec hpush op (·.chans)
      simp only [h25, if_false] at h
      exact hexec.trans h
    refine ⟨hplain _ 24 (by decide) rfl, hplain _ 26 (by decide) rfl, hplain _ 27 (by decide) rfl, ?_, ?_, ?_⟩
    · rintro ⟨he, hpush, hrec⟩ hbusy hopen hempty
      have hgood : ¬(c.hi ≤ c.lo ∨ c.wm ≠ c.lo) := by omega
      rw [exec_cpyw, if_neg (fun h => hgood h.2), hbusy]
      exact copyOp_pushes he hrec hpush 25 (fun t => (t.setChan o.d { t.chan o.d with act := true }).chans)
    · rintro ⟨he, hpush, hrec⟩ hbusy hbad
      rw [exec_cpyw, if_pos ⟨hbusy, hbad⟩]
      exact copyOp_traps he hrec 25 _ _ _ _
    · rintro ⟨he, hpush, hrec⟩ _ hbusy
      rw [exec_cpyw, if_neg (by simp [t, hbusy]), hbusy]
      exact copyOp_waits he hrec 25 _
  · have h27 : op ≠ 27 := by rintro rfl; simp at hop
    rw [cmdRanges, if_neg h27]
    exact covers_cpyRanges self op a v x wr

end Sys2Proof.Machine
end

section
/-! SUPPORT. A stage entry as its scheduler reads it: its queues, its open entries, its policy and the step rules (R376 to R386). -/

namespace Sys2Proof.Machine

/-! ## Queues and entries -/

/-- A stage with the queue of a bead's kind changed (R376). -/
def Stage.onQueue (x : Stage) (b : Nat) (f : List Nat → List Nat) : Stage :=
  { x with ctl := if beadKind b = 4 then f x.ctl else x.ctl, bwd := if beadKind b = 2 then f x.bwd else x.bwd,
           fwd := if beadKind b = 4 ∨ beadKind b = 2 then x.fwd else f x.fwd }

theorem Stage.popHead_eq (x : Stage) (b : Nat) : x.popHead b = x.onQueue b (·.drop 1) := by
  unfold Stage.popHead Stage.onQueue
  split <;> simp_all

theorem Stage.pushTail_eq (x : Stage) (b : Nat) : x.pushTail b = x.onQueue b (· ++ [b]) := by
  unfold Stage.pushTail Stage.onQueue
  split <;> simp_all

theorem Stage.isOpen_iff {x : Stage} {b : Nat} : x.isOpen b = true ↔ ∃ o ∈ x.opens, o.step = beadStep b ∧ o.mb = beadMb b := by
  simp [Stage.isOpen]

theorem Stage.isOpen_eq_false_iff {x : Stage} {b : Nat} : x.isOpen b = false ↔ ¬∃ o ∈ x.opens, o.step = beadStep b ∧ o.mb = beadMb b := by
  rw [← Stage.isOpen_iff, Bool.not_eq_true]

theorem Stage.hasFailed_iff {x : Stage} {b : Nat} : x.hasFailed b = true ↔ beadKind b ≠ 3 ∧ (beadStep b, beadMb b) ∈ x.failed := by
  simp [Stage.hasFailed]

theorem Stage.isClosing_iff {x : Stage} {b : Nat} : x.isClosing b = true ↔ beadKind b = if x.nnone then 1 else 2 := beq_iff_eq

theorem Stage.stepDrop_iff {x : Stage} {b : Nat} : x.stepDrop b = true ↔
    x.stepMb ≠ 0 ∧ (x.stepMb ≤ beadMb b ∨ ((beadKind b = 1 ∨ beadKind b = 3) ∧ beadStep b < x.step) ∨
      (beadKind b = 2 ∧ beadStep b ≠ x.step)) := by
  simp [Stage.stepDrop, or_assoc]

/-! ## The policy -/

/-- Whether a forward or evaluation bead at the head of its queue may be chosen (R379, R384). -/
def Stage.eligible (x : Stage) (b : Nat) : Bool :=
  (x.stepMb == 0 || decide (beadStep b ≤ x.step)) && (beadKind b == 3 || decide (x.opens.length < fld x.w1 8 8))

theorem Stage.eligible_head (x : Stage) : (if x.fwdOk then x.fwd.head? else none) = x.fwd.head?.filter x.eligible := by
  unfold Stage.fwdOk
  cases x.fwd <;> rfl

theorem Stage.choose_ctl {x : Stage} {b : Nat} {l : List Nat} (h : x.ctl = b :: l) : x.choose = some b := by
  rw [Stage.choose, h]

/-- The backward head goes first under policy 2, and under policy 0 once the warm-up is over and the last bead was no backward one (R379). -/
def Stage.bwdFirst (x : Stage) : Bool :=
  fld x.w1 22 2 != 1 && (fld x.w1 22 2 != 0 || (decide (fld x.w1 16 6 ≤ x.warm) && x.lastBwd == some false))

theorem Stage.choose_policy {x : Stage} (h : x.ctl = []) :
    x.choose = if x.bwdFirst then x.bwd.head?.or (x.fwd.head?.filter x.eligible) else (x.fwd.head?.filter x.eligible).or x.bwd.head? := by
  rw [← Stage.eligible_head, Stage.choose, h, Stage.bwdFirst]
  generalize (if x.fwdOk then x.fwd.head? else none) = f
  generalize x.bwd.head? = w
  generalize fld x.w1 22 2 = pol
  match pol with
  | 0 => cases f <;> cases w <;> simp
  | 1 => cases f <;> cases w <;> simp
  | n + 2 => cases f <;> cases w <;> simp

/-- The policies as the spec lists them (R379). -/
theorem Stage.choose_cases (x : Stage) :
    let f := x.fwd.head?.filter x.eligible
    let pol := fld x.w1 22 2
    (∀ b l, x.ctl = b :: l → x.choose = some b) ∧
    (x.ctl = [] → pol = 0 → fld x.w1 16 6 ≤ x.warm → x.lastBwd = some false → x.choose = x.bwd.head?.or f) ∧
    (x.ctl = [] → pol = 0 → (x.warm < fld x.w1 16 6 ∨ x.lastBwd ≠ some false) → x.choose = f.or x.bwd.head?) ∧
    (x.ctl = [] → pol = 1 → x.choose = f.or x.bwd.head?) ∧ (x.ctl = [] → pol = 2 → x.choose = x.bwd.head?.or f) := by
  refine ⟨fun b l h => choose_ctl h, fun h (hp : fld x.w1 22 2 = 0) hw hl => ?_, fun h (hp : fld x.w1 22 2 = 0) hw => ?_,
    fun h (hp : fld x.w1 22 2 = 1) => ?_, fun h (hp : fld x.w1 22 2 = 2) => ?_⟩ <;> rw [choose_policy h]
  · exact if_pos (by simp [bwdFirst, hp, hw, hl])
  · rcases hw with hw | hl
    · exact if_neg (by simp [bwdFirst, hp, hw])
    · exact if_neg (by simp [bwdFirst, hp, hl])
  · exact if_neg (by simp [bwdFirst, hp])
  · exact if_pos (by simp [bwdFirst, hp])

end Sys2Proof.Machine
end

section
/-! SUPPORT. What the scheduler of a die does to a stage entry with one bead or notice (R290, R376 to R386). -/

namespace Sys2Proof.Machine

@[simp] theorem State.setStage_stage (s : State) (d i : Nat) (x : Stage) : (s.setStage d i x).stage d i = x := by
  simp [State.stage, State.setStage, State.onDie, State.setDie, State.die]

@[simp] theorem State.onTile_stage (s : State) (t : Nat) (f : Tile → Tile) (d i : Nat) : (s.onTile t f).stage d i = s.stage d i := by
  simp [State.stage, State.die]

/-! ## Arrival -/

section
variable {s : State} {d i b : Nat} (hs : s.unflawed (.stage d i))
include hs

/-- A bead for a stage that is off is dropped (R376). -/
theorem enterStage_off (hv : (s.stage d i).valid = false) : enterStage s d i b = dropEvent s d i b 1 := by
  simp [enterStage, readStage_unflawed hs, hv]

/-- A bead of a failed micro-batch is discarded (R386). -/
theorem enterStage_failed (hv : (s.stage d i).valid = true) (hf : (s.stage d i).hasFailed b = true) : enterStage s d i b = s := by
  simp [enterStage, readStage_unflawed hs, hv, hf]

/-- A backward bead without an open entry fails its micro-batch (R385). -/
theorem enterStage_absent (hv : (s.stage d i).valid = true) (hf : (s.stage d i).hasFailed b = false) (hk : beadKind b = 2)
    (ho : (s.stage d i).isOpen b = false) :
    enterStage s d i b = failMb (dropEvent s d i b 4) d i (beadStep b) (beadMb b) 0xFC := by
  simp [enterStage, readStage_unflawed hs, hv, hf, hk, ho]

/-- Any other bead joins the tail of its queue; a stage with a live tile is not faulted by it (R376, R387). -/
theorem enterStage_joins (hv : (s.stage d i).valid = true) (hf : (s.stage d i).hasFailed b = false)
    (ho : beadKind b = 2 → (s.stage d i).isOpen b = true) (hd : (s.stage d i).dead = false) :
    enterStage s d i b = s.setStage d i ((s.stage d i).onQueue b (· ++ [b])) := by
  have hin : ¬(beadKind b = 2 ∧ (s.stage d i).isOpen b = false) := fun ⟨hk, h⟩ => by simp [ho hk] at h
  have hlive : ((s.stage d i).onQueue b (· ++ [b])).dead = false := hd
  simp [enterStage, readStage_unflawed hs, hv, hf, hin, checkDead, Stage.pushTail_eq, hlive]

end

/-! ## Delivery -/

theorem dropHeadBead_eq (s : State) (d i b : Nat) :
    let s1 := s.setStage d i ((s.stage d i).onQueue b (·.drop 1))
    dropHeadBead s d i b = if (s.stage d i).hasFailed b then s1
      else if beadKind b = 3 then tellPendant (dropEvent s1 d i b 3) d b 0xF7 else dropEvent s1 d i b 3 := by
  simp only [dropHeadBead, Stage.popHead_eq]

/-- The open entry of a bead's micro-batch has been evicted (R385). -/
theorem evicted_iff {x : Stage} {b : Nat} : x.opens.any (fun o => o.step == beadStep b && o.mb == beadMb b && o.evicted) = true ↔
    ∃ o ∈ x.opens, o.step = beadStep b ∧ o.mb = beadMb b ∧ o.evicted = true := by
  simp [and_assoc]

theorem bit_eq_fld (x : Word) (k : Nat) : bit x.toNat k = true ↔ fld x k 1 = 1 := by simp [bit, fld]

/-- What a chosen bead is dropped for: a forward one for an open entry, a backward one for an absent or evicted entry (R380, R385). -/
theorem chosenDrop_cases (s : State) (d i b : Nat) :
    let z := s.stage d i
    let s1 := s.setStage d i (z.onQueue b (·.drop 1))
    let isOpen : Prop := ∃ o ∈ z.opens, o.step = beadStep b ∧ o.mb = beadMb b
    let gone : Prop := ∃ o ∈ z.opens, o.step = beadStep b ∧ o.mb = beadMb b ∧ o.evicted = true
    (beadKind b = 1 → isOpen → chosenDrop s d i b = some (dropEvent s1 d i b 2)) ∧
    (beadKind b = 2 → ¬isOpen → chosenDrop s d i b = some (failMb (dropEvent s1 d i b 4) d i (beadStep b) (beadMb b) 0xFC)) ∧
    (beadKind b = 2 → isOpen → gone → fld z.w1 59 1 = 1 →
      chosenDrop s d i b = some (failMb (dropEvent s1 d i b 4) d i (beadStep b) (beadMb b) 0xFE)) ∧
    (beadKind b = 2 → isOpen → (gone → fld z.w1 59 1 = 0) → chosenDrop s d i b = none) ∧
    (beadKind b = 1 → ¬isOpen → chosenDrop s d i b = none) := by
  simp only [chosenDrop, Stage.popHead_eq, evicted_iff, bit_eq_fld, ← Stage.isOpen_iff, Bool.not_eq_true]
  refine ⟨fun hk ho => ?_, fun hk ho => ?_, fun hk ho hg hp => ?_, fun hk ho hp => ?_, fun hk ho => ?_⟩
  · rw [if_pos ⟨hk, ho⟩]
  · rw [if_neg (by omega), if_pos ⟨hk, ho⟩]
  · rw [if_neg (by omega), if_neg (by simp [ho]), if_pos ⟨hk, hg, hp⟩]
  · rw [if_neg (by omega), if_neg (by simp [ho]), if_neg (fun ⟨_, hg, h⟩ => by have := hp hg; omega)]
  · rw [if_neg (by simp [ho]), if_neg (by omega), if_neg (by omega)]

theorem bit_setBits_same (x lo : Nat) (p : Bool) : bit (setBits x lo 1 (b2n p)) lo = p := by
  rw [bit, bits_setBits_same]
  cases p <;> rfl

theorem bit_setBits_other {x lo v k : Nat} (h : k ≠ lo) : bit (setBits x lo 1 v) k = bit x k := by
  rw [bit, bits_setBits_other (by omega), bit]

/-- The stage that has given a bead away (R378, R380, R384). -/
def Stage.given (x : Stage) (t b : Nat) : Stage :=
  { x.onQueue b (·.drop 1) with
    closedSent := if x.isClosing b && x.stepMb != 0 then x.closedSent + 1 else x.closedSent, lastTile := t,
    lastBwd := if beadKind b = 4 then x.lastBwd else some (beadKind b == 2),
    warm := if beadKind b = 1 then x.warm + 1 else x.warm,
    opens := if beadKind b = 1 then x.opens ++ [{ step := beadStep b, mb := beadMb b, evicted := false }] else x.opens }

/-- A bead with the marks of its delivery: NOSTASH and STEPEND (R384, R385). -/
def Stage.marked (x : Stage) (b : Nat) : Nat :=
  setBits (setBits b 80 1 (b2n (beadKind b == 2 && x.opens.any (fun o => o.step == beadStep b && o.mb == beadMb b && o.evicted)))) 81 1
    (b2n (x.isClosing b && x.stepMb != 0 && (x.given 0 b).closedSent + x.failedNow.length == x.stepMb))

theorem giveBead_eq (s : State) (d i t b : Nat) :
    giveBead s d i t b = (s.setStage d i ((s.stage d i).given t b)).onTile (64 * d + t) (fun y => { y with beads := { y.beads with
      mailbox := y.beads.mailbox ++ [(s.stage d i).marked b + 2 ^ 520 * (i + 64 * epochOf s d)] } }) := by
  unfold giveBead
  rw [Stage.popHead_eq]
  rfl

theorem Stage.marked_lt {x : Stage} {b : Nat} (h : b < 2 ^ 520) : x.marked b < 2 ^ 520 :=
  setBits_lt (setBits_lt h (by decide)) (by decide)

theorem Stage.marked_noStash {x : Stage} {b : Nat} : bit (x.marked b) 80 = true ↔
    beadKind b = 2 ∧ ∃ o ∈ x.opens, o.step = beadStep b ∧ o.mb = beadMb b ∧ o.evicted = true := by
  rw [Stage.marked, bit_setBits_other (by decide), bit_setBits_same, Bool.and_eq_true, evicted_iff, beq_iff_eq]

theorem Stage.marked_stepEnd {x : Stage} {b : Nat} : bit (x.marked b) 81 = true ↔
    ((beadKind b = if x.nnone then 1 else 2) ∧ x.stepMb ≠ 0) ∧ x.closedSent + 1 + x.failedNow.length = x.stepMb := by
  rw [Stage.marked, bit_setBits_same, Bool.and_eq_true, Bool.and_eq_true, Stage.isClosing_iff, bne_iff_ne, beq_iff_eq]
  refine and_congr_right fun ⟨hc, hn⟩ => ?_
  simp [given, Stage.isClosing_iff.2 hc, hn]

theorem Stage.marked_other {x : Stage} {b k : Nat} (h0 : k ≠ 80) (h1 : k ≠ 81) : bit (x.marked b) k = bit b k := by
  rw [Stage.marked, bit_setBits_other h1, bit_setBits_other h0]

/-! ## Retirement and failure -/

section
variable {s : State} {d i b st : Nat} (hup : s.claspUp (4 * d + 1) = true) (he : beadEpoch b = epochOf s d)
include hup he

theorem retireBead_pendant (hk : beadKind b = 3) : retireBead s d i b st = if st = 0 then s else tellPendant s d b st := by
  simp [retireBead, hup, he, hk]

theorem retireBead_control (hk : beadKind b = 4) : retireBead s d i b st =
    if st = 0 then s else s.postDev d 6 (stageName s d i + beadStep b * 2 ^ 32) (beadMb b + st % 256 * 65536) := by
  simp [retireBead, hup, he, hk]

/-- A forward or backward bead that has no open entry changes nothing (R380). -/
theorem retireBead_closed (hk : beadKind b = 1 ∨ beadKind b = 2) (ho : (s.stage d i).isOpen b = false) : retireBead s d i b st = s := by
  have h3 : beadKind b ≠ 3 := by omega
  have h4 : beadKind b ≠ 4 := by omega
  simp [retireBead, hup, he, h3, h4, ho]

theorem retireBead_fails (hk : beadKind b = 1 ∨ beadKind b = 2) (ho : (s.stage d i).isOpen b = true) (hst : st ≠ 0) :
    retireBead s d i b st = failMb s d i (beadStep b) (beadMb b) st := by
  have h3 : beadKind b ≠ 3 := by omega
  have h4 : beadKind b ≠ 4 := by omega
  simp [retireBead, hup, he, h3, h4, ho, hst]

theorem retireBead_passes (hk : beadKind b = 1 ∨ beadKind b = 2) (ho : (s.stage d i).isOpen b = true)
    (hc : (s.stage d i).isClosing b = false) : retireBead s d i b 0 = s := by
  have h3 : beadKind b ≠ 3 := by omega
  have h4 : beadKind b ≠ 4 := by omega
  simp [retireBead, hup, he, h3, h4, ho, hc]

/-- A closing bead closes its entry, and its micro-batch counts for the step where it is the current one (R380, R384). -/
theorem retireBead_closes (hk : beadKind b = 1 ∨ beadKind b = 2) (ho : (s.stage d i).isOpen b = true)
    (hc : (s.stage d i).isClosing b = true) :
    let z := s.stage d i
    retireBead s d i b 0 = stepEnd d i (z.failed.length + 1) (s.setStage d i { z with
      opens := z.opens.filter (fun o => !(o.step == beadStep b && o.mb == beadMb b)),
      closed := if beadStep b = z.step ∧ z.stepMb ≠ 0 ∧ beadMb b ∉ z.closed then z.closed ++ [beadMb b] else z.closed }) := by
  have h3 : beadKind b ≠ 3 := by omega
  have h4 : beadKind b ≠ 4 := by omega
  simp [retireBead, hup, he, h3, h4, ho, hc]

end

theorem stepDone_iff {x : Stage} : x.stepDone = true ↔ x.stepMb ≠ 0 ∧ (∀ o ∈ x.opens, o.step ≠ x.step) ∧
    x.stepMb ≤ (x.failedNow ++ x.closed.filter (fun m => !x.failedNow.contains m)).length := by
  simp [Stage.stepDone, and_assoc]

theorem stepEnd_open {s : State} {d i : Nat} (h : (s.stage d i).stepDone = false) (n : Nat) : stepEnd d i n s = s := by
  cases n with
  | zero => rfl
  | succ n => rw [stepEnd, h]; rfl

/-- A step that is complete ends: STEP moves on, and a first stage reports it (R383, R384, R450). -/
theorem stepEnd_done {s : State} {d i : Nat} (h : (s.stage d i).stepDone = true) (n : Nat) :
    let z := s.stage d i
    let s1 := s.setStage d i { z with
      w2 := setFld z.w2 0 32 (z.step + 1), closed := [], closedSent := 0, warm := 0, failed := z.failed.filter (fun p => decide (z.step < p.1)),
      st := if z.st = .run ∧ ∃ p ∈ z.lhs, p.2 ≤ z.step then .holding else z.st }
    stepEnd d i (n + 1) s = stepEnd d i n
      (if z.pnone then reportStep (s1.postDev d 4 (stageName s d i + z.step * 2 ^ 32) 0) (stageName s d i) z.step else s1) := by
  intro z s1
  have hhold : (z.st == .run && z.lhs.any (fun p => decide (p.2 ≤ z.step))) = true ↔ z.st = .run ∧ ∃ p ∈ z.lhs, p.2 ≤ z.step := by simp
  rw [stepEnd, if_pos h]
  simp only [z, hhold] 
  rfl

/-- At a stage that is off, no micro-batch fails (R386). -/
theorem noteFailed_off {s : State} {d i : Nat} (hv : (s.stage d i).valid = false) (step mb : Nat) : noteFailed s d i step mb = s := by
  simp [noteFailed, hv]

theorem noteFailed_valid {s : State} {d i : Nat} (hv : (s.stage d i).valid = true) (step mb : Nat) :
    let z := s.stage d i
    let keep (b : Nat) : Bool := beadKind b == 3 || beadStep b != step || beadMb b != mb
    noteFailed s d i step mb = stepEnd d i (z.failed.length + 1) (s.setStage d i { z with
      opens := z.opens.filter (fun o => !(o.step == step && o.mb == mb)),
      failed := if (step, mb) ∈ z.failed then z.failed else z.failed ++ [(step, mb)],
      ctl := z.ctl.filter keep, fwd := z.fwd.filter keep, bwd := z.bwd.filter keep }) := by
  simp [noteFailed, hv]

theorem passNotice_up {s : State} {d i : Nat} (hv : (s.stage d i).valid = true) (step mb : Nat) :
    passNotice s d i step mb true = if (s.stage d i).nnone then s else sendNotice s d (fld (s.stage d i).w1 41 15) step mb true := by
  rw [passNotice, hv]
  rfl

theorem passNotice_down {s : State} {d i : Nat} (hv : (s.stage d i).valid = true) (step mb : Nat) :
    passNotice s d i step mb false = if (s.stage d i).pnone then s else sendNotice s d (fld (s.stage d i).w1 25 15) step mb false := by
  rw [passNotice, hv]
  rfl

theorem sendNotice_here {s : State} {name : Nat} (h : name / 1024 = fld s.hub.prcfg 0 5) (d step mb : Nat) (up : Bool) :
    sendNotice s d name step mb up = s.onDie (bits name 6 4) (fun x => { x with notices := x.notices ++ [(d, name, step, mb, up)] }) := by
  rw [sendNotice, if_pos h]

/-! ## Beads on their way -/

section
variable {s : State} {b : Nat} (d t : Nat)

theorem beadTarget_stage (hm : beadDst b / 1024 = fld s.hub.prcfg 0 5) (hp : beadPnd b = false) : beadTarget s b = bits (beadDst b) 6 4 := by
  simp [beadTarget, hm, hp]

theorem beadTarget_pendant (hm : beadDst b / 1024 = fld s.hub.prcfg 0 5) (hp : beadPnd b = true) :
    beadTarget s b = 64 + bits (beadDst b) 6 4 := by
  simp [beadTarget, hm, hp]

theorem beadTarget_module (hm : beadDst b / 1024 ≠ fld s.hub.prcfg 0 5) : beadTarget s b = 128 + beadDst b / 1024 := if_pos hm

/-- A bead for a stage of this module goes on its way where the scheduler works, else it is dropped (R376, R420). -/
theorem sendBead_stage (hm : beadDst b / 1024 = fld s.hub.prcfg 0 5) (hp : beadPnd b = false) :
    let k := bits (beadDst b) 6 4
    sendBead s d t b = if s.claspUp (4 * k + 1) then s.onDie d (fun x => { x with transit := x.transit ++ [(k, t, b)] }) else dropBead s d b 5 := by
  intro k
  have hk : k < 16 := bits_lt _ _ _
  rw [sendBead, beadTarget_stage hm hp]
  cases hup : s.claspUp (4 * k + 1) with
  | true => exact (if_neg (by simp)).trans (if_neg (by omega))
  | false => exact if_pos ⟨hk, rfl⟩

theorem sendBead_pendant (hm : beadDst b / 1024 = fld s.hub.prcfg 0 5) (hp : beadPnd b = true) :
    sendBead s d t b = s.onDie d (fun x => { x with transit := x.transit ++ [(64 + bits (beadDst b) 6 4, t, b)] }) := by
  have hk : bits (beadDst b) 6 4 < 16 := bits_lt _ _ _
  rw [sendBead, beadTarget_pendant hm hp]
  exact (if_neg (by omega)).trans (if_neg (by omega))

/-- A bead for another module leaves at once where its port is in service, else it waits for that (R470). -/
theorem sendBead_module (hm : beadDst b / 1024 ≠ fld s.hub.prcfg 0 5) :
    sendBead s d t b = if peerOut s d (beadDst b / 1024) then s
      else s.onDie d (fun x => { x with transit := x.transit ++ [(128 + beadDst b / 1024, t, b)] }) := by
  rw [sendBead, beadTarget_module hm]
  refine (if_neg (by omega)).trans ?_
  simp only [Nat.add_sub_cancel_left, Nat.le_add_right, true_and]

end

theorem beadKind_bareBead (b : Nat) : beadKind (bareBead b) = beadKind b := by
  refine (bits_setBits_other (.inr (by decide))).trans ?_
  simp only [beadKind, bits]
  omega

/-- A forward bead that goes back to a stage without steps gives up its entry and its place in the warm-up (R379, R387). -/
theorem returnBead_forward {s : State} {d i b : Nat} (he : beadEpoch b = epochOf s d) (hup : s.claspUp (4 * d + 1) = true)
    (hst : beadStage b = i) (hv : (s.stage d i).valid = true) (hf : (s.stage d i).hasFailed b = false) (hk : beadKind b = 1)
    (hn : (s.stage d i).stepMb = 0) :
    let z := s.stage d i
    returnBead s d b = s.setStage d i { z with
      opens := z.opens.filter (fun o => !(o.step == beadStep b && o.mb == beadMb b)), warm := z.warm - 1, fwd := bareBead b :: z.fwd } := by
  have hback : (s.stage d i).takeBack b = { s.stage d i with
      opens := (s.stage d i).opens.filter (fun o => !(o.step == beadStep b && o.mb == beadMb b)), warm := (s.stage d i).warm - 1,
      fwd := bareBead b :: (s.stage d i).fwd } := by
    have hsame (x : Stage) : x.stepMb = fld x.w2 48 16 := rfl
    rw [hsame] at hn
    simp [Stage.takeBack, hf, hk, hsame, hn, Stage.pushHead, beadKind_bareBead]
  simp [returnBead, hst, he, hup, hv, hback]

/-- A task that ends with an empty mailbox retires its current bead, but one of kind 4 is gone (R387). -/
theorem leaveBeads_noMail {s : State} {t : Nat} (h : (s.tile t).beads.mailbox = []) (st : Nat) :
    leaveBeads s t st = ((s.tile t).beads.cur.elim s (fun b =>
      if beadKind b = 4 then s else s.onDie (tileDie t) (fun y => { y with retire := y.retire ++ [(t, beadStage b, b, st)] }))).onTile t
        (fun y => { y with beads := { y.beads with cur := none, mailbox := [] } }) := by
  simp only [leaveBeads, h, List.foldr_nil]
  cases (s.tile t).beads.cur <;> rfl

end Sys2Proof.Machine
end

section
/-! SUPPORT. The steps of the bead port and of the scheduler of a die (R289, R290, R376 to R386, R450, R461, R470). -/

namespace Sys2Proof.Machine

theorem dieStep_eq {s : State} {d : Nat} (hd : d < 16) (ha : s.arg 0 = d) (f : Nat → State) : dieStep s f = .next (f d) := by
  rw [dieStep, ha, if_neg (by omega)]

theorem State.arg_head {s : State} {a : Nat} {l : List Nat} (h : s.args = a :: l) : s.arg 0 = a := by
  rw [State.arg, h]
  rfl

@[simp] theorem State.setTile_claspUp (s : State) (t : Nat) (x : Tile) (k : Nat) : (s.setTile t x).claspUp k = s.claspUp k := by
  simp [State.claspUp, State.clasp]

@[simp] theorem State.setTile_stageName (s : State) (t : Nat) (x : Tile) (d i : Nat) : stageName (s.setTile t x) d i = stageName s d i := by
  simp [stageName]

@[simp] theorem State.onDie_claspUp (s : State) (d : Nat) (f : Die → Die) (k : Nat) : (s.onDie d f).claspUp k = s.claspUp k := rfl

/-! ## The bead port -/

section
variable {s : State} {t : Nat} (ht : t < 1024) (ha : s.arg 0 = t)
include ht ha

/-- A bead that waited for its peer port leaves first (R461, R470). -/
theorem exec_beadSendRelease_peer {k : Nat} (hp : peerReady s (tileDie t) t = some k) :
    exec .beadSendRelease s = .next (s.onDie (tileDie t) (fun z => { z with transit := ldel z.transit k })) := by
  rw [show exec .beadSendRelease s = execBeadSendRelease s from rfl, execBeadSendRelease, tileStep_eq ht ha]
  simp only [hp]

/-- The first send that no barrier holds is checked, stamped and sent (R289, R375). -/
theorem exec_beadSendRelease_send {b : Send} {bs : List Send} (hp : peerReady s (tileDie t) t = none)
    (hs : (s.tile t).beads.sends = b :: bs) (hbar : b.hasBar = false)
    (hfree : (s.die (tileDie t)).transit.any (fun p => p.2.1 == t) = false) (hup : s.claspUp (4 * tileDie t + 1) = true)
    (hsound : s.unflawed (.stage (tileDie t) (b.stage % 64)))
    (hok : beadOk (b.bead % 2 ^ 520) (s.stage (tileDie t) (b.stage % 64)).next (s.stage (tileDie t) (b.stage % 64)).prev
      (s.stage (tileDie t) (b.stage % 64)).nnone (s.stage (tileDie t) (b.stage % 64)).pnone = true) :
    let x := s.tile t
    let e := tileDie t
    exec .beadSendRelease s = .next (sendBead
      (s.setTile t { x with beads := { x.beads with sends := bs, dones := x.beads.dones.map (fun z => { z with waits := z.waits - 1 }) } })
      e t (stampSrc (b.bead % 2 ^ 520) (stageName s e (b.stage % 64)))) := by
  rw [show exec .beadSendRelease s = execBeadSendRelease s from rfl, execBeadSendRelease, tileStep_eq ht ha]
  simp only [hp, hs, hbar, hfree, hup, readStage_unflawed hsound, hok, State.setTile_claspUp, State.setTile_stageName, Bool.or_self,
    Bool.and_self, Bool.false_eq_true, if_false, if_true]

/-- A retirement passes once no send goes before it (R290). -/
theorem exec_beadDonePass {b : Done} {bs : List Done} (hd : (s.tile t).beads.dones = b :: bs) (hw : b.waits = 0) :
    let x := s.tile t
    exec .beadDonePass s = .next ((s.setTile t { x with beads := { x.beads with dones := bs } }).onDie (tileDie t) (fun z =>
      { z with retire := z.retire ++ [(t, beadStage b.bead, b.bead, b.status)] })) := by
  rw [show exec .beadDonePass s = execBeadDonePass s from rfl, execBeadDonePass, tileStep_eq ht ha]
  simp [hd, hw]

end

/-! ## Arrival -/

section
variable {s : State} {d : Nat} (hd : d < 16)
include hd

theorem exec_beadArrival_next (ha : s.args = [d]) (hr : (s.die d).retire = []) {src k b : Nat} (hn : nextArrival s d = some (src, k, b)) :
    exec .beadArrival s = .next (landBead (s.onDie src (fun x => { x with transit := ldel x.transit k })) d src b) := by
  rw [show exec .beadArrival s = execBeadArrival s from rfl, execBeadArrival, dieStep_eq hd (State.arg_head ha)]
  simp [retireDue, hr, ha, hn]

/-- A peer port brings a bead to a ready die that has room for it (R470). -/
theorem exec_beadArrival_peer {b : Nat} {rest : List Nat} (ha : s.args = d :: b :: rest) (hr : (s.die d).retire = [])
    (hp : peerIn s d = true) (hy : bit (s.hub.rdy.getD d 0) 0 = true) (ht : takesBead s d b = true) :
    exec .beadArrival s = .next (landBead s d d (b % 2 ^ 520)) := by
  rw [show exec .beadArrival s = execBeadArrival s from rfl, execBeadArrival, dieStep_eq hd (State.arg_head ha)]
  simp only [retireDue, hr, ha, hp, hy, ht]
  rfl

/-! ## Delivery -/

/-- The stage whose turn it is, is served at the tile whose turn it is (R378, R381). -/
theorem exec_beadDelivery_serve (ha : s.arg 0 = d) (hup : s.claspUp (4 * d + 1) = true) (hdue : beadsDue s d = false) {j u : Nat}
    (hj : nextStage s d = some j) (hsound : s.unflawed (.stage d j)) (hu : nextTile s d j = some u) :
    exec .beadDelivery s = .next (serveStage (s.onDie d (fun x => { x with lastStage := j })) d j u) := by
  have hdel : deliverable s d j = true := List.find?_some hj
  rw [show exec .beadDelivery s = execBeadDelivery s from rfl, execBeadDelivery, dieStep_eq hd ha]
  simp [hup, hdue, hj, readStage_unflawed hsound, hdel, hu]

/-! ## Retirements and notices -/

theorem exec_beadRetirement_next (ha : s.arg 0 = d) {n u j b st : Nat} (hn : nextRetire (s.die d) = some n)
    (hl : lget (0, 0, 0, 0) (s.die d).retire n = (u, j, b, st)) (hsound : s.unflawed (.stage d j)) :
    exec .beadRetirement s = .next (retireBead (s.onDie d (fun x => { x with retire := ldel x.retire n })) d j b st) := by
  have hsound' : (s.onDie d (fun x => { x with retire := ldel x.retire n })).unflawed (.stage d j) := hsound
  rw [show exec .beadRetirement s = execBeadRetirement s from rfl, execBeadRetirement, dieStep_eq hd ha]
  simp [hn, hl, readStage_unflawed hsound']

section
variable (ha : s.args = [d]) {n src name step mb : Nat} {up : Bool} (hn : nextNotice s d = some n)
  (hl : lget (0, 0, 0, 0, false) (s.die d).notices n = (src, name, step, mb, up))
include ha hn hl

/-- A notice for another module leaves (R470). -/
theorem exec_failureNotice_leaves (hm : name / 1024 ≠ fld s.hub.prcfg 0 5) :
    exec .failureNotice s = .next (s.onDie d (fun x => { x with notices := ldel x.notices n })) := by
  rw [show exec .failureNotice s = execFailureNotice s from rfl, execFailureNotice, dieStep_eq hd (State.arg_head ha)]
  simp [ha, hn, hl, hm]

theorem exec_failureNotice_taken (hm : name / 1024 = fld s.hub.prcfg 0 5) (hup : s.claspUp (4 * d + 1) = true)
    (hsound : s.unflawed (.stage d (name % 64))) :
    let s1 := s.onDie d (fun x => { x with notices := ldel x.notices n })
    exec .failureNotice s = .next (passNotice (noteFailed s1 d (name % 64) step mb) d (name % 64) step mb up) := by
  intro s1
  have hsound' : s1.unflawed (.stage d (name % 64)) := hsound
  rw [show exec .failureNotice s = execFailureNotice s from rfl, execFailureNotice, dieStep_eq hd (State.arg_head ha)]
  simp [ha, hn, hl, hm, takeNotice, hup, readStage_unflawed hsound', s1]

end

theorem exec_failureNotice_peer {j step mb up : Nat} (ha : s.args = [d, j, step, mb, up]) :
    exec .failureNotice s = .next (s.onDie d (fun x =>
      { x with notices := x.notices ++ [(16, stageName s d (j % 64), step % 2 ^ 32, mb % 65536, up == 1)] })) := by
  rw [show exec .failureNotice s = execFailureNotice s from rfl, execFailureNotice, dieStep_eq hd (State.arg_head ha)]
  simp only [ha]
  rfl

/-! ## Holds -/

theorem exec_stageHeld_idle (ha : s.arg 0 = d) (hst : (s.stage d (s.arg 1 % 64)).st = .holding)
    (hb : stageBusy s d (s.arg 1 % 64) = false) (hup : s.claspUp (4 * d + 1) = true) :
    let i := s.arg 1 % 64
    exec .stageHeld s = .next (endHolds (s.setStage d i { s.stage d i with st := .held }) d i) := by
  intro i
  rw [show exec .stageHeld s = execStageHeld s from rfl, execStageHeld, dieStep_eq hd ha]
  exact congrArg _ (if_pos ⟨hst, hb, hup⟩)

theorem exec_locketHoldRequest {k : Nat} (ha : s.arg 0 = d)
    (hk : lockWith s d (fun x => if x.relDies.contains d then [] else x.reqDies) = some k) (hy : bit (s.hub.rdy.getD d 0) 0 = true)
    (hm : (s.clasp (4 * d + 1)).mode ≠ 5) (hdue : beadsDue s d = false) :
    exec .locketHoldRequest s = .next ((s.onStages d (fun y => y.holdBy k (s.die k).lock.step)).onLock k (fun y =>
      { y with reqDies := y.reqDies.filter (· != d), setDies := y.setDies ++ [d] })) := by
  rw [show exec .locketHoldRequest s = execLocketHoldRequest s from rfl, execLocketHoldRequest, dieStep_eq hd ha]
  simp only [hk, hy, hdue, beq_false_of_ne hm]
  rfl

theorem exec_locketReleaseRequest {k : Nat} (ha : s.arg 0 = d) (hk : lockWith s d (fun x => x.relDies) = some k)
    (hdue : beadsDue s d = false) :
    exec .locketReleaseRequest s = .next ((s.onStages d (fun y => y.releaseBy k)).onLock k (fun y =>
      { y with relDies := y.relDies.filter (· != d) })) := by
  rw [show exec .locketReleaseRequest s = execLocketReleaseRequest s from rfl, execLocketReleaseRequest, dieStep_eq hd ha]
  simp only [hk, hdue]
  rfl

end

end Sys2Proof.Machine
end

section
/-! SUPPORT. The steps of the bead port and the scheduler put together (R289, R290, R375 to R386, R450, R451, R461, R470). -/

namespace Sys2Proof.Machine

/-- What a bead that enters a stage changes (R376, R385, R386). -/
theorem enterStage_cases {s : State} {d i : Nat} (hs : s.unflawed (.stage d i)) (b : Nat) :
    let z := s.stage d i
    let isOpen : Prop := ∃ o ∈ z.opens, o.step = beadStep b ∧ o.mb = beadMb b
    let failed : Prop := beadKind b ≠ 3 ∧ (beadStep b, beadMb b) ∈ z.failed
    (z.valid = false → enterStage s d i b = dropEvent s d i b 1) ∧
    (z.valid = true → failed → enterStage s d i b = s) ∧
    (z.valid = true → ¬failed → beadKind b = 2 → ¬isOpen →
      enterStage s d i b = failMb (dropEvent s d i b 4) d i (beadStep b) (beadMb b) 0xFC) ∧
    (z.valid = true → ¬failed → (beadKind b = 2 → isOpen) → z.dead = false →
      enterStage s d i b = s.setStage d i (z.onQueue b (· ++ [b]))) := by
  simp only [← Stage.isOpen_iff, ← Stage.hasFailed_iff, Bool.not_eq_true]
  exact ⟨enterStage_off hs, enterStage_failed hs, enterStage_absent hs, enterStage_joins hs⟩

/-- What a delivery changes of its stage and its tile (R378 to R380, R384, R385). -/
theorem giveBead_changes (s : State) (d i u b : Nat) (hb : b < 2 ^ 520) :
    let z := s.stage d i
    let v := (giveBead s d i u b).stage d i
    let closing : Prop := (beadKind b = if z.nnone then 1 else 2) ∧ z.stepMb ≠ 0
    (v.ctl, v.fwd, v.bwd) = ((z.onQueue b (·.drop 1)).ctl, (z.onQueue b (·.drop 1)).fwd, (z.onQueue b (·.drop 1)).bwd) ∧
      v.opens = z.opens ++ (if beadKind b = 1 then [{ step := beadStep b, mb := beadMb b, evicted := false }] else []) ∧
      v.warm = (if beadKind b = 1 then z.warm + 1 else z.warm) ∧ v.lastTile = u ∧
      v.lastBwd = (if beadKind b = 4 then z.lastBwd else some (beadKind b == 2)) ∧ (closing → v.closedSent = z.closedSent + 1) ∧
      (v.st, v.w0, v.w1, v.w2, v.closed, v.failed) = (z.st, z.w0, z.w1, z.w2, z.closed, z.failed) ∧
      ∃ b', ((giveBead s d i u b).tile (64 * d + u)).beads.mailbox =
          (s.tile (64 * d + u)).beads.mailbox ++ [b' + 2 ^ 520 * (i + 64 * epochOf s d)] ∧ b' < 2 ^ 520 ∧
        (bit b' 80 = true ↔ beadKind b = 2 ∧ ∃ o ∈ z.opens, o.step = beadStep b ∧ o.mb = beadMb b ∧ o.evicted = true) ∧
        (bit b' 81 = true ↔ closing ∧ z.closedSent + 1 + z.failedNow.length = z.stepMb) ∧
        ∀ k, k ≠ 80 → k ≠ 81 → bit b' k = bit b k := by
  intro z v closing
  have hv : v = z.given u b := by simp only [v, z, giveBead_eq, State.onTile_stage, State.setStage_stage]
  rw [hv]
  refine ⟨rfl, ?_, rfl, rfl, rfl, fun ⟨hc, hn⟩ => if_pos (by simp [Stage.isClosing_iff.2 hc, hn]), rfl, z.marked b, ?_,
    Stage.marked_lt hb, Stage.marked_noStash, Stage.marked_stepEnd, fun k => Stage.marked_other⟩
  · change (if beadKind b = 1 then _ else _) = _
    split <;> simp
  · rw [giveBead_eq, State.onTile_tile]
    rfl

/-- What a retirement changes of its stage (R380, R384, R386). -/
theorem retireBead_cases {s : State} {d b : Nat} (i st : Nat) (hup : s.claspUp (4 * d + 1) = true) (he : beadEpoch b = epochOf s d) :
    let z := s.stage d i
    let isOpen : Prop := ∃ o ∈ z.opens, o.step = beadStep b ∧ o.mb = beadMb b
    let closes : Prop := beadKind b = if z.nnone then 1 else 2
    (beadKind b = 3 → retireBead s d i b st = if st = 0 then s else tellPendant s d b st) ∧
    (beadKind b = 4 → retireBead s d i b st =
      if st = 0 then s else s.postDev d 6 (stageName s d i + beadStep b * 2 ^ 32) (beadMb b + st % 256 * 65536)) ∧
    (beadKind b = 1 ∨ beadKind b = 2 →
      (¬isOpen → retireBead s d i b st = s) ∧
      (isOpen → st ≠ 0 → retireBead s d i b st = failMb s d i (beadStep b) (beadMb b) st) ∧
      (isOpen → ¬closes → retireBead s d i b 0 = s) ∧
      (isOpen → closes → retireBead s d i b 0 = stepEnd d i (z.failed.length + 1) (s.setStage d i { z with
        opens := z.opens.filter (fun o => !(o.step == beadStep b && o.mb == beadMb b)),
        closed := if beadStep b = z.step ∧ z.stepMb ≠ 0 ∧ beadMb b ∉ z.closed then z.closed ++ [beadMb b] else z.closed }))) := by
  simp only [← Stage.isOpen_iff, ← Stage.isClosing_iff, Bool.not_eq_true]
  exact ⟨retireBead_pendant hup he, retireBead_control hup he, fun hk =>
    ⟨retireBead_closed hup he hk, retireBead_fails hup he hk, retireBead_passes hup he hk, retireBead_closes hup he hk⟩⟩

/-- The steps that a complete step ends (R383, R384). -/
theorem stepEnd_cases (s : State) (d i n : Nat) :
    let z := s.stage d i
    let name := stageName s d i
    let done : Prop := z.stepMb ≠ 0 ∧ (∀ o ∈ z.opens, o.step ≠ z.step) ∧
      z.stepMb ≤ (z.failedNow ++ z.closed.filter (fun m => !z.failedNow.contains m)).length
    let s1 := s.setStage d i { z with
      w2 := setFld z.w2 0 32 (z.step + 1), closed := [], closedSent := 0, warm := 0, failed := z.failed.filter (fun p => decide (z.step < p.1)),
      st := if z.st = .run ∧ ∃ p ∈ z.lhs, p.2 ≤ z.step then .holding else z.st }
    (¬done → stepEnd d i n s = s) ∧
    (done → stepEnd d i (n + 1) s = stepEnd d i n
      (if z.pnone then reportStep (s1.postDev d 4 (name + z.step * 2 ^ 32) 0) name z.step else s1)) := by
  simp only [← stepDone_iff, Bool.not_eq_true]
  exact ⟨fun h => stepEnd_open h n, fun h => stepEnd_done h n⟩

/-- Where a bead goes that is sent (R376, R420, R470). -/
theorem sendBead_cases (s : State) (d t b : Nat) :
    let k := bits (beadDst b) 6 4
    (beadDst b / 1024 = fld s.hub.prcfg 0 5 → s.claspUp (4 * k + 1) = true → beadPnd b = false →
      sendBead s d t b = s.onDie d (fun x => { x with transit := x.transit ++ [(k, t, b)] })) ∧
    (beadDst b / 1024 = fld s.hub.prcfg 0 5 → s.claspUp (4 * k + 1) = false → beadPnd b = false → sendBead s d t b = dropBead s d b 5) ∧
    (beadDst b / 1024 = fld s.hub.prcfg 0 5 → beadPnd b = true →
      sendBead s d t b = s.onDie d (fun x => { x with transit := x.transit ++ [(64 + k, t, b)] })) ∧
    (beadDst b / 1024 ≠ fld s.hub.prcfg 0 5 → peerOut s d (beadDst b / 1024) = true → sendBead s d t b = s) ∧
    (beadDst b / 1024 ≠ fld s.hub.prcfg 0 5 → peerOut s d (beadDst b / 1024) = false →
      sendBead s d t b = s.onDie d (fun x => { x with transit := x.transit ++ [(128 + beadDst b / 1024, t, b)] })) := by
  refine ⟨fun hm hup hp => ?_, fun hm hup hp => ?_, sendBead_pendant d t, fun hm hout => ?_, fun hm hout => ?_⟩
  · rw [sendBead_stage d t hm hp, if_pos hup]
  · rw [sendBead_stage d t hm hp, if_neg (by simp [hup])]
  · rw [sendBead_module d t hm, if_pos hout]
  · rw [sendBead_module d t hm, if_neg (by simp [hout])]

/-- Settles O44: each step of the port and the scheduler, then what an arrival, a delivery and a retirement change. -/
theorem schedulerSteps : Obligations.SchedulerSteps := by
  intro s t d ht hd
  refine ⟨?_, ?_, ?_, ?_, ?_, ?_, ?_, ?_, Stage.choose_cases _, fun b => Stage.stepDrop_iff, dropHeadBead_eq s d _, chosenDrop_cases s d _,
    ?_, ?_, stepEnd_cases s d _, ?_, sendBead_cases s d t, ?_, ?_, ?_, ?_, ?_, exec_stageHeld_idle hd, ?_, ?_⟩
  · -- A bead waited for its peer port
    exact fun k ha => exec_beadSendRelease_peer ht ha
  · -- A send
    exact fun b bs ha hp hs hbar hfree hup hsound => exec_beadSendRelease_send ht ha hp hs hbar hfree hup hsound
  · -- A retirement passes
    exact fun b bs ha => exec_beadDonePass ht ha
  · -- An arrival
    exact fun src k b ha hr => exec_beadArrival_next hd ha hr
  · -- An arrival by a peer port
    exact fun b rest ha => exec_beadArrival_peer hd ha
  · -- A delivery that gives its bead
    intro j u b ha hup hdue hj hf hc hu s1 hbad hb hdrop
    rw [exec_beadDelivery_serve hd ha hup hdue hj ⟨hf, hc⟩ hu]
    simp only [serveStage, s1, hbad, hb, hdrop]
  · -- A delivery that drops a bead
    intro j u b ha hup hdue hj hsound hu s1
    rw [exec_beadDelivery_serve hd ha hup hdue hj hsound hu]
    refine ⟨fun s2 hbad hb hdrop => ?_, fun hbad => ?_⟩
    · simp only [serveStage, s1, hbad, hb, hdrop]
    · simp only [serveStage, s1, hbad]
  · -- A bead enters its stage
    exact fun b hsound => enterStage_cases hsound b
  · -- What a delivery changes
    exact fun u b _ => giveBead_changes s d _ u b
  · -- What a retirement changes
    exact fun b st => retireBead_cases _ st
  · -- A micro-batch fails
    exact fun step mb st => ⟨rfl, fun hv => noteFailed_off hv step mb, fun hv => noteFailed_valid hv step mb,
      fun hv => passNotice_up hv step mb, fun hv => passNotice_down hv step mb, fun dest up h => sendNotice_here h d step mb up⟩
  · -- A bead goes back to its stage
    exact fun b he hup hst hv hf hk hn =>
      returnBead_forward he hup hst hv (Bool.eq_false_iff.2 (mt Stage.hasFailed_iff.1 hf)) hk hn
  · -- A task leaves its beads
    intro st x hmail
    rw [leaveBeads_noMail hmail]
    simp only [x]
    cases (s.tile t).beads.cur <;> rfl
  · -- A retirement is taken
    exact fun n u j b st ha hn hl hf hc => exec_beadRetirement_next hd ha hn hl ⟨hf, hc⟩
  · -- A notice is taken
    exact fun n src name step mb up ha hn hl => ⟨exec_failureNotice_leaves hd ha hn hl, exec_failureNotice_taken hd ha hn hl⟩
  · -- A peer module's notice
    exact fun j step mb up => exec_failureNotice_peer hd
  · -- A hold request
    exact fun k ha => exec_locketHoldRequest hd ha
  · -- A release request
    exact fun k ha => exec_locketReleaseRequest hd ha

end Sys2Proof.Machine
end

section
/-! SUPPORT. The base dies and their table; invalidations, one at a time and broadcast (R351, R352, R462, R481). -/

namespace Sys2Proof.Machine

theorem mbStep_eq {s : State} {m : Nat} (hm : m < 16) (ha : s.arg 0 = m) (f : Nat → State) : mbStep s f = .next (f m) := by
  rw [mbStep, ha, if_neg (by omega)]

@[simp] theorem State.setMb_mb_same (s : State) (m : Nat) (x : Mb) : (s.setMb m x).mb m = x := mget_mset_same _ _ _ _

theorem State.setMb_mb_ne (s : State) {m k : Nat} (x : Mb) (h : m ≠ k) : (s.setMb m x).mb k = s.mb k := mget_mset_ne _ _ _ h

/-- An invalidation at one base die, as invStep makes it (R351). -/
def invalidateAt (keep : TlbEnt → Bool) (s : State) (k : Nat) : State := s.setMb k (invalidate (s.mb k) keep)

/-! ## One base die -/

section
variable {s : State} {m : Nat} (hm : m < 16) (ha : s.arg 0 = m)
include hm ha

theorem invStep_taken {ok : Bool} (hok : ok = true) (hr : s.hub.rot = true) (word : Nat) (keep : TlbEnt → Bool) :
    invStep s ok word keep = .next (invalidateAt keep s m) := by
  simp only [invStep, ha, hok, hr, Bool.and_self, Bool.not_true, Bool.false_eq_true, if_false]
  rw [if_neg (by omega), if_neg (by omega)]
  rfl

theorem invStep_ignored {ok : Bool} (h : (ok && s.hub.rot) = false) (word : Nat) (keep : TlbEnt → Bool) :
    invStep s ok word keep = .next s := by
  simp only [invStep, ha, h, Bool.not_false, if_true]
  rw [if_neg (by omega)]

theorem exec_invcRange_taken (hr : s.hub.rot = true) (hspc : s.arg 1 < 3) (hlo : 1 ≤ s.arg 3) (hhi : s.arg 3 ≤ 16) :
    exec .invcRange s = .next (invalidateAt (fun e => e.spc != s.arg 1 || decide (s.arg 2 * 4096 + s.arg 3 * 65536 ≤ e.page) ||
      decide (e.page + e.size ≤ s.arg 2 * 4096)) s m) :=
  invStep_taken hm ha (by simp [hspc, hlo, hhi]) hr _ _

/-- There is no space 3 (R351). -/
theorem exec_invc_noSpace (hspc : s.arg 1 = 3) : exec .invcSpace s = .next s ∧ exec .invcRange s = .next s :=
  ⟨invStep_ignored hm ha (by simp [hspc]) _ _, invStep_ignored hm ha (by simp [hspc]) _ _⟩

theorem exec_invc_notOffered (hr : s.hub.rot = false) :
    exec .invcAll s = .next s ∧ exec .invcSpace s = .next s ∧ exec .invcRange s = .next s :=
  have hoff (ok : Bool) : (ok && s.hub.rot) = false := by rw [hr, Bool.and_false]
  ⟨invStep_ignored hm ha (hoff _) _ _, invStep_ignored hm ha (hoff _) _ _, invStep_ignored hm ha (hoff _) _ _⟩

theorem exec_invalidationDone (hb : (s.mb m).invBusy = true) (ho : translatedOpen s m = false) :
    exec .invalidationDone s = .next (s.setMb m { s.mb m with invBusy := false, inv := setFld (s.mb m).inv 1 1 1 }) := by
  change execInvalidationDone s = _
  simp only [execInvalidationDone, ha, hb, ho, if_neg (show m ≠ 16 by omega), Bool.not_false, and_self, if_true]
  rw [if_neg (by omega)]

end

/-! ## The broadcast copy -/

theorem foldl_invalidateAt_mb (keep : TlbEnt → Bool) {l : List Nat} (hl : l.Nodup) (s : State) (k : Nat) :
    (l.foldl (invalidateAt keep) s).mb k = if k ∈ l then invalidate (s.mb k) keep else s.mb k := by
  induction l generalizing s with
  | nil => simp
  | cons a l ih =>
    obtain ⟨ha, hl⟩ := List.nodup_cons.1 hl
    rw [List.foldl_cons, ih hl]
    by_cases hk : a = k
    · subst hk
      simp [ha, invalidateAt]
    · simp [invalidateAt, State.setMb_mb_ne _ _ hk, Ne.symm hk]

/-- Invalidations change the table of base dies and nothing else. -/
theorem foldl_invalidateAt_eq (keep : TlbEnt → Bool) (l : List Nat) (s : State) :
    ∃ mbs, l.foldl (invalidateAt keep) s = { s with mbs := mbs } := by
  induction l generalizing s with
  | nil => exact ⟨s.mbs, rfl⟩
  | cons k l ih => exact ih (invalidateAt keep s k)

/-- The write of the broadcast copy waits for the base dies that no spine leads to (R462). -/
def invWaits (s : State) (word : Nat) : State :=
  s.onHub (fun h => { h with
    writes := h.writes ++ ((List.range 16).filter (fun k => !spineOk s k 0)).map (fun k => [invcOff k, word, 0]) })

theorem invStep_broadcast {s : State} (ha : s.arg 0 = 16) (hr : s.hub.rot = true) (word : Nat) (keep : TlbEnt → Bool) :
    invStep s true word keep =
      .next (((List.range 16).filter (fun k => spineOk s k 0)).foldl (invalidateAt keep) (invWaits (invalidateAt keep s 16) word)) := by
  simp only [invStep, ha, hr, Bool.and_self, Bool.not_true, Bool.false_eq_true, if_false, if_true]
  rfl

/-- A broadcast invalidation drops what it covers in HD0's copy and at the base dies in reach, leaves the others their write, and changes
nothing else. -/
theorem invStep_broadcast_frame {s : State} (ha : s.arg 0 = 16) (hr : s.hub.rot = true) (word : Nat) (keep : TlbEnt → Bool) :
    ∃ t, invStep s true word keep = .next t ∧
      (∀ k < 16, t.mb k = if spineOk s k 0 then invalidate (s.mb k) keep else s.mb k) ∧ t.mb 16 = invalidate (s.mb 16) keep ∧
      ∃ mbs, t = { invWaits s word with mbs := mbs } := by
  have hmb := foldl_invalidateAt_mb keep ((List.nodup_range (n := 16)).filter (fun k => spineOk s k 0)) (invWaits (invalidateAt keep s 16) word)
  refine ⟨_, invStep_broadcast ha hr word keep, fun k hk => ?_, ?_, foldl_invalidateAt_eq keep _ _⟩
  · have hcopy : (invWaits (invalidateAt keep s 16) word).mb k = s.mb k := State.setMb_mb_ne _ _ (by omega)
    simp only [hmb, hcopy, List.mem_filter, List.mem_range, hk, true_and]
  · have hcopy : (invWaits (invalidateAt keep s 16) word).mb 16 = invalidate (s.mb 16) keep := State.setMb_mb_same _ _ _
    simp [hmb, hcopy]

end Sys2Proof.Machine
end

section
/-! SUPPORT. FRES, the scrubber and the activation counts at one base die (R326, R331, R349, R478, R481). -/

namespace Sys2Proof.Machine

/-! ## Fault records -/

section
variable {s : State} {m : Nat} (hm : m < 16) (ha : s.arg 0 = m)
include hm ha

theorem exec_fres_ignored (hr : s.hub.rot = true) (hn : (s.mb m).rec? (s.arg 1) = none) :
    exec .fresRetry s = .next (fresIgnored s m) ∧ exec .fresEnd s = .next (fresIgnored s m) := by
  constructor
  · change execFresRetry s = _
    simp only [execFresRetry, mbStep_eq hm ha, hr, if_true, hn]
  · change execFresEnd s = _
    simp only [execFresEnd, mbStep_eq hm ha, hr, if_true, hn]

theorem exec_fresRetry_taken {q : FRec} (hr : s.hub.rot = true) (hq : (s.mb m).rec? (s.arg 1) = some q) :
    exec .fresRetry s = .next (pumpAll (freeQueues ((s.setMb m ((s.mb m).drop (s.arg 1))).mapTiles (fun _ y => retryTile m (s.arg 1) y))
      m (s.arg 1) false (fun _ => true))) := by
  change execFresRetry s = _
  simp only [execFresRetry, mbStep_eq hm ha, hr, if_true, hq]

theorem exec_fresEnd_taken {q : FRec} (hr : s.hub.rot = true) (hq : (s.mb m).rec? (s.arg 1) = some q) :
    exec .fresEnd s = .next (pumpAll (endRecord (s.setMb m ((s.mb m).drop (s.arg 1))) m (s.arg 1) q.reason)) := by
  change execFresEnd s = _
  simp only [execFresEnd, mbStep_eq hm ha, hr, if_true, hq]

theorem exec_fres_notOffered (hr : s.hub.rot = false) : exec .fresRetry s = .next s ∧ exec .fresEnd s = .next s := by
  constructor
  · change execFresRetry s = _
    simp only [execFresRetry, mbStep_eq hm ha, hr, Bool.false_eq_true, if_false]
  · change execFresEnd s = _
    simp only [execFresEnd, mbStep_eq hm ha, hr, Bool.false_eq_true, if_false]

end

/-- A record's requesters ended at every die, its answer at the base die gone (R349). -/
def endEverywhere (s : State) (m seq reason : Nat) : State :=
  let s0 := s.setMb m { s.mb m with answers := (s.mb m).answers.filter (fun p => p.1 != seq) }
  let s1 := freeQueues (s0.mapTiles (fun _ y => { y with chans := y.chans.map (freeChan m seq true) })) m seq true (fun _ => true)
  s1.tileNums.foldl (fun s t =>
    ((s.tile t).reqs.filter (fun r => r.st == .held && r.mb == m && r.seq == seq)).foldl (fun s r => endReq s t reason r) s) s1

/-- With a way to every die and nothing that waits on it any longer, a record leaves no answer behind (R349, R461). -/
theorem endRecord_everywhere {s : State} {m : Nat} (hring : ∀ d, ringOk s m d = true) {seq reason : Nat}
    (hw : waitsOn (endEverywhere s m seq reason) m seq = false) : endRecord s m seq reason = endEverywhere s m seq reason := by
  simp only [endRecord, hring, if_true, List.filter_true]
  exact if_neg (Bool.eq_false_iff.1 hw)

/-! ## Housekeeping -/

/-- The sector that a scrub read of base die m reads (R326). -/
def scrubPlace (s : State) (m : Nat) : Nat := homeKey (if s.arg 3 = 1 then 2 else 1) m (32 * s.arg 1)

/-- A scrub read of base die m with nothing found yet (R326). -/
def scrubMoved (s : State) (m : Nat) : State := s.setMb m { s.mb m with scrub := s.arg 1 + 1 }

/-- What the state counts for the row of base die m that a step names (R331). -/
def activations (s : State) (m : Nat) : Nat := mget 0 s.codes.rows (m * 2 ^ 64 + s.arg 1)

section
variable {s : State} {m : Nat} (hm : m < 16) (ha : s.arg 0 = m)
include hm ha

theorem exec_scrubRead_rested (h : (asleep s (scrubPlace s m) || !backed s (scrubPlace s m) 32) = true) : exec .scrubRead s = .next s := by
  change execScrubRead s = _
  rw [execScrubRead, mbStep_eq hm ha]
  exact congrArg _ (if_pos h)

section
variable (h : (asleep s (scrubPlace s m) || !backed s (scrubPlace s m) 32) = false)
include h

theorem exec_scrubRead_sound (hn : s.arg 2 = 0) : exec .scrubRead s = .next ((scrubMoved s m).reads (scrubPlace s m) 32) := by
  change execScrubRead s = _
  rw [execScrubRead, mbStep_eq hm ha]
  refine congrArg _ ((if_neg (Bool.eq_false_iff.1 h)).trans ?_)
  simp only [hn, if_true]
  rfl

theorem exec_scrubRead_corrected (hn : s.arg 2 = 1 ∨ s.arg 2 = 2) : exec .scrubRead s =
    .next ({ scrubMoved s m with
      codes := { s.codes with flaws := .unit (scrubPlace s m) .corrected :: s.codes.flaws } }.reads (scrubPlace s m) 32) := by
  have hne : s.arg 2 ≠ 0 := by omega
  have hle : s.arg 2 ≤ 2 := by omega
  change execScrubRead s = _
  rw [execScrubRead, mbStep_eq hm ha]
  refine congrArg _ ((if_neg (Bool.eq_false_iff.1 h)).trans ?_)
  simp only [hne, hle, if_true, if_false]
  rfl

end

theorem exec_activationAlert_given (hlo : 2048 ≤ activations s m) (hhi : activations s m < 2 ^ 32) :
    exec .activationAlert s = .next
      ({ s with codes := { s.codes with
        rows := mset s.codes.rows (m * 2 ^ 64 + s.arg 1) (activations s m + 2 ^ 32) } }.setMb m { s.mb m with
          alerts := (s.mb m).alerts + 1, throttle := mset (s.mb m).throttle (s.arg 1 / 2 ^ 32) (s.hub.gtc + 50000),
          log := ((s.mb m).log ++ [(s.arg 1, s.hub.gtc)]).drop ((s.mb m).log.length + 1 - 64) }) := by
  have hdue : ¬(activations s m < 2048 ∨ 2 ^ 32 ≤ activations s m) := not_or.2 ⟨hlo.not_gt, hhi.not_ge⟩
  change execActivationAlert s = _
  simp only [activations] at hdue ⊢
  simp only [execActivationAlert, mbStep_eq hm ha, if_neg hdue, List.length_append, List.length_singleton]

theorem exec_activationAlert_ignored (h : activations s m < 2048 ∨ 2 ^ 32 ≤ activations s m) : exec .activationAlert s = .next s := by
  change execActivationAlert s = _
  rw [execActivationAlert, mbStep_eq hm ha]
  exact congrArg _ (if_pos h)

theorem exec_gatherThrottleEnd_past (h : mget 0 (s.mb m).throttle (s.arg 1) ≤ s.hub.gtc) :
    exec .gatherThrottleEnd s = .next (s.setMb m { s.mb m with throttle := mdel (s.mb m).throttle (s.arg 1) }) := by
  change execGatherThrottleEnd s = _
  simp only [execGatherThrottleEnd, mbStep_eq hm ha, if_pos h]

theorem exec_refreshWindowEnd : exec .refreshWindowEnd s = .next { s.setMb m { s.mb m with window := s.hub.gtc } with
    codes := { s.codes with rows := s.codes.rows.filter (fun p => p.1 / 2 ^ 64 != m) } } := by
  change execRefreshWindowEnd s = _
  rw [execRefreshWindowEnd, mbStep_eq hm ha]

end

/-- Settles O38: each step of a base die by its own lemma, and a broadcast invalidation by its frame. -/
theorem baseDieSteps : Obligations.BaseDieSteps := by
  intro s m hm ha x seq rot cut place rested scrubbed count
  refine ⟨fun hr hn => exec_fres_ignored hm ha hr hn, fun q hr hq => ⟨exec_fresRetry_taken hm ha hr hq, exec_fresEnd_taken hm ha hr hq⟩,
    fun _ hring => endRecord_everywhere hring, fun hr => invStep_taken hm ha rfl hr _ _,
    fun hr hspc => invStep_taken hm ha (decide_eq_true hspc) hr _ _, fun hr hspc hlo hhi => exec_invcRange_taken hm ha hr hspc hlo hhi,
    fun hspc => exec_invc_noSpace hm ha hspc, fun hr => ?_, fun hb ho => exec_invalidationDone hm ha hb ho,
    fun h => exec_scrubRead_rested hm ha h, fun h hn => exec_scrubRead_sound hm ha h hn, fun h hn => exec_scrubRead_corrected hm ha h hn,
    fun hlo hhi => exec_activationAlert_given hm ha hlo hhi, fun h => exec_activationAlert_ignored hm ha h,
    fun h => exec_gatherThrottleEnd_past hm ha h, exec_refreshWindowEnd hm ha, fun word keep hr => ?_⟩
  · -- The registers are not offered
    obtain ⟨hretry, hend⟩ := exec_fres_notOffered hm ha hr
    exact ⟨hretry, hend, exec_invc_notOffered hm ha hr⟩
  · -- The broadcast copy
    obtain ⟨t, hstep, hdies, hcopy, mbs, rfl⟩ := invStep_broadcast_frame (s := { s with args := [16] }) rfl hr word keep
    exact ⟨_, hstep, hdies, hcopy, rfl, rfl, rfl, rfl, rfl⟩

end Sys2Proof.Machine
end

section
/-! SUPPORT. Range registers and the global addresses that they match (R337, R338, R394). -/

namespace Sys2Proof.Machine

/-! ## One range register -/

theorem bits_all {x lo w : Nat} (h : x < 2 ^ (lo + w)) : bits x lo w = x / 2 ^ lo :=
  Nat.mod_eq_of_lt (Nat.div_lt_of_lt_mul (by rwa [← pow_add]))

theorem fld_flag (r : Word) (k : Nat) : fld r k 1 = b2n (r.getLsbD k) := by
  rw [fld, bits_one, bit_eq_testBit]
  rfl

theorem fld_flag_set (r : Word) (k : Nat) : (fld r k 1 == 1) = r.getLsbD k := by
  rw [fld_flag]
  cases r.getLsbD k <;> rfl

theorem fld_flag_clear (r : Word) (k : Nat) : (fld r k 1 == 0) = !r.getLsbD k := by
  rw [fld_flag]
  cases r.getLsbD k <;> rfl

/-- The comparison of R337 looks at all that a global address and VB hold above the size of the region. -/
theorem rgMatch_iff {a : Nat} (ha : a < 2 ^ 56) (r : Word) : rgMatch a r = true ↔
    r.getLsbD 0 = true ∧ bits a (30 + fld r 11 5) (26 - fld r 11 5) = bits (fld r 38 26) (fld r 11 5) (26 - fld r 11 5) := by
  have hvb : fld r 38 26 < 2 ^ 26 := bits_lt _ _ _
  rw [rgMatch, fld_flag_set, Bool.and_eq_true, beq_iff_eq, bits_all (ha.trans_le (Nat.pow_le_pow_right two_pos (by omega))),
    bits_all (hvb.trans_le (Nat.pow_le_pow_right two_pos (by omega)))]

/-! ## The check of an access -/

theorem isGlobal_iff {a : Nat} : isGlobal a = true ↔ Config.globalBase ≤ a ∧ a < 2 ^ 56 := by
  rw [isGlobal, Bool.and_eq_true, decide_eq_true_iff, decide_eq_true_iff]

theorem sortLocal_global {a : Nat} (ha : Config.globalBase ≤ a) (self : Nat) : sortLocal self a = none := by
  have hg : 0x100000000000 ≤ a := ha
  rw [sortLocal, if_neg (by simp only [Config.scratchBytes]; omega), if_neg (by simp only [Config.scratchBytes]; omega),
    if_neg (by omega)]

section
variable {s : State} {a : Nat} (hlo : Config.globalBase ≤ a) (hhi : a < 2 ^ 56) {rd wr : Bool}
include hlo hhi

theorem checkRegion_unmatched (hn : s.core.ranges.find? (rgMatch a) = none) : checkRegion s a rd wr false = .error (.range, a) := by
  simp only [checkRegion, sortLocal_global hlo, isGlobal_iff.2 ⟨hlo, hhi⟩, if_true, hn]

/-- The register that matches first decides, by its R and its W (R337, R338). -/
theorem checkRegion_matched {r : Word} (hr : s.core.ranges.find? (rgMatch a) = some r) :
    checkRegion s a rd wr false =
      if (rd = true → r.getLsbD 1 = true) ∧ (wr = true → r.getLsbD 2 = true) then
        .ok { cls := fld r 8 3, tgt := rgTgt r, place := rgDia a r, own := false, swz := false }
      else .error (.perm, a) := by
  simp only [checkRegion, sortLocal_global hlo, isGlobal_iff.2 ⟨hlo, hhi⟩, if_true, hr, fld_flag_clear, Bool.false_and, Bool.or_false]
  have hrefused : (rd && !r.getLsbD 1 || wr && !r.getLsbD 2) = true ↔ ¬((rd = true → r.getLsbD 1 = true) ∧ (wr = true → r.getLsbD 2 = true)) := by
    simp only [Bool.or_eq_true, Bool.and_eq_true, Bool.not_eq_true', ← Bool.not_eq_true, not_and_or, Classical.not_imp]
  exact (if_congr hrefused rfl rfl).trans (ite_not ..)

end

/-- Settles O50: the check looks for the first register that matches, MRNG before the others at supervisor level. -/
theorem rangeMatch : Obligations.RangeMatch := by
  intro s a rd wr hlo hhi rs hit ok
  have hiff (r : Word) : rgMatch a r = true ↔ hit r := rgMatch_iff hhi r
  refine ⟨fun hn => checkRegion_unmatched hlo hhi (List.find?_eq_none.2 fun r hr => ?_), fun pre r post hrs hpre hr => ?_⟩
  · rw [hiff]
    exact hn r hr
  · have hfirst : s.core.ranges.find? (rgMatch a) = some r :=
      List.find?_eq_some_iff_append.2 ⟨(hiff r).2 hr, pre, post, hrs, fun x hx => by
        rw [Bool.not_eq_true', ← Bool.not_eq_true, hiff]
        exact hpre x hx⟩
    rw [checkRegion_matched hlo hhi hfirst]
    exact ⟨fun hok => ⟨_, if_pos hok, rfl, rfl, rfl⟩, fun hok => if_neg hok⟩

end Sys2Proof.Machine
end

section
/-! SUPPORT. The links, the features, the clocks and the power states of the module (R12, R444, R460 to R462, R469 to R472, R477, R478). -/

namespace Sys2Proof.Machine

theorem Hub.rot_of {h : Hub} (hr : h.booted = true ∧ h.tripped = false) : h.rot = true := by
  rw [Hub.rot, hr.1, hr.2]
  rfl

/-! ## Links -/

theorem spineOk_congr {s s' : State} (h : s'.hub.links = s.hub.links) (d hub : Nat) : spineOk s' d hub = spineOk s d hub := by
  simp only [spineOk, linkState, h]

theorem setLink_down {s : State} {l : Nat} (h : linkState s l ≠ 0) :
    setLink s l 0 = pumpAll ((s.onHub (fun h => { h with links := mset h.links l 0 })).postMgmt 0x0C l 0) := if_neg h

theorem setLink_up {s : State} {l : Nat} (h : linkState s l = 0) :
    setLink s l 1 = pumpAll (pumpAnswers ((s.onHub (fun h => { h with links := mset h.links l 1 })).postMgmt 0x0C (l + 256) 0)) :=
  if_neg (by rw [h]; decide)

section
variable {s : State}

theorem exec_linkRetry (h : s.arg 0 < 35) : exec .linkRetry s = .next s := if_neg (by omega)

theorem exec_hopDown (h : s.arg 0 < 35) : exec .hopDown s = .next (setLink s (s.arg 0) 0) := if_neg (by omega)

theorem exec_peerPortUp_fits (h : s.arg 0 < 2) (hfits : fld s.hub.prcfg 10 1 = 1 ∧ fld s.hub.prcfg 0 5 < fld s.hub.prcfg 5 5 + 1 ∧
    s.arg 1 = fld s.hub.prcfg 5 5 + 1 ∧
    s.arg 2 = (if s.arg 0 = 0 then fld s.hub.prcfg 0 5 + 1 else fld s.hub.prcfg 0 5 + (fld s.hub.prcfg 5 5 + 1) - 1) % (fld s.hub.prcfg 5 5 + 1)) :
    exec .peerPortUp s = .next (setLink s (34 - s.arg 0) 1) :=
  (if_neg (by omega)).trans (if_pos hfits)

theorem exec_hopRetrain_noSpine (h : s.arg 0 < 16) (hsp : spineOk s (s.arg 0) 0 = false) : exec .hopRetrain s = .next s :=
  (if_neg (by omega)).trans (if_pos (by rw [hsp]; rfl))

theorem exec_hopRetrain_written {v : Nat} (h : s.arg 0 < 16) (hv : s.hub.lanesNext = some v) (hsp : spineOk s (s.arg 0) 0 = true) :
    exec .hopRetrain s = .next (setLink (s.onHub (fun h =>
      { h with lanes := setBits h.lanes (2 * s.arg 0) 2 (bits v (2 * s.arg 0) 2) })) (s.arg 0) 1) := by
  change execHopRetrain s = _
  simp only [execHopRetrain, if_neg (Nat.not_le.2 h), hsp, hv, Bool.not_true, Bool.false_eq_true, if_false]

/-! ## Features and clocks -/

/-- An accepted write of FEATACC once the configuration has verified, by what FEATACC holds (R472, R481). -/
theorem exec_feataccWrite (hr : s.hub.rot = true) : exec .feataccWrite s = .next (s.onHub (fun h =>
    if bit h.featacc 0 then { h with fstat := withBit h.fstat 1 }
    else if bit (s.arg 0 % 2 ^ 256) 0 ∧ s.arg 0 % 2 ^ 256 &&& h.flash.featcap = s.arg 0 % 2 ^ 256 then { h with featacc := s.arg 0 % 2 ^ 256 }
    else { h with fstat := withBit h.fstat 0 })) := if_neg (by rw [hr]; decide)

theorem exec_feataccWrite_first (hr : s.hub.rot = true) (hv : s.arg 0 < 2 ^ 256) (h0 : bit (s.arg 0) 0 = true)
    (hcap : s.arg 0 &&& s.hub.flash.featcap = s.arg 0) (hfree : bit s.hub.featacc 0 = false) :
    exec .feataccWrite s = .next (s.onHub (fun h => { h with featacc := s.arg 0 })) := by
  rw [exec_feataccWrite hr, Nat.mod_eq_of_lt hv]
  simp only [State.onHub, hfree, h0, hcap, Bool.false_eq_true, if_false, and_self, if_true]

theorem exec_feataccWrite_again (hr : s.hub.rot = true) (hset : bit s.hub.featacc 0 = true) :
    exec .feataccWrite s = .next (s.onHub (fun h => { h with fstat := withBit h.fstat 1 })) := by
  rw [exec_feataccWrite hr]
  simp only [State.onHub, hset, if_true]

theorem exec_clkWrite_taken (hr : s.hub.rot = true) (hd : s.arg 0 < 16) (hv : s.arg 1 % 16 < 10) :
    exec .clkWrite s = .next (s.onDie (s.arg 0) (fun d => { d with clkNext := some (s.arg 1 % 16) })) := by
  change execClkWrite s = _
  rw [execClkWrite, dieStep_eq hd rfl]
  simp only [hr, Nat.not_le.2 hv, Bool.not_true, decide_false, Bool.or_self, Bool.false_eq_true, if_false]

theorem exec_clockSwitch_waiting {v : Nat} (hd : s.arg 0 < 16) (hv : (s.die (s.arg 0)).clkNext = some v) :
    exec .clockSwitch s = .next (s.onDie (s.arg 0) (fun d => { d with clk := v, clkNext := none })) := by
  change execClockSwitch s = _
  rw [execClockSwitch, dieStep_eq hd rfl]
  simp only [State.onDie, hv]

end

/-! ## A write of GATE, SREF or TGATE -/

theorem bit_two_pow (d e : Nat) : bit (2 ^ d) e = decide (d = e) := by
  rw [bit_eq_testBit, Nat.testBit_two_pow]

theorem setBits_bit_self (x k : Nat) : setBits x k 1 (b2n (bit x k)) = x := by
  refine Nat.eq_of_testBit_eq fun j => ?_
  rw [← bit_eq_testBit, ← bit_eq_testBit]
  by_cases h : j = k
  · rw [h, bit_setBits_same]
  · exact bit_setBits_other h

theorem bit_zero (k : Nat) : bit 0 k = false := by
  rw [bit_eq_testBit, Nat.zero_testBit]

theorem setBits_zero_one (k : Nat) : setBits 0 k 1 (b2n true) = 2 ^ k := by simp [setBits, bits, b2n]

theorem withBit_clear {x k : Nat} (h : bit x k = false) : withBit x k = x + 2 ^ k := if_neg (Bool.eq_false_iff.1 h)

theorem without_zero (v : Nat) : without 0 v = 0 := by simp [without, bit_zero]

theorem dieBits_sref (h : Hub) : dieBits h 0x1001088 = h.sref := rfl

theorem dieBits_tgate (h : Hub) : dieBits h 0x1001098 = h.tgate := rfl

/-- The part of die d in a write of value v: at its die, or left waiting (R462, R477). -/
def dieBitStep (off v : Nat) (s : State) (d : Nat) : State :=
  if spineOk s d 0 then dieBit off d (bit v d) s
  else if bit v d = bit (dieBits s.hub off) d then s
  else s.onHub (fun h => { h with writes := h.writes ++ [[off, b2n (bit v d), 0, d]] })

/-- A new write of a register takes the place of what waited of an older one. -/
def dropWaiting (s : State) (off : Nat) : State :=
  s.onHub (fun h => { h with writes := h.writes.filter (fun w => !(w.headD 0 == off && w.length == 4)) })

theorem dieBitsWrite_eq (s : State) (off v : Nat) :
    dieBitsWrite s off v = (List.range 16).foldl (dieBitStep off v) (dropWaiting s off) := rfl

/-- A die whose bit is written as it stands does nothing. -/
theorem dieBitStep_same {off v d : Nat} {s : State} (hoff : off = 0x1001080 ∨ off = 0x1001088 ∨ off = 0x1001098)
    (h : bit v d = bit (dieBits s.hub off) d) : dieBitStep off v s d = s := by
  rw [dieBitStep, if_pos h, ite_eq_right_iff, h]
  intro _
  obtain rfl | rfl | rfl := hoff
  · rw [dieBit, if_pos rfl, if_neg (by simp [dieBits]), State.onHub]
    exact congrArg (fun g => { s with hub := { s.hub with gate := g } }) (setBits_bit_self s.hub.gate d)
  · exact congrArg (fun g => { s with hub := { s.hub with sref := g } }) (setBits_bit_self s.hub.sref d)
  · exact congrArg (fun g => { s with hub := { s.hub with tgate := g } }) (setBits_bit_self s.hub.tgate d)

/-! ## Gating -/

theorem loseBead_hub (s : State) (b : Nat) : (loseBead s b).hub = s.hub := by
  rw [loseBead, apply_ite State.hub]
  exact ite_self _

theorem gateDie_gate (s : State) (d : Nat) : (gateDie s d).hub.gate = s.hub.gate := by
  have hbeads (l : List Nat) (s : State) : (l.foldl loseBead s).hub = s.hub :=
    l.foldlRecOn loseBead (motive := fun t => t.hub = s.hub) rfl fun t ht b _ => (loseBead_hub t b).trans ht
  change (List.foldl loseBead (s.onHub _) _).hub.gate = _
  rw [hbeads]
  rfl

/-- A pass over the dies of which only one does something. -/
theorem foldl_range_single {σ : Type} {f : σ → Nat → σ} {s : σ} {d : Nat} (hbefore : ∀ e, e ≠ d → f s e = s)
    (hafter : ∀ e, e ≠ d → f (f s d) e = f s d) (n : Nat) : (List.range n).foldl f s = if d < n then f s d else s := by
  induction n with
  | zero => rfl
  | succ n ih =>
    rw [List.range_succ, List.foldl_append, ih, List.foldl_cons, List.foldl_nil]
    rcases Nat.lt_trichotomy d n with h | rfl | h
    · rw [if_pos h, if_pos (by omega), hafter n (by omega)]
    · rw [if_neg (by omega), if_pos (by omega)]
    · rw [if_neg (by omega), if_neg (by omega), hbefore n (by omega)]

/-- A write of one bit of GATE, with none set before, is the step of its die alone. -/
theorem dieBitsWrite_gate_single {s : State} {d : Nat} (hd : d < 16) (hg : s.hub.gate = 0) (hw : ∀ w ∈ s.hub.writes, w.length ≠ 4)
    (hsp : spineOk s d 0 = true) :
    dieBitsWrite s 0x1001080 (2 ^ d) = if dieBusy s d then s.onHub (fun h => { h with ref := withBit h.ref d })
      else gateDie (s.onHub (fun h => { h with gate := 2 ^ d })) d := by
  have hdrop : dropWaiting s 0x1001080 = s := by
    refine congrArg (fun ws => { s with hub := { s.hub with writes := ws } }) (List.filter_eq_self.2 fun w hin => ?_)
    simp [hw w hin]
  have hstep : dieBitStep 0x1001080 (2 ^ d) s d = if dieBusy s d then s.onHub (fun h => { h with ref := withBit h.ref d })
      else gateDie (s.onHub (fun h => { h with gate := 2 ^ d })) d := by
    rw [dieBitStep, if_pos hsp, dieBit, if_pos rfl, bit_two_pow, hg, if_pos (by simp [bit_zero])]
    simp only [State.onHub, hg, setBits_zero_one, decide_true]
  have hother {t : State} (ht : t.hub.gate = 0 ∨ t.hub.gate = 2 ^ d) (e : Nat) (he : e ≠ d) : dieBitStep 0x1001080 (2 ^ d) t e = t := by
    refine dieBitStep_same (.inl rfl) ?_
    rw [bit_two_pow, decide_eq_false he.symm, show dieBits t.hub 0x1001080 = t.hub.gate from rfl]
    rcases ht with h | h
    · rw [h, bit_zero]
    · rw [h, bit_two_pow, decide_eq_false he.symm]
  rw [dieBitsWrite_eq, hdrop, foldl_range_single (hother (.inl hg)) (hother ?_), if_pos hd, hstep]
  rw [hstep]
  split
  · exact .inl hg
  · exact .inr (gateDie_gate _ d)

section
variable {s : State} {d : Nat} (hr : s.hub.rot = true) (hd : d < 16) (ha : s.arg 0 = 2 ^ d) (hg : s.hub.gate = 0) (hf : s.hub.ref = 0)
  (hsp : spineOk s d 0 = true) (hw : ∀ w ∈ s.hub.writes, w.length ≠ 4)
include hr hd ha hg hf hsp hw

theorem exec_gateWrite_single : exec .gateWrite s = .next (if dieBusy s d then s.onHub (fun h => { h with gate := 0, ref := 2 ^ d })
    else gateDie (s.onHub (fun h => { h with gate := 2 ^ d, ref := 0 })) d) := by
  have href : s.onHub (fun h => { h with ref := without h.ref (bits (s.arg 0) 16 16) }) = s := by
    simp only [State.onHub, hf, without_zero]
    rw [← hf]
  change execGateWrite s = _
  rw [execGateWrite, if_neg (by rw [hr]; decide)]
  simp only [href]
  rw [ha, dieBitsWrite_gate_single hd hg hw hsp, State.onHub, State.onHub, State.onHub, State.onHub, hf, hg, withBit_clear (bit_zero d), zero_add]

end

/-! ## Self-refresh and the second tier's gates -/

/-- What a write of v into the bits of SREF or TGATE has done once the first n dies have had their part (R462, R477, R478). -/
structure BitsWritten (off v n : Nat) (s s' : State) : Prop where
  links : s'.hub.links = s.hub.links
  reached : ∀ d < n, spineOk s d 0 = true → bit (dieBits s'.hub off) d = bit v d
  kept : ∀ d, n ≤ d ∨ spineOk s d 0 = false → bit (dieBits s'.hub off) d = bit (dieBits s.hub off) d
  waits : ∀ d < n, spineOk s d 0 = false → bit v d ≠ bit (dieBits s.hub off) d → [off, b2n (bit v d), 0, d] ∈ s'.hub.writes

theorem bitsWritten_zero (off v : Nat) (s : State) : BitsWritten off v 0 s (dropWaiting s off) where
  links := rfl
  reached d hd := absurd hd d.not_lt_zero
  kept _ _ := rfl
  waits d hd := absurd hd d.not_lt_zero

/-- Where a spine leads to it a die takes its bit, which no gate guards. -/
theorem dieBit_hub {off : Nat} (hoff : off = 0x1001088 ∨ off = 0x1001098) (d : Nat) (b : Bool) (s : State) :
    (dieBit off d b s).hub.links = s.hub.links ∧ (dieBit off d b s).hub.writes = s.hub.writes ∧
      dieBits (dieBit off d b s).hub off = setBits (dieBits s.hub off) d 1 (b2n b) := by
  obtain rfl | rfl := hoff <;> exact ⟨rfl, rfl, rfl⟩

theorem bitsWritten_step {off v n : Nat} {s t : State} (hoff : off = 0x1001088 ∨ off = 0x1001098) (ht : BitsWritten off v n s t) :
    BitsWritten off v (n + 1) s (dieBitStep off v t n) := by
  obtain ⟨links, reached, kept, waits⟩ := ht
  rw [dieBitStep, spineOk_congr links]
  by_cases hsp : spineOk s n 0 = true
  · obtain ⟨hl, hw, hb⟩ := dieBit_hub hoff n (bit v n) t
    rw [if_pos hsp]
    refine ⟨hl.trans links, fun d hd hd' => ?_, fun d hd => ?_, fun d hd hd' hne => ?_⟩
    · rw [hb]
      by_cases h : d = n
      · rw [h, bit_setBits_same]
      · rw [bit_setBits_other h, reached d (by omega) hd']
    · have hne : d ≠ n := by
        rintro rfl
        rcases hd with h | h
        · omega
        · simp [hsp] at h
      rw [hb, bit_setBits_other hne, kept d (hd.imp_left (by omega))]
    · have hne' : d ≠ n := by
        rintro rfl
        simp [hsp] at hd'
      rw [hw]
      exact waits d (by omega) hd' hne
  · have hlt {d : Nat} (hd : d < n + 1) (hd' : spineOk s d 0 = true) : d < n := by
      have hne : d ≠ n := fun h => hsp (h ▸ hd')
      omega
    rw [if_neg hsp]
    split
    · next hsame =>
      refine ⟨links, fun d hd hd' => reached d (hlt hd hd') hd', fun d hd => kept d (hd.imp_left (by omega)), fun d hd hd' hne => ?_⟩
      rcases Nat.lt_succ_iff_lt_or_eq.1 hd with h | rfl
      · exact waits d h hd' hne
      · exact absurd (hsame.trans (kept d (.inl le_rfl))) hne
    · refine ⟨links, fun d hd hd' => reached d (hlt hd hd') hd', fun d hd => kept d (hd.imp_left (by omega)), fun d hd hd' hne => ?_⟩
      refine List.mem_append.2 ?_
      rcases Nat.lt_succ_iff_lt_or_eq.1 hd with h | rfl
      · exact .inl (waits d h hd' hne)
      · exact .inr (List.mem_singleton.2 rfl)

theorem dieBitsWrite_bits {off : Nat} (hoff : off = 0x1001088 ∨ off = 0x1001098) (s : State) (v : Nat) :
    BitsWritten off v 16 s (dieBitsWrite s off v) := by
  have hall (n : Nat) : BitsWritten off v n s ((List.range n).foldl (dieBitStep off v) (dropWaiting s off)) := by
    induction n with
    | zero => exact bitsWritten_zero ..
    | succ n ih =>
      rw [List.range_succ, List.foldl_append]
      exact bitsWritten_step hoff ih
  exact hall 16

theorem exec_srefWrite {s : State} (hr : s.hub.rot = true) :
    exec .srefWrite s = .next (pumpAll (dieBitsWrite s 0x1001088 (s.arg 0))) := if_neg (by rw [hr]; decide)

theorem exec_tgateWrite {s : State} (hr : s.hub.rot = true) :
    exec .tgateWrite s = .next (pumpAll (dieBitsWrite s 0x1001098 (s.arg 0))) := if_neg (by rw [hr]; decide)

theorem exec_lanesWrite {s : State} (hr : s.hub.rot = true) :
    exec .lanesWrite s = .next (s.onHub (fun h => { h with lanesNext := some (packFields 2 (fun k =>
      if bits (s.arg 0) (2 * k) 2 = 3 then bits s.hub.lanesReg (2 * k) 2 else bits (s.arg 0) (2 * k) 2) 16) })) := by
  change execLanesWrite s = _
  simp only [execLanesWrite, hr, Bool.not_true, Bool.false_eq_true, if_false, State.onHub]

end Sys2Proof.Machine
end

section
/-! SUPPORT. The reset of the module, its trip, the functions that report ready, and the accesses from outside (R328, R340, R349, R464, R469,
R474, R478 to R481). -/

namespace Sys2Proof.Machine

/-! ## What the module keeps -/

/-- Places from 2^56 on are homes, not scratchpads (R474, R479). -/
theorem loseState_mem_home (s : State) {k : Nat} (hk : 2 ^ 56 ≤ k) : memGet (loseState s).mem k = memGet s.mem k :=
  (memGet_filter (fun k => decide (2 ^ 56 ≤ k)) s.mem k).trans (if_pos (decide_eq_true hk))

theorem loseState_sup (s : State) : (loseState s).core.sup = true := by
  have hreset : Tile.reset.sup = true := by decide
  exact hreset

section
variable {s : State}

theorem exec_thermalTrip_trips (hu : s.arg 0 < 34) (hread : 1680 ≤ s.arg 1) (ht : s.hub.tripped = false) :
    let s1 := tripEvent s (s.arg 0) (s.arg 1)
    let cut := loseState (s1.tileNums.foldl (fun s t => (List.range 8).foldl (fun s f => interrupt s t f) s) s1)
    exec .thermalTrip s = .next { loseState s1 with
      core := cut.core, others := cut.others, free := cut.free,
      hub := { Hub.reset with ctr := s1.hub.ctr, flash := s1.hub.flash, flashNew := s1.hub.flashNew, gtc := s1.hub.gtc, mgmt := s1.hub.mgmt,
                              rdyh := s1.hub.rdyh % 2, booted := s1.hub.booted, tripped := true, sref := 65535, tgate := 65535,
                              trips := mset s1.hub.trips (s.arg 0) (s.arg 1) } } :=
  (if_neg (by omega)).trans ((if_neg (by omega)).trans (if_neg (by rw [ht]; decide)))

/-! ## Verification -/

theorem exec_moduleReset_verified (h : bootFail s (s.hub.flashNew.getD s.hub.flash) = 0) :
    exec .moduleReset s = .next ((loseState s).onHub (fun g => { g with
      fail := 0, booted := true, ctr := max s.hub.ctr (s.hub.flashNew.getD s.hub.flash).v, flash := s.hub.flashNew.getD s.hub.flash,
      flashNew := none })) := by
  change execModuleReset s = _
  simp only [execModuleReset, h, if_true]
  rfl

theorem exec_moduleReset_refused (h : bootFail s (s.hub.flashNew.getD s.hub.flash) ≠ 0) :
    exec .moduleReset s = .next ((loseState s).onHub (fun g => { g with
      fail := bootFail s (s.hub.flashNew.getD s.hub.flash), booted := false })) := by
  change execModuleReset s = _
  simp only [execModuleReset, h, if_false]

variable {c : CfgRecord}

theorem bootFail_unread (h : bit (s.arg 0) 0 = true) : bootFail s c = 5 := if_pos h

theorem bootFail_unsigned (h0 : bit (s.arg 0) 0 = false) (h : bit (s.arg 0) 1 = true ∨ bit (s.arg 0) 2 = true) : bootFail s c = 1 := by
  have hbad : (!accepted (!bit (s.arg 0) 1) (!bit (s.arg 0) 2)) = true := by
    rcases h with h | h <;> simp [accepted, h]
  exact (if_neg (Bool.eq_false_iff.1 h0)).trans (if_pos hbad)

theorem bootFail_older (h0 : bit (s.arg 0) 0 = false) (h1 : bit (s.arg 0) 1 = false) (h2 : bit (s.arg 0) 2 = false)
    (hv : c.v < s.hub.ctr) : bootFail s c = 2 := by
  have hgood : ¬(!accepted (!bit (s.arg 0) 1) (!bit (s.arg 0) 2)) = true := by
    rw [h1, h2]
    decide
  exact (if_neg (Bool.eq_false_iff.1 h0)).trans ((if_neg hgood).trans (if_pos hv))

theorem exec_signedUpdate_whole (ha : s.arg 0 = 1) (hup : s.claspUp 80 = true) (hlen : s.args.length ≤ 4) :
    exec .signedUpdate s = .next (s.onHub (fun h => { h with flashNew := some { s.hub.flash with
      v := s.arg 1, featcap := s.args.getD 2 s.hub.flash.featcap, serial := s.args.getD 3 s.hub.flash.serial } })) := by
  change execSignedUpdate s = _
  simp only [execSignedUpdate, hlen, if_true]
  exact if_pos ⟨ha, hup⟩

/-! ## Readiness -/

/-- What function fn, of group k of sixteen, reports once start-up is open to it (R474, R478). -/
def reportReady (s : State) (k fn : Nat) : State :=
  let d := fn % 16
  match k with
  | 0 => if bit s.hub.rdyh (d / 8) && !bit s.hub.gate d then setRdy s d 0 else s
  | 1 => setRdy s d 1
  | 2 => setRdy s d 2
  | 3 => if bit s.hub.gate d then s else setRdy s d 3
  | 4 => if bit s.hub.gate d then s else setRdy s d 4
  | 5 => setRdyh s (8 + d)
  | _ => setRdyh s (if fn = 96 then 1 else 0)

section
variable (hr : s.hub.rot = true) (hup : s.claspUp 80 = true)
include hr hup

theorem exec_functionReady_group (k : Nat) (hlt : s.arg 0 < 98) (hk : s.arg 0 / 16 = k) :
    exec .functionReady s = .next (reportReady s k (s.arg 0)) := by
  change execFunctionReady s = _
  rw [execFunctionReady, if_neg (Nat.not_le.2 hlt), if_neg (by rw [hr, hup]; decide), hk]
  rcases k with _ | _ | _ | _ | _ | _ | k <;> rfl

theorem exec_functionReady_die (h : s.arg 0 < 16) (hhub : bit s.hub.rdyh (s.arg 0 / 8) = true) (hg : bit s.hub.gate (s.arg 0) = false) :
    exec .functionReady s = .next (setRdy s (s.arg 0) 0) := by
  rw [exec_functionReady_group hr hup 0 (by omega) (by omega), reportReady]
  simp only [Nat.mod_eq_of_lt h, hhub, hg, Bool.not_false, Bool.and_self, if_true]

theorem exec_functionReady_pendant (hlo : 48 ≤ s.arg 0) (hhi : s.arg 0 < 64) (hg : bit s.hub.gate (s.arg 0 % 16) = false) :
    exec .functionReady s = .next (setRdy s (s.arg 0 % 16) 3) := by
  rw [exec_functionReady_group hr hup 3 (by omega) (by omega)]
  exact congrArg _ (if_neg (Bool.eq_false_iff.1 hg))

theorem exec_functionReady_locket (hlo : 64 ≤ s.arg 0) (hhi : s.arg 0 < 80) (hg : bit s.hub.gate (s.arg 0 % 16) = false) :
    exec .functionReady s = .next (setRdy s (s.arg 0 % 16) 4) := by
  rw [exec_functionReady_group hr hup 4 (by omega) (by omega)]
  exact congrArg _ (if_neg (Bool.eq_false_iff.1 hg))

theorem exec_functionReady_hub (h : s.arg 0 = 96 ∨ s.arg 0 = 97) :
    exec .functionReady s = .next (setRdyh s (if s.arg 0 = 96 then 1 else 0)) :=
  exec_functionReady_group hr hup 6 (by omega) (by omega)

end

/-! ## Accesses from outside -/

theorem exec_hostApertureAccess_moved {v : Nat} {bad : Bool} {s1 : State} (hin : s.arg 1 + s.arg 2 ≤ 2 ^ 36) (hr : s.hub.rot = true)
    (hm : hostMove (s.arg 0 == 1) (s.arg 4 % 2) (s.arg 2 / 4096 + 3) (s.arg 1) (s.arg 2) (s.arg 3) s = some (v, bad, s1)) :
    exec .hostApertureAccess s = .next (if s.arg 0 = 1 then s1
      else s1.onHub (fun h => { h with rdData := if bad then 2 ^ (8 * s.arg 2) else v })) := by
  change execHostApertureAccess s = _
  simp only [execHostApertureAccess, if_neg (Nat.not_lt.2 hin), hr, hm, Bool.not_true, Bool.false_eq_true, if_false]

theorem peerHub_linked {cls tgt dia hub : Nat} (h : peerHub s cls tgt dia = some hub) : linkState s 33 ≠ 0 ∨ linkState s 34 ≠ 0 := by
  have hp := List.find?_some h
  rw [Bool.and_eq_true, bne_iff_ne] at hp
  have hm := List.mem_of_find?_eq_some h
  obtain rfl | rfl : hub = 1 ∨ hub = 0 := by simpa using hm
  · exact .inr hp.1
  · exact .inl hp.1

theorem peerAccess_done {ops : List Nat} {hub v : Nat} {s1 : State}
    (hhub : peerHub s (bits (ops.getD 1 0) 44 3) (bits (ops.getD 1 0) 40 4) (bits (ops.getD 1 0) 0 40) = some hub)
    (hout : outAccess s hub (bits (ops.getD 1 0) 44 3) (bits (ops.getD 1 0) 40 4) (bits (ops.getD 1 0) 0 40) (ops.getD 2 0) (ops.getD 3 0)
      (ops.getD 0 0 == 1) (ops.getD 4 0 == 1) = .done v s1) :
    peerAccess s ops = some (if ops.getD 0 0 = 1 then s1 else s1.onHub (fun h => { h with rdData := v })) := by
  simp only [peerAccess, hhub, hout, beq_iff_eq]

theorem peerAccess_unreached {ops : List Nat}
    (hhub : peerHub s (bits (ops.getD 1 0) 44 3) (bits (ops.getD 1 0) 40 4) (bits (ops.getD 1 0) 0 40) = none) :
    peerAccess s ops = none := by
  simp only [peerAccess, hhub]

section
variable (hargs : s.args ≠ []) (hpos : bits (s.arg 1) 47 5 = fld s.hub.prcfg 0 5) (hr : s.hub.rot = true)
  (hl : linkState s 33 ≠ 0 ∨ linkState s 34 ≠ 0)
include hargs hpos hr hl

/-- An access that arrives goes by its class (R340, R469). -/
theorem exec_peerMemoryAccess_arrived : exec .peerMemoryAccess s =
    if 2 < bits (s.arg 1) 44 3 then .next (s.onHub (fun h => { h with rdData := 2 ^ (8 * s.arg 2 + 1) }))
    else .next ((peerAccess s s.args).getD (s.onHub (fun h => { h with peerDue := h.peerDue ++
      [(homeOf (bits (s.arg 1) 44 3) (bits (s.arg 1) 40 4) (bits (s.arg 1) 0 40), false, s.args)] }))) := by
  have hgo : ¬(bits (s.arg 1) 47 5 ≠ fld s.hub.prcfg 0 5 ∨ (!s.hub.rot) = true ∨ linkState s 33 = 0 ∧ linkState s 34 = 0) := by
    rw [hr]
    simp only [hpos, ne_eq, not_true_eq_false, Bool.not_true, Bool.false_eq_true, false_or, not_and_or]
    exact hl
  change execPeerMemoryAccess s = _
  rw [execPeerMemoryAccess, if_neg hargs, if_neg hgo]
  cases peerAccess s s.args <;> rfl

end

/-! ## Accesses that are due -/

section
variable {p : Nat × Bool × List Nat} (hargs : s.args = []) (hdue : s.hub.peerDue = [p])
include hargs hdue

theorem exec_peerMemoryAccess_due {x s' : State} (hgo : peerGo s p = some x)
    (hmade : peerGo (s.onHub (fun h => { h with peerDue := [] })) p = some s') : exec .peerMemoryAccess s = .next s' := by
  have hnext : nextPeer s = some 0 := by simp [nextPeer, hdue, lfind, hgo]
  change execPeerMemoryAccess s = _
  rw [execPeerMemoryAccess, if_pos hargs]
  simp only [hnext, hdue, lget, State.onHub, ldel] at hmade ⊢
  rw [hmade]

theorem exec_peerMemoryAccess_stays (hgo : peerGo s p = none) : exec .peerMemoryAccess s = .next s := by
  have hnext : nextPeer s = none := by simp [nextPeer, hdue, lfind, hgo]
  change execPeerMemoryAccess s = _
  rw [execPeerMemoryAccess, if_pos hargs]
  simp only [hnext]

end

end

/-- A faulted access of another module has its answer sent once a port that is UP is reached (R349, R470). -/
theorem peerGo_answered {s : State} {m : Nat} {ops : List Nat} (h : peerBack s m = true) :
    peerGo s (m, true, ops) = some (s.onHub (fun h => { h with rdData := 2 ^ (8 * ops.getD 2 0 + 1) })) := if_pos h

theorem peerGo_unanswered {s : State} {m : Nat} {ops : List Nat} (h : peerBack s m = false) : peerGo s (m, true, ops) = none :=
  if_neg (Bool.eq_false_iff.1 h)

theorem peerBack_west {s : State} {m : Nat} (hsp : spineOk s m 0 = true) (hl : linkState s 33 ≠ 0) : peerBack s m = true := by
  simp [peerBack, hsp, hl]

theorem peerBack_down {s : State} (m : Nat) (h0 : linkState s 33 = 0) (h1 : linkState s 34 = 0) : peerBack s m = false := by
  simp [peerBack, h0, h1]

/-- Settles O48: each step by its own lemma, and SREF and TGATE by what a write of their bits does die by die. -/
theorem moduleSteps : Obligations.ModuleSteps := by
  intro s a h p m c rot start atHub
  have hrot (hr : rot) : s.hub.rot = true := Hub.rot_of hr
  refine ⟨exec_linkRetry, ?_, ?_, ?_, ?_, fun hr hset => exec_feataccWrite_again (hrot hr) hset,
    fun hr hd hv => exec_clkWrite_taken (hrot hr) hd hv, fun v hd hv => exec_clockSwitch_waiting hd hv, ?_, ?_, ?_,
    fun hr => exec_lanesWrite (hrot hr), exec_hopRetrain_noSpine, fun v => exec_hopRetrain_written,
    exec_thermalTrip_trips, fun k => loseState_mem_home s, ⟨rfl, loseState_sup s, rfl, rfl⟩,
    exec_moduleReset_verified, exec_moduleReset_refused, bootFail_unread, bootFail_unsigned, bootFail_older,
    exec_signedUpdate_whole, ?_, ?_, ?_, ?_, ?_⟩
  · -- A link that fails
    intro hlt hup
    rw [exec_hopDown hlt, setLink_down hup]
  · -- A peer port that comes UP
    intro hlt hen hpm h1 h2 hdown
    rw [exec_peerPortUp_fits hlt ⟨hen, hpm, h1, h2⟩, setLink_up hdown]
  · -- GTC
    change execGtcSync s = _
    simp only [execGtcSync, b2n, decide_eq_true_eq]
    rfl
  · -- The first write of FEATACC
    exact fun hr hv h0 hcap hfree => exec_feataccWrite_first (hrot hr) hv h0 hcap hfree
  · -- GATE
    intro d hr hd ha hg hf hsp hw
    rw [exec_gateWrite_single (hrot hr) hd ha hg hf (hsp d hd) hw, ha]
    exact ⟨fun hfree => congrArg _ (if_neg (Bool.eq_false_iff.1 hfree)), fun hbusy => congrArg _ (if_pos hbusy)⟩
  · -- SREF
    intro hr
    obtain ⟨-, reached, kept, waits⟩ := dieBitsWrite_bits (.inl rfl) s (s.arg 0)
    simp only [dieBits_sref] at reached kept waits
    exact ⟨_, exec_srefWrite (hrot hr), fun d hd => ⟨reached d hd, fun hsp => ⟨kept d (.inr hsp), waits d hd hsp⟩⟩⟩
  · -- TGATE
    intro hr
    obtain ⟨-, reached, kept, waits⟩ := dieBitsWrite_bits (.inr rfl) s (s.arg 0)
    simp only [dieBits_tgate] at reached kept waits
    exact ⟨_, exec_tgateWrite (hrot hr), fun d hd => ⟨reached d hd, fun hsp => ⟨kept d (.inr hsp), waits d hd hsp⟩⟩⟩
  · -- Readiness
    intro ⟨hr, hup⟩
    have hgroup := exec_functionReady_group (hrot hr) hup
    exact ⟨exec_functionReady_die (hrot hr) hup, fun hlo hhi => hgroup 1 (by omega) (by omega), fun hlo hhi => hgroup 2 (by omega) (by omega),
      exec_functionReady_pendant (hrot hr) hup, exec_functionReady_locket (hrot hr) hup, fun hlo hhi => hgroup 5 (by omega) (by omega),
      fun ha => (exec_functionReady_hub (hrot hr) hup (.inl ha)).trans (by rw [if_pos ha]),
      fun ha => (exec_functionReady_hub (hrot hr) hup (.inr ha)).trans (by rw [if_neg (by omega)])⟩
  · -- The host's aperture
    exact fun v bad s1 hin hr hm => exec_hostApertureAccess_moved hin (hrot hr) hm
  · -- A peer's access
    intro A hr hargs hpos
    refine ⟨fun hcls => ⟨fun v s1 hub hhub hout => ?_, fun hl hhub => ?_⟩, fun hl hcls => ?_⟩
    · rw [exec_peerMemoryAccess_arrived hargs hpos (hrot hr) (peerHub_linked hhub), if_neg (Nat.not_lt.2 hcls), peerAccess_done hhub hout]
      rfl
    · rw [exec_peerMemoryAccess_arrived hargs hpos (hrot hr) hl, if_neg (Nat.not_lt.2 hcls), peerAccess_unreached hhub]
      rfl
    · rw [exec_peerMemoryAccess_arrived hargs hpos (hrot hr) hl, if_pos hcls]
  · -- A faulted access that is answered
    intro m ops hargs hdue hsp hl
    have hback : peerBack s m = true := peerBack_west hsp hl
    exact exec_peerMemoryAccess_due hargs hdue (peerGo_answered hback) (peerGo_answered hback)
  · -- A faulted access without a way back
    exact fun m ops hargs hdue h0 h1 => exec_peerMemoryAccess_stays hargs hdue (peerGo_unanswered (peerBack_down m h0 h1))

end Sys2Proof.Machine
end
